-- ==== Sys2Proof/Word.lean ====
section
/-! DEFINITION. Bytes, words of several widths, little-endian packing, and the plain list helpers of the model. -/

namespace Sys2Proof

/-- One byte. -/
abbrev Byte := BitVec 8

/-- A run of bytes in address order, lowest address first (Table 0-4, `bytes[n]`). -/
abbrev Bytes := List Byte

/-- An FP32 encoding (Table 3-1). -/
abbrev F32 := BitVec 32

/-- A 64-bit word, as registers, handles and sync cells hold it. -/
abbrev W64 := BitVec 64

end Sys2Proof
end

