-- ==== Sys2Proof/Syntax.lean ====
section
/-! DEFINITION. The commands of the block: one constructor per row of the opcode table, with its operands.
What a row needs from outside the block (a signature's validity, a sensor's reading, an error that has
arisen in a stored byte) is an operand of that row. -/

namespace Sys2Proof

/-- The mailbox a command word is written to (R379, R581). -/
inductive Box where
  | session (qp : Nat)
  | control (m : Nat)
  | sideband
  deriving DecidableEq, Repr

/-- A command word: its mailbox and its MSEQ (R380). -/
structure Cmd where
  box  : Box
  mseq : Nat
  deriving DecidableEq, Repr

/-- The word that a core's access meets: sound, uncorrectable, or uncorrectable with a clean copy held elsewhere (R316). -/
inductive GuestWord where
  | good | bad | clean
  deriving DecidableEq, Repr

/-- What core `core` of a partition does (R301, R305, R306, R314, R316): its accesses by guest physical address, the calls of the
timer, HSM and IPI extensions, and the changes it makes to its own interrupt state. -/
inductive GuestOp where
  | fetch (core addr : Nat) (w : GuestWord)
  | load (core addr n : Nat) (w : GuestWord)
  | store (core addr : Nat) (v : Bytes) (w : GuestWord)
  | setTimer (core at_ : Nat)
  | start (core target pc arg : Nat)
  | halt (core : Nat)
  | ipi (core target : Nat)
  /-- The external interrupt, or the software interrupt, has been served. -/
  | claim (core : Nat)
  | ack (core : Nat)
  /-- SSTATUS.SIE is set or cleared. -/
  | setSie (core : Nat) (on : Bool)
  /-- The trap handler returns, to VU-mode or VS-mode. -/
  | sret (core : Nat) (user : Bool)
  deriving DecidableEq, Repr

/-- A partition, with what its cores do before the row's own event. -/
structure PartEvent where
  part : Nat
  acts : List GuestOp := []
  deriving DecidableEq, Repr

/-- A core of a partition, with what the partition's cores do before the row's own event. -/
structure CoreEvent where
  part : Nat
  core : Nat
  acts : List GuestOp := []
  deriving DecidableEq, Repr

/-- The store of a reply word (R314), with what the partition's cores do before it. -/
structure ReplyStore where
  word : W64
  acts : List GuestOp := []
  deriving DecidableEq, Repr

/-- Who writes an arm word: a connected QP, or a partition's store to an internal slot after the accesses `acts` (R306). -/
inductive Via where
  | qp (n : Nat)
  | part (p : Nat) (acts : List GuestOp)
  deriving DecidableEq, Repr

/-- An arm word for a slot (partition-relative for an internal slot) with its SLOTSEQ (R395), and whether the copy of the slot's header
and body meets an uncorrectable word (Table 18-3). -/
structure Arm where
  via  : Via
  slot : Nat
  seq  : Nat
  ue   : Bool := false
  deriving DecidableEq, Repr

/-- The slot of an armed request: a network slot, or slot `n` of the partition with service lease `l`, which no later partition has. -/
inductive Req where
  | net (n : Nat)
  | int (l n : Nat)
  deriving DecidableEq, Repr

/-- What a signature field verifies as: the public key and the message bytes for which the ML-DSA-44
verifier accepts it (log entry 5). -/
structure Signed where
  key : Bytes
  msg : Bytes
  deriving DecidableEq, Repr

/-- MACsec protection of a received frame: the receive SC, association number and packet number of its
SecTAG, and whether its ICV verifies (R474). -/
inductive SecTag where
  | none
  | tag (rxsc an pn : Nat) (icvOk : Bool)
  deriving DecidableEq, Repr

/-- The parts of a received RoCEv2 packet that every request row shares: destination QP, PSN, priority,
frame byte count of R459, ECN mark, ICRC check, MACsec tag and whether its options are those of Table 16-1. -/
structure Rx where
  qp        : Nat
  psn       : Nat
  pcp       : Nat
  count     : Nat
  ce        : Bool
  icrcOk    : Bool
  supported : Bool
  sec       : SecTag
  deriving DecidableEq, Repr

/-- One packet of an RDMA WRITE message: the message's address, rkey and length, and this packet's offset and bytes; and, of a message
that arms a slot, whether the copy of the slot meets an uncorrectable word (Table 18-3). -/
structure WriteMsg where
  addr : Nat
  rkey : Nat
  len  : Nat
  off  : Nat
  data : Bytes
  imm  : Bool
  ue   : Bool := false
  deriving DecidableEq, Repr

/-- The fields of a CM REQ that R452 uses. -/
structure CmReq where
  peer    : Nat
  peerQpn : Nat
  rc      : Bool
  pkey    : Nat
  depth   : Nat
  mtu     : Nat
  tclass  : Nat
  pcp     : Option Nat
  psn     : Nat
  deriving DecidableEq, Repr

/-- NAKs a requester meets (R455). -/
inductive NakKind where
  | sequence | rnr | remoteAccess | invalidRequest | operational
  deriving DecidableEq, Repr

/-- A bank operation descriptor's fields (Table 4-3); `rsvd` says that a reserved field is not zero. -/
structure Desc where
  fmt   : Nat
  sub   : Nat
  frame : Nat
  first : Nat
  count : Nat
  heads : Nat
  dim   : Nat
  mask  : Nat
  vreg  : Nat
  pent  : Nat
  arg0  : Nat
  arg1  : Nat
  arg2  : Nat
  arg3  : Nat
  optag : Nat
  rsvd  : Bool
  deriving DecidableEq, Repr

/-- What the die meets while a bank operation runs: an uncorrectable word, a parity error in a BAU byte, and the frames in which on-die
ECC corrected a bit (R100, R125, R517). For an operation on pages the number is the page, for DIST_EXACT the candidate, for any other
how many bytes it has written when it meets the error. -/
structure OpEnv where
  ue        : Option Nat
  parity    : Option Nat
  corrected : List Nat
  deriving DecidableEq, Repr

/-- A bank operation sent to a bank: descriptor, the bytes its channel carries in, the tenant it serves and
what the die meets. -/
structure BankCmd where
  bank   : Nat
  tenant : Nat
  desc   : Desc
  chan   : Bytes
  env    : OpEnv
  deriving DecidableEq, Repr

/-- What a pin access finds in a frame: bytes of the frame (offsets below 4,096) or of its check record
(from 4,096) that have changed, with the changed bits; whether on-die ECC corrected a bit, or reports an
uncorrectable word (R514, R517). -/
structure FrameEnv where
  flips : List (Nat × Byte)
  ondie : Bool
  ue    : Bool
  deriving DecidableEq, Repr

/-- What a pass on an array meets in its local stores and the node buffer (R255): nothing, a single-bit error that is corrected, an
uncorrectable word of a weight tile buffer, or one of an accumulator or activation. -/
inductive SramEnv where
  | clean | corrected | buffer | data
  deriving DecidableEq, Repr

/-- What a page of a span pass on an array meets: in the array's stores, and in the frame it reads. -/
structure PassEnv where
  sram  : SramEnv
  frame : FrameEnv
  deriving DecidableEq, Repr

/-- What a NAND read of a block meets: the retry level that read it, or failure at a step of R356. -/
structure FlashEnv where
  level  : Nat
  failed : Bool
  deriving DecidableEq, Repr

/-- What Mace finds as it reads a segment: its 4 KiB frames with more than t/2 corrected symbols, and those that no retry level
corrects, with the last level tried. -/
structure SegFind where
  weak  : List Nat
  bad   : List Nat
  level : Nat
  deriving DecidableEq, Repr

/-- A T2 block that fails R356 when a command reads it: flash-object index and block. -/
structure LostBlock where
  obj   : Nat
  block : Nat
  deriving DecidableEq, Repr

/-- The one geometry that every NAND target reports (R358, R359), with the factory-marked bad blocks. -/
structure FlashGeom where
  targets   : Nat
  luns      : Nat
  planes    : Nat
  pageMain  : Nat
  pageSpare : Nat
  pages     : Nat
  blocks    : Nat
  bytesPerNs10 : Nat
  bad       : List Nat
  deriving DecidableEq, Repr

/-- Channels whose interface training or mode-register access fails, and dies whose mode-register access fails, at boot or as stacks
leave self-refresh (triggers 5 and 6 of Table 18-6). -/
structure Train where
  channels : List Nat := []
  dies     : List Nat := []
  deriving DecidableEq, Repr

/-- A stack that wakes, and what its training finds. -/
structure StackWake where
  stack : Nat
  train : Train := {}
  deriving DecidableEq, Repr

/-- The signatures over a firmware image that ROM meets (R484, R485). -/
structure BootSigs where
  vsig : Option Signed
  osig : Option Signed
  flashError : Bool
  /-- What a warm reset finds as the stacks leave self-refresh (R555 step 6). -/
  train : Train
  deriving DecidableEq, Repr

/-- What firmware finds in the save areas at a cold reset (R571). -/
structure SaveVerdict where
  commitA : Bool
  commitB : Bool
  train : Train
  deriving DecidableEq, Repr

/-- The causes of R536. -/
inductive FailCause where
  | lockstep
  | frame (npa : Nat)
  | thermtripDie (temp : Int)
  | thermtripStack (stack : Nat) (temp : Int)
  deriving DecidableEq, Repr

/-- Why a power state is left (R552). -/
inductive WakeCause where
  | arm | mailbox | score | timer | mover | mace | config
  deriving DecidableEq, Repr

/-- The end of a power state: its cause, and what the training of the stacks that wake finds. -/
structure PowerWake where
  why   : WakeCause
  train : Train := {}
  deriving DecidableEq, Repr

/-- A vendor token presented over JTAG (R478). -/
structure JtagToken where
  sig : Option Signed
  deriving DecidableEq, Repr

/-- The commands. -/
inductive Instr where
  /-- ATTEND (R147). Arm word arms an ATTEND slot; the node checks the body and computes partial records over the visible spans. -/
  | attend (a : Arm)
  /-- ATTEND_SELECT (R219). Arm word arms an ATTEND_SELECT; Pepper walks select pages and the engine attends over the selection. -/
  | attendSelect (a : Arm)
  /-- MERGE_FORWARD (R173). Arm word arms a MERGE_FORWARD parent that merges child inputs in canonical or arrival order. -/
  | mergeForward (a : Arm)
  /-- APPEND_SCATTER (R187). Arm word arms an APPEND_SCATTER that moves staged rows into their pages and advances the written frontier. -/
  | appendScatter (a : Arm)
  /-- COMMIT (R195). Arm word arms a COMMIT that checks lengths and raises the committed length once the loss bound allows. -/
  | commit (a : Arm)
  /-- TRUNCATE (R198). Arm word arms a TRUNCATE that lowers C and the frontiers, then zeroes and frees rows above the new length. -/
  | truncate (a : Arm)
  /-- SEARCH (R240). Arm word arms a SEARCH that walks a collection tree and re-ranks candidates with exact distances. -/
  | search (a : Arm)
  /-- INSERT_VECTORS (R246). Arm word arms an INSERT_VECTORS that stores staged vectors and inserts their entries into the collection tree. -/
  | insertVectors (a : Arm)
  /-- DELETE_VECTORS (R246). Arm word arms a DELETE_VECTORS that tombstones the entries of the listed VIDs. -/
  | deleteVectors (a : Arm)
  /-- RUN_LAYERS (R291). Arm word arms a RUN_LAYERS that runs a layer plan over a batch of rows and optionally commits appended tokens. -/
  | runLayers (a : Arm)
  /-- SCORE (R311). Arm word arms a SCORE request for a resident service, checked and queued for delivery. -/
  | score (a : Arm)
  /-- REPLICA_PUT (R336). Arm word arms a REPLICA_PUT that stores a staged sealed block as a replica object and acknowledges it. -/
  | replicaPut (a : Arm)
  /-- CANCEL (R409). An arm word with CANCEL set and SLOTSEQ equal to LAST cancels the running request at its cancel boundary. -/
  | cancel (a : Arm)
  /-- NONCE_GET (R374). Session mailbox command that returns a fresh nonce valid for 10 s. -/
  | nonceGet (c : Cmd)
  /-- OPEN_SESSION (R376). Session mailbox command that verifies a credential and opens an OWNER or TENANT session on the QP. -/
  | openSession (c : Cmd) (sig : Option Signed)
  /-- CLOSE_SESSION (R377). Session mailbox command that ends the QP's session and detaches its control mailbox. -/
  | closeSession (c : Cmd)
  /-- MBOX_ATTACH (R393). Session mailbox command that attaches a free control mailbox to an OWNER session and returns its rkey. -/
  | mboxAttach (c : Cmd)
  /-- MBOX_DETACH (R393). Session mailbox command that detaches the session's control mailbox. -/
  | mboxDetach (c : Cmd)
  /-- PEER_CONNECT (R378). Session mailbox command that opens an RC QP to a peer node and a bound session on it. -/
  | peerConnect (c : Cmd)
  /-- SLOT_QUERY (R388). Session mailbox command that returns LAST and the running flag of a range of slots. -/
  | slotQuery (c : Cmd)
  /-- STATS_GET (R389). Session mailbox command that returns the tenant's eight statistics counters. -/
  | statsGet (c : Cmd)
  /-- LEASE_GRANT (R423). Session mailbox command that checks limits and clock state and grants a lease with slots, cells and staging. -/
  | leaseGrant (c : Cmd)
  /-- LEASE_RENEW (R427). Session mailbox command that renews an ACTIVE lease and returns its cell. -/
  | leaseRenew (c : Cmd)
  /-- LEASE_RELEASE (R607). Session mailbox command that ends a lease with CAUSE 2 and fences it. -/
  | leaseRelease (c : Cmd)
  /-- SEQ_CREATE (R385). Session mailbox command that creates a sequence with its attributes and returns its alias. -/
  | seqCreate (c : Cmd)
  /-- SEQ_DELETE (R386). Session mailbox command that removes a sequence not bound to a writer. -/
  | seqDelete (c : Cmd)
  /-- SPAN_INFO (R387). Session mailbox command that returns span-table entries of a range of spans. -/
  | spanInfo (c : Cmd)
  /-- SEQ_EVICT (R325). Session mailbox command that evicts the evictable spans of one sequence to T2. -/
  | seqEvict (c : Cmd)
  /-- SEQ_INSTALL (R326). Session mailbox command that installs the FLASH_ONLY spans of one sequence into T1. -/
  | seqInstall (c : Cmd) (lost : List LostBlock)
  /-- DURABLE_REPORT (R390). Session mailbox command that returns durability records of the tenant's sequences after a handle. -/
  | durableReport (c : Cmd)
  /-- REPLICA_PROMOTE (R338). Session mailbox command that turns replica objects of a source sequence into a local FLASH_ONLY sequence. -/
  | replicaPromote (c : Cmd)
  /-- REPLICA_DROP (R509). Session mailbox command that deletes replica objects of a source sequence or withdraws a whole tenant pair. -/
  | replicaDrop (c : Cmd)
  /-- COLL_CREATE (R392). Session mailbox command that creates a vector collection and returns its id. -/
  | collCreate (c : Cmd)
  /-- COLL_DESTROY (R230). Session mailbox command that destroys a vector collection. -/
  | collDestroy (c : Cmd)
  /-- WEIGHT_LOAD (R391). Session mailbox command that loads a weight set from staging, stores it in T1 and T2 and returns its digest. -/
  | weightLoad (c : Cmd)
  /-- PLAN_LOAD (R283). Session mailbox command that validates, lowers and stores a layer-plan container and allots workspaces. -/
  | planLoad (c : Cmd)
  /-- PLAN_UNLOAD (R352). Session mailbox command that removes a layer plan and its stored object. -/
  | planUnload (c : Cmd)
  /-- ROPE_LOAD (R189). Session mailbox command that installs a rotary table as a SEALED object. -/
  | ropeLoad (c : Cmd)
  /-- TABLE_LOAD (R350). Session mailbox command that installs a tANS coding table under a free table id. -/
  | tableLoad (c : Cmd)
  /-- TABLE_UNLOAD (R351). Session mailbox command that removes a coding table no object still uses. -/
  | tableUnload (c : Cmd)
  /-- SERVICE_LOAD (R304). Session mailbox command that verifies and stores an owner-signed service image. -/
  | serviceLoad (c : Cmd) (sig : Option Signed)
  /-- SERVICE_START (R305). Session mailbox command that creates a partition with a service lease and starts the image. -/
  | serviceStart (c : Cmd)
  /-- SERVICE_STOP (R317). Session mailbox command that stops a partition. -/
  | serviceStop (c : Cmd)
  /-- EVIDENCE_GET (R491). Mailbox command that builds or returns parts of the signed evidence record or certificates. -/
  | evidenceGet (c : Cmd) (asig : Bytes)
  /-- NODE_ID_SET (R393). Control command that sets the node id while no lease is held and writes it to the configuration copy. -/
  | nodeIdSet (c : Cmd)
  /-- EVENT_SUBSCRIBE (R413). Control command that sets or ends the mailbox's event ring subscription. -/
  | eventSubscribe (c : Cmd)
  /-- TENANT_CREATE (R414). Control command that creates a tenant with default settings. -/
  | tenantCreate (c : Cmd)
  /-- TENANT_QUOTA (R417). Control command that sets a tenant's quotas, KV class and array groups. -/
  | tenantQuota (c : Cmd)
  /-- DURABILITY_SET (R418). Control command that sets a tenant's loss bound, durability domain and replica. -/
  | durabilitySet (c : Cmd) (sig : Option Signed)
  /-- TENANT_DESTROY (R506). Control command that fences, halts, crypto-shreds and scrubs a tenant. -/
  | tenantDestroy (c : Cmd)
  /-- KEY_INSTALL (R498). Control command that opens a key-wrap record and installs a new tenant key generation. -/
  | keyInstall (c : Cmd) (sig : Option Signed) (key : Option Bytes)
  /-- KEY_RETIRE (R501). Control command that zeroes an older tenant key generation no block uses. -/
  | keyRetire (c : Cmd)
  /-- LIFECYCLE_NONCE (R479). LIFECYCLE_REQUEST operation NONCE that returns a one-use LCS nonce. -/
  | lifecycleNonce (c : Cmd)
  /-- LIFECYCLE_FIELD (R479). LIFECYCLE_REQUEST operation FIELD that moves LCS from TEST to FIELD. -/
  | lifecycleField (c : Cmd) (sig : Option Signed)
  /-- OWNER_CLAIM (R479). LIFECYCLE_REQUEST operation that programs OWNER_ROOT and OWNER_FLAGS in OTP. -/
  | ownerClaim (c : Cmd)
  /-- OWNER_RECORD (R481). LIFECYCLE_REQUEST operation that verifies and writes a new owner record. -/
  | ownerRecord (c : Cmd) (sig : Option Signed)
  /-- LIFECYCLE_RETURN (R482). LIFECYCLE_REQUEST operation RETURN that erases save areas, zeroes key slots and blows the RETURN fuse. -/
  | lifecycleReturn (c : Cmd) (osig vsig : Option Signed)
  /-- LIFECYCLE_VOID (R479). LIFECYCLE_REQUEST operation VOID that permanently disables the part. -/
  | lifecycleVoid (c : Cmd) (sig : Option Signed)
  /-- MIGRATE_BEGIN_DEST (R436). MIGRATE_BEGIN with ROLE DEST that marks sequences incoming and enters PREPARED. -/
  | migrateBeginDest (c : Cmd)
  /-- MIGRATE_BEGIN_SOURCE (R436). MIGRATE_BEGIN with ROLE SOURCE that opens a lease on the destination and copies blocks. -/
  | migrateBeginSource (c : Cmd)
  /-- MIGRATE_COMMIT_FREEZE (R438). MIGRATE_COMMIT phase FREEZE that gates writers and makes the final copy. -/
  | migrateCommitFreeze (c : Cmd)
  /-- MIGRATE_COMMIT_INSTALL (R439). MIGRATE_COMMIT phase INSTALL that makes replica objects the destination's own sequences. -/
  | migrateCommitInstall (c : Cmd)
  /-- MIGRATE_COMMIT_FINISH (R440). MIGRATE_COMMIT phase FINISH that stubs the source sequences and raises the epoch floor. -/
  | migrateCommitFinish (c : Cmd)
  /-- MIGRATE_ABORT (R441). Control command that aborts a migration at source or destination. -/
  | migrateAbort (c : Cmd)
  /-- FLASH_PROFILE_LOAD (R360). Control command that loads the flash profile. -/
  | flashProfileLoad (c : Cmd)
  /-- FLASH_FORMAT (R359). Control command that formats the NAND, sets flash strength and reserves save areas. -/
  | flashFormat (c : Cmd) (g : Option FlashGeom)
  /-- POWER_LIMIT_SET (R544). Control command that sets stack envelopes, array allowances and the APP envelope. -/
  | powerLimitSet (c : Cmd)
  /-- WAKE_BUDGET_SET (R550). Control command that sets the wake budget and dwell time of power states. -/
  | wakeBudgetSet (c : Cmd)
  /-- RESET_WARM (R556). Control command that starts a warm reset with no reply. -/
  | resetWarm (c : Cmd)
  /-- FUNC_STOP_EGRESS_SCHED (R557). FUNC_STOP of the egress scheduler; frames go with every gate open. -/
  | funcStopEgressSched (c : Cmd)
  /-- FUNC_START_EGRESS_SCHED (R557). FUNC_START of the egress scheduler; the gate control list begins. -/
  | funcStartEgressSched (c : Cmd)
  /-- FUNC_STOP_INGRESS_POLICE (R557). FUNC_STOP of ingress policing; no packet is policed. -/
  | funcStopIngressPolice (c : Cmd)
  /-- FUNC_START_INGRESS_POLICE (R557). FUNC_START of ingress policing; every policer's credit is set to BURST. -/
  | funcStartIngressPolice (c : Cmd)
  /-- FUNC_STOP_MACE_T1 (R557). FUNC_STOP of the Mace T1 walk at a frame boundary. -/
  | funcStopMaceT1 (c : Cmd)
  /-- FUNC_START_MACE_T1 (R557). FUNC_START of the Mace T1 walk at the next frame. -/
  | funcStartMaceT1 (c : Cmd)
  /-- FUNC_STOP_MACE_T2 (R557). FUNC_STOP of Mace read refresh, read disturb and wear levelling. -/
  | funcStopMaceT2 (c : Cmd)
  /-- FUNC_START_MACE_T2 (R557). FUNC_START of the Mace T2 walk at the next segment. -/
  | funcStartMaceT2 (c : Cmd)
  /-- FUNC_STOP_LINK (R557). FUNC_STOP of LINK that holds the link down and keeps QPs. -/
  | funcStopLink (c : Cmd)
  /-- FUNC_START_LINK (R557). FUNC_START of LINK that trains the link. -/
  | funcStartLink (c : Cmd)
  /-- PORT_CONFIG (R449). Control command that sets addressing, MTU, PFC, DCQCN and lane settings of the port. -/
  | portConfig (c : Cmd)
  /-- SCHED_CONFIG_QUEUE (R466). SCHED_CONFIG QUEUE record that sets a queue's quantum, rate and burst. -/
  | schedConfigQueue (c : Cmd)
  /-- SCHED_CONFIG_GCL (R466). SCHED_CONFIG GCL record that loads the gate control list while the scheduler is stopped. -/
  | schedConfigGcl (c : Cmd)
  /-- POLICER_CONFIG (R467). Control command that sets one ingress policer. -/
  | policerConfig (c : Cmd)
  /-- INSTALL_TRANSMIT_SA (R476). MACSEC_KEY_INSTALL operation that installs a transmit SA. -/
  | installTransmitSa (c : Cmd) (sig : Option Signed) (key : Option Bytes)
  /-- INSTALL_RECEIVE_SA (R476). MACSEC_KEY_INSTALL operation that installs a receive SA. -/
  | installReceiveSa (c : Cmd) (sig : Option Signed) (key : Option Bytes)
  /-- SWITCH_TRANSMIT_SA (R476). MACSEC_KEY_INSTALL operation that switches the transmit SA at the next frame boundary. -/
  | switchTransmitSa (c : Cmd)
  /-- DELETE_RECEIVE_SA (R475). MACSEC_KEY_INSTALL operation that deletes a receive SA. -/
  | deleteReceiveSa (c : Cmd)
  /-- PTP_CONFIG (R470). Control command that sets PTP domain, queue, lock threshold and asymmetries. -/
  | ptpConfig (c : Cmd)
  /-- ERROR_LOG_READ (R526). Control command that returns error records from a record number. -/
  | errorLogRead (c : Cmd)
  /-- HEALTH_GET (R535). Control command that returns the health record. -/
  | healthGet (c : Cmd)
  /-- MACE_RATE_SET (R529). Control command that sets the Mace T1 pass time and T2 interval. -/
  | maceRateSet (c : Cmd)
  /-- RDMA_READ (R371). Received RDMA READ request checked against window regions and answered or NAKed. -/
  | rdmaRead (x : Rx) (addr rkey len : Nat) (bad : Bool)
  /-- RDMA_WRITE (R371). Received RDMA WRITE packet placed in PSN order into a permitted region or NAKed. -/
  | rdmaWrite (x : Rx) (m : WriteMsg)
  /-- COMPARE_SWAP (R404). Received 8-byte compare-swap on one sync cell. -/
  | compareSwap (x : Rx) (addr rkey : Nat) (old new : W64)
  /-- FETCH_ADD (R404). Received 8-byte fetch-add on one sync cell, waking any watching MERGE_FORWARD. -/
  | fetchAdd (x : Rx) (addr rkey : Nat) (add : W64)
  /-- LEASE_CELL_RENEWAL (R427). Fetch-add of 1 to a lease cell's counter that requests a renewal. -/
  | leaseCellRenewal (x : Rx) (lease rkey : Nat)
  /-- CM_REQ (R452). Received Communication Management REQ answered with REP or REJ. -/
  | cmReq (q : CmReq)
  /-- CM_RTU (R452). Received RTU that completes connection setup of an RC QP. -/
  | cmRtu (qpn : Nat)
  /-- CM_DREQ (R452). Received DREQ that disconnects a QP, answered with DREP. -/
  | cmDreq (qpn : Nat)
  /-- CM_DREP (R452). Received DREP that completes a disconnection. -/
  | cmDrep (qpn : Nat)
  /-- ACK_RECEIVED (R455). An ACK on a requester QP acknowledges writes and lets ordered completion writes and cell increments proceed. -/
  | ackReceived (qpn psn : Nat)
  /-- NAK_RECEIVED (R455). A NAK on a requester QP causes retransmission or moves the QP to error. -/
  | nakReceived (qpn psn : Nat) (kind : NakKind)
  /-- ACK_TIMEOUT (R455). Expiry of the requester ACK timeout retransmits or, with retries exhausted, errors the QP. -/
  | ackTimeout (qpn : Nat)
  /-- CNP_RECEIVED (R457). A received CNP lowers the QP's rate and raises alpha. -/
  | cnpReceived (qpn : Nat)
  /-- ALPHA_TIMER (R457). ALPHA_US elapsed with no CNP decays alpha. -/
  | alphaTimer (qpn : Nat)
  /-- INCREASE_TIMER (R457). INC_US elapsed advances the timer stage and raises the rate. -/
  | increaseTimer (qpn : Nat)
  /-- INCREASE_BYTES (R457). INC_BYTES sent advances the byte stage and raises the rate. -/
  | increaseBytes (qpn : Nat)
  /-- PFC_RECEIVED (R458). A received PFC frame pauses or resumes an egress queue. -/
  | pfcReceived (prio pauseNs : Nat)
  /-- PFC_PAUSE_EXPIRY (R458). The pause time of a received PFC frame runs out and the queue resumes. -/
  | pfcPauseExpiry (prio : Nat)
  /-- EGRESS_FRAME_BOUNDARY (R460). At the end of a transmitted frame the scheduler picks the next eligible frame. -/
  | egressFrameBoundary
  /-- GATE_CHANGE (R464). A gate control list entry boundary opens and closes queue gates. -/
  | gateChange
  /-- ARP_REQUEST (R450). Received ARP request for IPV4 answered. -/
  | arpRequest (target sender senderMac : Nat)
  /-- NEIGHBOR_SOLICITATION (R450). Received Neighbor Solicitation for IPV6 or the link-local address answered. -/
  | neighborSolicitation (target sender senderMac : Nat)
  /-- ICMP_ECHO (R450). Received ICMP or ICMPv6 echo request answered. -/
  | icmpEcho (v6 : Bool) (src : Nat) (data : Bytes)
  /-- SYNC_RECEIVED (R471). A received Sync disciplines the PTP clock and can move it to LOCKED. -/
  | syncReceived (domain : Nat) (offset : Int) (intervalNs : Nat)
  /-- SYNC_TIMEOUT (R471). Four Sync intervals with no valid Sync move a LOCKED clock to HOLDOVER. -/
  | syncTimeout
  /-- PDELAY_REQ_RECEIVED (R469). A received Pdelay_Req is answered with Pdelay_Resp. -/
  | pdelayReqReceived (seq rxTime : Nat)
  /-- PDELAY_TIMER (R469). The peer-delay interval expires and the node sends Pdelay_Req. -/
  | pdelayTimer
  /-- PDELAY_RESP_RECEIVED (R469). A received Pdelay_Resp updates the link delay measurement. -/
  | pdelayRespReceived (seq t1 t2 t3 t4 : Nat)
  /-- PPS_OUT (R473). Each whole second of the node clock raises PTP_PPS_OUT for PPS_WIDTH_US. -/
  | ppsOut
  /-- PPS_IN (R473). A rising edge of PTP_PPS_IN is timestamped. -/
  | ppsIn (ts : Nat)
  /-- LINK_DOWN (R447). Loss of lock or FEC failure takes the link down; QPs and timers are held. -/
  | linkDown
  /-- LINK_UP (R447). Link training completes; timers resume and QPs retransmit. -/
  | linkUp
  /-- NETCLK_LOSS (R593). Loss of NETCLK takes the link down and moves the NET PLL to REFCLK. -/
  | netclkLoss
  /-- REFCLK_LOSS (R542). Loss of REFCLK switches SEC to its oscillator and starts the Clove save. -/
  | refclkLoss
  /-- REC_STATUS (R487). Recovery message that returns loader state and bytes received. -/
  | recStatus (tag : Nat)
  /-- REC_BEGIN (R487). Recovery message that erases the image range and starts receiving. -/
  | recBegin (tag : Nat) (len : Nat)
  /-- REC_WRITE (R487). Recovery message that writes image bytes at the next offset. -/
  | recWrite (tag : Nat) (off : Nat) (data : Bytes)
  /-- REC_END (R487). Recovery message that verifies the written image and boots it. -/
  | recEnd (tag : Nat) (v : BootSigs)
  /-- REG_READ (R579). Vendor sideband command that reads identity block, register or counter bytes. -/
  | regRead (tag : Nat) (addr len : Nat)
  /-- REG_WRITE (R579). Vendor sideband command that writes sideband registers with no row of their own. -/
  | regWrite (tag : Nat) (addr : Nat) (data : Bytes)
  /-- SB_STATUS_EVLOST (R582). Writing 1 to SB.STATUS.EVLOST clears the lost-event flag. -/
  | sbStatusEvlost
  /-- SB_CTRL_WARM (R560). Writing 1 to SB.CTRL.WARM starts a warm reset where permitted. -/
  | sbCtrlWarm
  /-- SB_CTRL_EVFLUSH (R583). Writing 1 to SB.CTRL.EVFLUSH discards every queued sideband event. -/
  | sbCtrlEvflush
  /-- SB_FAILCAUSE_ACK (R537). Writing 1 to SB.FAILCAUSE.ACK clears the latched fail cause outside fail-stop. -/
  | sbFailcauseAck
  /-- MBOX_WRITE (R581). Vendor sideband command that writes the inbound sideband mailbox, arming a command on the command word. -/
  | mboxWrite (tag : Nat) (addr : Nat) (data : Bytes)
  /-- MBOX_READ (R578). Vendor sideband command that reads the outbound sideband mailbox. -/
  | mboxRead (tag : Nat) (addr len : Nat)
  /-- EVENT_READ (R582). Vendor sideband command that returns and removes queued event records. -/
  | eventRead (tag : Nat) (len : Nat)
  /-- SET_ENDPOINT_ID (R576). MCTP control message that sets the endpoint id. -/
  | setEndpointId (eid : Nat)
  /-- GET_ENDPOINT_ID (R576). MCTP control message that returns the endpoint id. -/
  | getEndpointId
  /-- GET_MCTP_VERSION_SUPPORT (R576). MCTP control message that returns supported versions. -/
  | getMctpVersionSupport
  /-- GET_MESSAGE_TYPE_SUPPORT (R576). MCTP control message that returns supported message types. -/
  | getMessageTypeSupport
  /-- PLDM_SENSOR_READING (R577). PLDM request that returns a numeric temperature or power sensor. -/
  | pldmSensorReading (id : Nat)
  /-- SETDASA (R598). I3C command that assigns the dynamic address from the static address. -/
  | setdasa (static addr : Nat)
  /-- ENTDAA (R598). I3C dynamic address assignment of the target. -/
  | entdaa (addr : Nat)
  /-- STANDBY_POWER_UP (R28). STBY_3V3 comes within range; the sideband starts answering with reset register values. -/
  | standbyPowerUp
  /-- COLD_RESET (R558). PORST_N low resets the whole package and loses T1. -/
  | coldReset
  /-- ROM_BOOT (R485). PORST_N rise or reset release runs ROM: derivations, image verification, SVN and handover to Anise. -/
  | romBoot (v : BootSigs)
  /-- PWRFAIL_N_RISE (R597). PWRFAIL_N rising lets a ROM held at power-up start. -/
  | pwrfailNRise
  /-- COLD_RESTORE (R571). Firmware restores from the newest complete save image or rebuilds from the log alone. -/
  | coldRestore (v : SaveVerdict)
  /-- WARM_RESET (R555). WRST_N low starts a warm reset with T1 held in self-refresh. -/
  | warmReset
  /-- CLOVE_SAVE (R564). PWRFAIL_N falling halts the node and writes the save image to the erased save area. -/
  | cloveSave (durNs : Nat)
  /-- SAVE_COMMIT (R564). Once the image is programmed the commit pages are written and SAVE_DONE rises. -/
  | saveCommit
  /-- FAIL_STOP (R537). A lockstep mismatch, an uncorrectable t = 64 frame or THERMTRIP stops the node with FAIL_N low. -/
  | failStop (cause : FailCause)
  /-- DEADLINE_EXPIRY (R407). A request's deadline expires and it completes TIMED_OUT unless past its point of no return. -/
  | deadlineExpiry (r : Req)
  /-- LEASE_EXPIRY (R428). The node clock reaches FENCE_AT; the lease ends with CAUSE 1 and is fenced. -/
  | leaseExpiry (id : Nat)
  /-- LEASE_FREE (R421). 60 s after a lease ends and its last request completes, it becomes FREE and its resources return. -/
  | leaseFree (id : Nat)
  /-- SESSION_EXPIRY (R377). A session reaches NOT_AFTER and ends. -/
  | sessionExpiry (qpn : Nat)
  /-- STUB_GRACE_EXPIRY (R440). GRACE_MS after FINISH the stub entries and aliases are freed. -/
  | stubGraceExpiry (mig : Nat)
  /-- MIGRATION_LEASE_RENEWAL (R436). Every 2,500 ms the source renews its lease on the destination. -/
  | migrationLeaseRenewal (mig : Nat)
  /-- REPLICA_RETRY (R337). At most every 100 ms the source re-establishes the replica session and resends unacknowledged blocks. -/
  | replicaRetry (tenant : Nat)
  /-- PEER_WITHDRAW_RETRY (R509). Every 100 ms for 600 s the node retries withdrawing a destroyed tenant from a peer. -/
  | peerWithdrawRetry (tenant : Nat)
  /-- APPEND_CLASS_TURN (R181). An append-class request starts once the earlier requests it is ordered after have completed. -/
  | appendClassTurn (r : Req)
  /-- ATTENTION_CONTEXT_GRANT (R164). A waiting request receives a free attention context or merge-pool reservation and starts units. -/
  | attentionContextGrant
  /-- PEPPER_CONTEXT_GRANT (R227). A waiting walk receives a Pepper context and starts. -/
  | pepperContextGrant
  /-- SCATTER_CONTEXT_GRANT (R411). A waiting request receives a scatter context and starts. -/
  | scatterContextGrant
  /-- WORKSPACE_INSTANCE_GRANT (R291). A waiting RUN_LAYERS receives a workspace instance and starts. -/
  | workspaceInstanceGrant
  /-- FLASH_READ_SPACE_GRANT (R339). A waiting span pass over a FLASH_ONLY span receives flash-read space and starts. -/
  | flashReadSpaceGrant
  /-- SPAN_MOVING_WAIT_END (R53). A write waiting on a MOVING span resumes when the new entry is published. -/
  | spanMovingWaitEnd (r : Req)
  /-- TRUNCATE_ZEROING (R198). After requests armed with a larger length complete, TRUNCATE zeroes rows and frees spans. -/
  | truncateZeroing (r : Req)
  /-- TREE_NODE_READ (R223). A tree-node read completes and the walk or insert continues. -/
  | treeNodeRead (ctx : Nat) (ue : Bool)
  /-- SCORE_DELIVERY (R313). A SCORE is written into a free ring entry and the partition is interrupted. -/
  | scoreDelivery (p : Nat)
  /-- SCORE_REPLY (R314). A service's reply-word store completes the delivered SCORE. -/
  | scoreReply (p entry : Nat) (w : ReplyStore)
  /-- PARTITION_STOP (R317). SBI system reset or a fault in the trap handler stops a partition, which may restart. -/
  | partitionStop (p : PartEvent)
  /-- SPAN_ATTEND (R112). Bank operation computing page partials and the span pass over a run of pages. -/
  | spanAttend (k : BankCmd)
  /-- SPAN_QK (R115). Bank operation computing the score half of a split page. -/
  | spanQk (k : BankCmd)
  /-- SPAN_PV (R115). Bank operation computing the value half of a split page and the span pass. -/
  | spanPv (k : BankCmd)
  /-- PAGE_TAG_CHECK (R108). Bank operation recomputing and comparing page tags. -/
  | pageTagCheck (k : BankCmd)
  /-- PAGE_TAG_WRITE (R116). Bank operation recomputing and writing page tags. -/
  | pageTagWrite (k : BankCmd)
  /-- SKETCH_PAGE (R205). Bank operation computing and writing a page sketch. -/
  | sketchPage (k : BankCmd)
  /-- QUANT_STORE (R117). Bank operation converting FP32 rows to the page format and writing them. -/
  | quantStore (k : BankCmd)
  /-- ROPE_APPLY (R118). Bank operation applying rotary position to rows in place. -/
  | ropeApply (k : BankCmd)
  /-- NORM_RMS (R119). Bank operation accumulating or applying RMS normalisation of a row segment. -/
  | normRms (k : BankCmd)
  /-- NORM_LAYER (R119). Bank operation accumulating or applying layer normalisation of a row segment. -/
  | normLayer (k : BankCmd)
  /-- ELEM (R120). Bank operation applying an element-wise variant. -/
  | elem (k : BankCmd)
  /-- DOT_ROWS (R121). Bank operation computing dot products of bank rows with a vector. -/
  | dotRows (k : BankCmd)
  /-- DIST_EXACT (R121). Bank operation computing exact distances of candidates to a query. -/
  | distExact (k : BankCmd)
  /-- FILL_ZERO (R107). Bank operation zeroing frames, optionally writing all-zero page tags. -/
  | fillZero (k : BankCmd)
  /-- COPY_IN_BANK (R107). Bank operation copying one frame within the bank. -/
  | copyInBank (k : BankCmd)
  /-- LOAD_REG (R107). Bank operation loading V registers from the channel or the bank. -/
  | loadReg (k : BankCmd)
  /-- CLEAR (R123). LOAD_REG CLEAR zeroing all BAU registers, partial store and buffers. -/
  | clear (k : BankCmd)
  /-- STORE_REG (R107). Bank operation storing registers or a partial-store entry to the channel or bank. -/
  | storeReg (k : BankCmd)
  /-- BANK_OPERATION_OUTCOME (R104). A bank operation ends and returns its outcome record, with fault handling and the next issue. -/
  | bankOperationOutcome (b : Nat) (e : OpEnv)
  /-- GOVERNOR_RELEASE (R135). A held bank operation is issued once the stack's energy credit allows. -/
  | governorRelease (b : Nat) (e : OpEnv)
  /-- REFRESH_DUE (R128). A bank's refresh falls due; it issues at once or suspends the running operation. -/
  | refreshDue (b : Nat)
  /-- REFRESH_DONE (R129). A refresh ends and a suspended operation reopens its row and continues. -/
  | refreshDone (b : Nat)
  /-- TILE_PASS (R254). A tile pass runs activation rows through one weight tile on an array. -/
  | tilePass (ar : Nat) (sram : SramEnv) (ue : Bool)
  /-- ARRAY_SPAN_PASS_PAGE (R606). A span pass on a tensor array computes a page once its bytes have arrived. -/
  | arraySpanPassPage (ar : Nat) (e : PassEnv)
  /-- ARRAY_GOVERNOR_RELEASE (R267). A held array pass is issued once the group's energy credit allows. -/
  | arrayGovernorRelease (g : Nat)
  /-- GEMM (R277). Layer-plan operation computing a dense GEMM on arrays or in banks. -/
  | gemm (r : Req)
  /-- GEMM_SPARSE24 (R263). Layer-plan operation computing a GEMM from 2:4 weights. -/
  | gemmSparse24 (r : Req)
  /-- EXPERT_ROUTE (R278). Layer-plan operation choosing top-k experts and their weights per row. -/
  | expertRoute (r : Req)
  /-- EXPERT_GEMM (R279). Layer-plan operation running routed rows through their experts' matrices. -/
  | expertGemm (r : Req)
  /-- NORM (R275). Layer-plan operation normalising rows in their banks. -/
  | norm (r : Req)
  /-- ROPE (R276). Layer-plan operation rotating query heads in place. -/
  | rope (r : Req)
  /-- ACT (R275). Layer-plan operation applying an activation function. -/
  | act (r : Req)
  /-- PLAN_ELEM (R274). Layer-plan ELEM operation adding, multiplying or scaling tensors. -/
  | planElem (r : Req)
  /-- ATTEND_LOCAL (R280). Layer-plan operation attending each row's query over its sequence. -/
  | attendLocal (r : Req)
  /-- APPEND_LOCAL (R281). Layer-plan operation appending each row's keys and values to its sequence. -/
  | appendLocal (r : Req)
  /-- EMBED_LOOKUP (R282). Layer-plan operation copying embedding rows by token id. -/
  | embedLookup (r : Req)
  /-- SCORE_HEAD (R282). Layer-plan operation computing a small output head with bias. -/
  | scoreHead (r : Req)
  /-- QUANT (R282). Layer-plan operation scaling and converting a tensor's format. -/
  | quant (r : Req)
  /-- REDUCE (R279). Layer-plan operation combining expert outputs by route weights. -/
  | reduce (r : Req)
  /-- FLUSH (R332). A tier mover chooses dirty pages, snapshots their block and writes a new object version. -/
  | flush (payload : Option Bytes)
  /-- FLUSH_COMPLETE (R328). A flush is published (and acknowledged under FABRIC); DROWS advances and waiting COMMITs may proceed. -/
  | flushComplete (job : Nat)
  /-- FLASH_READ_DONE (R356). A NAND read completes and the block is corrected, verified and decoded. -/
  | flashReadDone (job : Nat) (e : FlashEnv)
  /-- FLASH_PROGRAM_DONE (R364). A NAND program completes or fails; a failed record is written again. -/
  | flashProgramDone (job : Nat) (ok : Bool)
  /-- FLASH_ERASE_DONE (R364). A NAND erase completes or fails, retiring a failed block. -/
  | flashEraseDone (seg : Nat) (ok : Bool)
  /-- MAP_CHECKPOINT (R362). At least every 30 s the flash object map is written as a CHECKPOINT. -/
  | mapCheckpoint
  /-- SPAN_TABLE_CHECKPOINT (R567). The span table and sequence directory are checkpointed every 30 s or when a delta part is 75 % full. -/
  | spanTableCheckpoint
  /-- GARBAGE_COLLECTION (R366). With few free segments Mace relocates valid records of a victim segment and erases it. -/
  | garbageCollection
  /-- READ_DISTURB (R366). A block reaching DISTURB_LIMIT reads has its segment's valid records relocated. -/
  | readDisturb (seg : Nat)
  /-- READ_REFRESH (R366). The Mace T2 walk reads each valid page and relocates frames with many corrected symbols. -/
  | readRefresh (seg : Nat) (found : SegFind)
  /-- WEAR_LEVELLING (R366). Unequal erase counts on a LUN cause the lowest-count segment to be relocated. -/
  | wearLevelling (lun : Nat)
  /-- BLOCK_REPAIR (R357). Mace rewrites a lost T2 block from clean T1 pages. -/
  | blockRepair (obj block : Nat)
  /-- RE_KEY_WALK (R500). Mace re-seals objects under the newer tenant key generation, one object at a time. -/
  | reKeyWalk (tenant : Nat)
  /-- SAVE_AREA_ERASE (R368). After a restore is journalled the used save area is erased. -/
  | saveAreaErase (ok : Bool)
  /-- MACE_T1_FRAME (R527). Mace reads, corrects and writes back one T1 frame and clears stale edges. -/
  | maceT1Frame (b : Nat) (e : FrameEnv)
  /-- MACE_REPAIR (R519). A frame corrected by another reader is rewritten by Mace within 10 ms. -/
  | maceRepair (b : Nat)
  /-- MACE_SELF_REFRESH_WAKE (R553). A stack in self-refresh for 600 s is brought out so Mace can catch up. -/
  | maceSelfRefreshWake (stack : StackWake)
  /-- BUCKET_LEAK (R521). A leak tick subtracts 1 from a bank or channel bucket. -/
  | bucketLeak (channel : Bool) (n : Nat)
  /-- BANK_RETIREMENT (R64). A triggered bank, channel or die is retired by moving its spans and recording it. -/
  | bankRetirement (b : Nat)
  /-- BACKGROUND_ZEROING (R504). Freed frames are zeroed by FILL_ZERO or encoder writes before reallocation. -/
  | backgroundZeroing (tenant : Nat)
  /-- HEALTH_SAMPLE (R532). Each second the health score and band are recomputed. -/
  | healthSample
  /-- STACK_TEMPERATURE_READING (R132). Every 32 µs die temperatures set HOT state and the stack operation allowance. -/
  | stackTemperatureReading (stack : Nat) (temps : List Int)
  /-- DIE_TEMPERATURE_READING (R268). Every 32 µs the node-die junction sets the array allowance and APP envelope step. -/
  | dieTemperatureReading (temp : Int)
  /-- APP_GOVERNOR_STEP (R546). Every 100 µs the APP governor lowers or raises cluster clocks and APP_VID. -/
  | appGovernorStep (watts : List Nat)
  /-- POWER_ESTIMATE_UPDATE (R583). Every 1 ms the SB.POWER estimates are updated. -/
  | powerEstimateUpdate (dieDw stacksDw pkgDw : Nat)
  /-- POWER_STATE_ENTRY (R551). After DWELL_US the node enters the deepest power state within the wake budget. -/
  | powerStateEntry
  /-- POWER_STATE_EXIT (R552). Arriving work starts an exit from a power state. -/
  | powerStateExit (why : PowerWake)
  /-- WRST_N_RISE (R556). The rising edge of WRST_N lets a warm reset held at step 2 continue and starts its 3 s completion bound. -/
  | wrstNRise
  /-- STANDBY_POWER_LOSS (R537). STBY_3V3 leaving its range clears the latched fail cause and stops the sideband. -/
  | standbyPowerLoss
  /-- RAIL_COLLAPSE (R591). Every rail collapses at once without a completed save, losing T1 so that the next cold reset rebuilds from the log alone. -/
  | railCollapse
  /-- NETCLK_RETURN (R593). NETCLK returns after a loss, ending the hold that keeps the link down. -/
  | netclkReturn
  /-- CM_REP (R452). A REP received on QP1 for a REQ the node sent on PEER_CONNECT, a replica session or a migration session. -/
  | cmRep (qpn peerQpn psn status : Nat)
  /-- CM_REJ (R452). A REJ received on QP1 refusing a connection the node requested to a peer. -/
  | cmRej (qpn reason : Nat)
  /-- ARP_REPLY (R450). An ARP reply resolves a destination or gateway the node is sending to. -/
  | arpReply (ip mac : Nat)
  /-- NEIGHBOR_ADVERTISEMENT (R450). A Neighbor Advertisement resolves an IPv6 destination or gateway. -/
  | neighborAdvertisement (ip mac : Nat)
  /-- PIN_ACCESS (R106). A node read or write of a bank over the pins, through the page-code decoder or encoder, completes at a break. -/
  | pinAccess (b : Nat) (e : FrameEnv)
  /-- REPLICA_LEASE_RENEWAL (R334). The source renews the lease it holds on its FABRIC replica node before that lease expires. -/
  | replicaLeaseRenewal (tenant : Nat)
  /-- FREEZE_WAIT_EXPIRY (R438). WAIT_MS runs out with a writer binding still held, so FREEZE undoes the gate and completes BUSY. -/
  | freezeWaitExpiry (mig : Nat)
  /-- PARTITION_TIMER (R298). The SBI timer compare set by a partition in PTP nanoseconds is reached, raising a timer interrupt and ending any power state. -/
  | partitionTimer (p : CoreEvent)
  /-- JTAG_VENDOR_TOKEN (R478). A vendor token presented over JTAG in RETURN opens vendor debug. -/
  | jtagVendorToken (v : JtagToken)
  /-- PLDM_BASE (R576). A PLDM for Base Specification request received on the sideband and answered in order. -/
  | pldmBase (req : Bytes)
  deriving DecidableEq, Repr

end Sys2Proof
end

