-- ==== Sys2Proof/Decode.lean ====
section
/-! DEFINITION. The command a word spells. The opcode table gives no row any bits, so no word spells a command; commands
reach the block as operations of its interfaces (R19). -/

namespace Sys2Proof

/-- The command that a word spells by the table's bits: the table has none. -/
def decodeTableWord (_nbits _w : Nat) : Option Instr := none

end Sys2Proof
end

