-- ==== Sys2Proof/Config.lean ====
section
/-! DEFINITION. The free values: what the spec leaves open, as constants with no body. Each is applied to the model's
own counter `State.free`, so that no two draws are known to agree (log entry 3). -/

namespace Sys2Proof

/-- The bytes of a fresh nonce (R374, R479). -/
opaque Config.nonce : Nat → Bytes

/-- A fresh rkey: of a lease, a control mailbox or a return rkey (R372, R393, R406). -/
opaque Config.rkey : Nat → BitVec 32

/-- A starting PSN of a QP (R452). -/
opaque Config.psn : Nat → BitVec 24

/-- Which of several free numbers the node takes, where the spec states none: a QP number, a lease id, a run of slots or
cells, a control mailbox, an alias, an object id, a partition (log entry 6). -/
opaque Config.pick : Nat → Nat

/-- The status a PEER_CONNECT completes with when the peer answers REJ with a reason (log entry 7). -/
opaque Config.rejStatus : Nat → BitVec 8

/-- The severity of each event code (log entry 13). -/
opaque Config.severity : Nat → BitVec 2

/-- The APP_VID code that a fastest cluster clock needs, in units of 100 MHz (log entry 14). -/
opaque Config.vidFor : Nat → Nat

/-- The Joroux vendor root public key in mask ROM and the digest of the ROM (Table 17-1, Table 17-9). -/
opaque Config.vendorKey : Bytes
opaque Config.romDigest : Bytes

/-- The corrected PUF response with the OTP salt (R489). -/
opaque Config.puf : Bytes

/-- ML-DSA.KeyGen_internal's public key from ξ, ML-KEM.KeyGen_internal's encapsulation key from CDI_1's SHAKE256 seed,
and the Alias certificate of R490 from its inputs: FIPS 204, FIPS 203 and DER encoding are not restated by the spec. -/
opaque Config.mldsaPublic : Bytes → Bytes
opaque Config.mlkemPublic : Bytes → Bytes
opaque Config.aliasCert : Bytes → Bytes

/-- Element of an EXPERT_GEMM output for an expert that the weight set does not hold: a function of the expert, the column and the row as
it is fed (log entry 93). -/
opaque Config.expertOut : Nat → Nat → Bytes → BitVec 32

/-- A byte the node has lost and whose stored value the spec does not state. -/
opaque Config.freeByte : Nat → Byte

/-- A 64-bit value that the spec does not state: attributes of a promoted sequence, fields of requests and leases on a
peer (log entries 19, 20). -/
opaque Config.freeWord : Nat → BitVec 64

end Sys2Proof
end

