-- ==== Sys2Proof/Machine/Bits.lean ====
section
/-! DEFINITION. Byte order, bit fields and the small list helpers every later file uses. -/

namespace Sys2Proof.Machine

open Sys2Proof

/-- The unsigned value of a little-endian run of bytes (R5). -/
def leNat : Bytes → Nat
  | [] => 0
  | b :: bs => b.toNat + 256 * leNat bs

/-- The `n` little-endian bytes of `v`, wrapped modulo 2^(8n) (R5). -/
def leBytes : Nat → Nat → Bytes
  | 0, _ => []
  | n + 1, v => BitVec.ofNat 8 v :: leBytes n (v / 256)

/-- `n` zero bytes. -/
def zeros (n : Nat) : Bytes := List.replicate n 0

/-- The `n` bytes at offset `o`; bytes beyond the end read as zero. -/
def cut (b : Bytes) (o n : Nat) : Bytes :=
  let c := (b.drop o).take n
  c ++ zeros (n - c.length)

/-- `b` with `v` laid over it from offset `o`. -/
def patch (b : Bytes) (o : Nat) (v : Bytes) : Bytes :=
  cut b 0 o ++ v ++ b.drop (o + v.length)

/-- The unsigned little-endian field of `n` bytes at offset `o`. -/
def fld (b : Bytes) (o n : Nat) : Nat := leNat (cut b o n)

/-- Bits [hi:lo] of `x`. -/
def bits (x hi lo : Nat) : Nat := x / 2 ^ lo % 2 ^ (hi + 1 - lo)

/-- Bits [hi:lo] of the `n`-byte field at offset `o`. -/
def bfld (b : Bytes) (o n hi lo : Nat) : Nat := bits (fld b o n) hi lo

/-- Bit `i` of the byte at offset `o`. -/
def flagAt (b : Bytes) (o i : Nat) : Bool := bits (fld b o 1) i i == 1

/-- Every one of the `n` bytes at offset `o` is zero. -/
def zeroAt (b : Bytes) (o n : Nat) : Bool := (cut b o n).all (· == 0)

/-- Two's-complement reading of an `n`-bit unsigned value. -/
def signed (n v : Nat) : Int := if v < 2 ^ (n - 1) then v else (v : Int) - 2 ^ n

/-- The `n`-bit two's-complement code of an integer. -/
def unsigned (n : Nat) (v : Int) : Nat := (v % (2 ^ n : Int)).toNat

def ceilDiv (a b : Nat) : Nat := (a + b - 1) / b

def roundUp (a b : Nat) : Nat := ceilDiv a b * b

/-- Insert by a strict order, after equal elements. -/
def insertBy {α : Type} (lt : α → α → Bool) (x : α) : List α → List α
  | [] => [x]
  | y :: ys => if lt x y then x :: y :: ys else y :: insertBy lt x ys

/-- Stable insertion sort: equal elements keep their order. -/
def sortBy {α : Type} (lt : α → α → Bool) (xs : List α) : List α :=
  xs.foldl (fun acc x => insertBy lt x acc) []

/-- Elements of a list without repeats, first occurrence kept. -/
def distinct {α : Type} [BEq α] (xs : List α) : List α :=
  xs.foldl (fun acc x => if acc.contains x then acc else acc ++ [x]) []

def sumBy {α : Type} (f : α → Nat) (xs : List α) : Nat := xs.foldl (fun n x => n + f x) 0

/-- The elements with `f` applied where `p` holds. -/
def mapIf {α : Type} (p : α → Bool) (f : α → α) (xs : List α) : List α :=
  xs.map fun x => if p x then f x else x

/-- Replace the first element on which `p` holds, or append when there is none. -/
def putBy {α : Type} (p : α → Bool) (v : α) : List α → List α
  | [] => [v]
  | x :: xs => if p x then v :: xs else x :: putBy p v xs

/-- The lowest number below `n` on which `p` holds. -/
def lowest (n : Nat) (p : Nat → Bool) : Option Nat := (List.range n).find? p

/-- Cut a list into runs of `n` elements, the last possibly shorter (`fuel` bounds the runs). -/
def chunks {α : Type} (n : Nat) : Nat → List α → List (List α)
  | 0, _ => []
  | _ + 1, [] => []
  | fuel + 1, xs => xs.take n :: chunks n fuel (xs.drop n)

def u8 (v : Nat) : Bytes := leBytes 1 v
def u16 (v : Nat) : Bytes := leBytes 2 v
def u32 (v : Nat) : Bytes := leBytes 4 v
def u64 (v : Nat) : Bytes := leBytes 8 v

/-- The number of set bits among the lowest `n` bits. -/
def popcount (n v : Nat) : Nat := ((List.range n).filter v.testBit).length

/-- ASCII bytes of a label. -/
def ascii (cs : List Nat) : Bytes := cs.map (BitVec.ofNat 8)

end Sys2Proof.Machine
end

