-- ==== Sys2Proof/Machine/Fp.lean ====
section
/-! DEFINITION. Number formats and the arithmetic profile (chapter 3): decoding, conversion, exact dot
products, scalar operations, exp2p and the element-wise functions. -/

namespace Sys2Proof.Machine

open Sys2Proof

/-- The value an encoding stands for: NaN, a signed infinity, or ± m · 2^e exactly. -/
inductive FVal where
  | nan
  | inf (neg : Bool)
  | fin (neg : Bool) (m : Nat) (e : Int)
  deriving DecidableEq, Repr

/-- Element formats of Table 3-1 that tensors, spans and records hold. -/
inductive Fmt where
  | fp32 | bf16 | e4m3 | e5m2 | mxfp8 | mxfp4 | int8 | u32 | route
  deriving DecidableEq, Repr

/-- Canonical FP32 NaN (R72). -/
def nan32 : F32 := 0x7FC00000#32
def posInf32 : F32 := 0x7F800000#32
def negInf32 : F32 := 0xFF800000#32
def one32 : F32 := 0x3F800000#32

/-- An IEEE-shaped encoding with `eb` exponent bits and `mb` mantissa bits whose subnormals read as zero (R71). -/
def decFtz (eb mb : Nat) (v : Nat) : FVal :=
  let s := decide (v / 2 ^ (eb + mb) % 2 = 1)
  let ex := v / 2 ^ mb % 2 ^ eb
  let fr := v % 2 ^ mb
  if ex = 2 ^ eb - 1 then (if fr = 0 then .inf s else .nan)
  else if ex = 0 then .fin s 0 0
  else .fin s (2 ^ mb + fr) ((ex : Int) - (2 ^ (eb - 1) - 1 : Int) - mb)

/-- A small format whose subnormals are kept: bias `bias`, `mb` mantissa bits. -/
def decSub (bias mb : Nat) (s : Bool) (ex fr : Nat) : FVal :=
  if ex = 0 then .fin s fr (1 - (bias : Int) - mb)
  else .fin s (2 ^ mb + fr) ((ex : Int) - bias - mb)

def dec32 (x : F32) : FVal := decFtz 8 23 x.toNat
def decBf16 (v : Nat) : FVal := decFtz 8 7 (v % 65536)

def decE4m3 (v : Nat) : FVal :=
  let s := decide (v / 128 % 2 = 1)
  if v % 128 = 127 then .nan else decSub 7 3 s (v / 8 % 16) (v % 8)

def decE5m2 (v : Nat) : FVal :=
  let s := decide (v / 128 % 2 = 1)
  let ex := v / 4 % 32
  if ex = 31 then (if v % 4 = 0 then .inf s else .nan) else decSub 15 2 s ex (v % 4)

/-- FP4 E2M1: codes 0 to 7 stand for 0, 0.5, 1, 1.5, 2, 3, 4, 6; bit 3 is the sign (R69). -/
def decFp4 (v : Nat) : FVal := decSub 1 1 (decide (v / 8 % 2 = 1)) (v / 2 % 4) (v % 2)

def decInt8 (v : Nat) : FVal :=
  let i := signed 8 (v % 256)
  .fin (decide (i < 0)) i.natAbs 0

/-- Bit length of a positive number. -/
def bitLen (m : Nat) : Nat := if m = 0 then 0 else Nat.log2 m + 1

/-- m / 2^k to the nearest integer, ties to even. -/
def rneShift (m k : Nat) : Nat :=
  if k = 0 then m else
    let q := m / 2 ^ k
    let r := m % 2 ^ k
    let h := 2 ^ (k - 1)
    if r > h then q + 1 else if r = h then (if q % 2 = 1 then q + 1 else q) else q

/-- Round to `p` significant bits with an unbounded exponent, ties to even (R71 step 1). -/
def roundSig (p m : Nat) (e : Int) : Nat × Int :=
  let k := bitLen m - p
  (rneShift m k, e + k)

/-- An IEEE-shaped result: rounded at its width, then flushed to zero below 2^-126, infinite above range (R71, R85). -/
def encFtz (eb mb : Nat) (neg : Bool) (m : Nat) (e : Int) : Nat :=
  let sg := if neg then 2 ^ (eb + mb) else 0
  let (q, f) := roundSig (mb + 1) m e
  if q = 0 then sg else
    let top := (bitLen q : Int) - 1 + f
    let bias : Int := 2 ^ (eb - 1) - 1
    if top > bias then sg + (2 ^ eb - 1) * 2 ^ mb
    else if top < 1 - bias then sg
    else
      let sig := if f + mb ≥ top then q * 2 ^ ((f + mb - top).toNat) else q / 2 ^ ((top - f - mb).toNat)
      sg + (top + bias).toNat * 2 ^ mb + (sig - 2 ^ mb)

/-- The FP32 encoding of an exact value (R71, R72, R85). -/
def enc32 : FVal → F32
  | .nan => nan32
  | .inf s => if s then negInf32 else posInf32
  | .fin s m e => BitVec.ofNat 32 (encFtz 8 23 s m e)

/-- Conversion to BF16 (Table 3-2). -/
def encBf16 : FVal → Nat
  | .nan => 0x7FC0
  | .inf s => if s then 0xFF80 else 0x7F80
  | .fin s m e => encFtz 8 7 s m e

/-- Round a finite magnitude onto the grid of a small format with `mb` mantissa bits and exponent
minimum `emin`: the multiple of 2^q and q. -/
def gridRound (mb : Nat) (emin : Int) (m : Nat) (e : Int) : Nat × Int :=
  if m = 0 then (0, emin - mb) else
    let top := (bitLen m : Int) - 1 + e
    let q := max (top - mb) (emin - mb)
    if e ≥ q then (m * 2 ^ ((e - q).toNat), q) else (rneShift m ((q - e).toNat), q)

/-- The code of n · 2^q in a small format with bias `bias`, saturated at `maxCode` (R77). -/
def encGrid (bias mb maxCode : Nat) (m : Nat) (e : Int) : Nat :=
  let (n, q) := gridRound mb (1 - (bias : Int)) m e
  if n < 2 ^ mb then n
  else
    let (n, q) := if n ≥ 2 ^ (mb + 1) then (n / 2, q + 1) else (n, q)
    let ex := q + mb + bias
    min maxCode (ex.toNat * 2 ^ mb + (n - 2 ^ mb))

def encE4m3 : FVal → Nat
  | .nan => 0x7F
  | .inf _ => 0x7F
  | .fin s m e => (if s then 128 else 0) + encGrid 7 3 0x7E m e

def encE5m2 : FVal → Nat
  | .nan => 0x7E
  | .inf s => if s then 0xFC else 0x7C
  | .fin s m e => (if s then 128 else 0) + encGrid 15 2 0x7B m e

/-- FP4 is reached only under R76, where no value is infinite or NaN; those give +0. -/
def encFp4 : FVal → Nat
  | .nan => 0
  | .inf _ => 0
  | .fin s m e => (if s then 8 else 0) + encGrid 1 1 7 m e

def encInt8 : FVal → Nat
  | .nan => 0
  | .inf s => if s then 0x80 else 127
  | .fin s m e =>
    let n : Nat := if e ≥ 0 then m * 2 ^ e.toNat else rneShift m (-e).toNat
    if s then unsigned 8 (-(min n 128 : Nat)) else min n 127

/-- Widen one element of an unscaled format to FP32, exactly; NaN becomes canonical (R78). -/
def widen (f : Fmt) (v : Nat) : F32 :=
  match f with
  | .fp32 => BitVec.ofNat 32 v
  | .bf16 => enc32 (decBf16 v)
  | .e4m3 | .mxfp8 => enc32 (decE4m3 v)
  | .e5m2 => enc32 (decE5m2 v)
  | .mxfp4 => enc32 (decFp4 v)
  | .int8 => enc32 (decInt8 v)
  | .u32 | .route => BitVec.ofNat 32 v

/-- The exact value of one element of an unscaled format. -/
def decElem (f : Fmt) (v : Nat) : FVal :=
  match f with
  | .fp32 => decFtz 8 23 v
  | .bf16 => decBf16 v
  | .e4m3 | .mxfp8 => decE4m3 v
  | .e5m2 => decE5m2 v
  | .mxfp4 => decFp4 v
  | .int8 => decInt8 v
  | .u32 | .route => .fin false v 0

/-- Narrow an FP32 value to an unscaled format (R77). -/
def narrow (f : Fmt) (x : F32) : Nat :=
  match f with
  | .fp32 | .u32 | .route => x.toNat
  | .bf16 => encBf16 (dec32 x)
  | .e4m3 | .mxfp8 => encE4m3 (dec32 x)
  | .e5m2 => encE5m2 (dec32 x)
  | .mxfp4 => encFp4 (dec32 x)
  | .int8 => encInt8 (dec32 x)

/-! ## Exact dyadic sums -/

/-- A signed dyadic number m · 2^e. -/
structure Dy where
  m : Int
  e : Int
  deriving DecidableEq, Repr

def dyAdd (a b : Dy) : Dy :=
  if a.e ≤ b.e then ⟨a.m + b.m * 2 ^ ((b.e - a.e).toNat), a.e⟩
  else ⟨a.m * 2 ^ ((a.e - b.e).toNat) + b.m, b.e⟩

def dyVal (d : Dy) : FVal := .fin (decide (d.m < 0)) d.m.natAbs d.e

def fvDy (neg : Bool) (m : Nat) (e : Int) : Dy := ⟨if neg then -(m : Int) else m, e⟩

/-- Exact product of two operands; a zero operand gives +0 whatever the other holds (R79, R80). -/
def prodExact : FVal → FVal → FVal
  | .fin _ 0 _, _ => .fin false 0 0
  | _, .fin _ 0 _ => .fin false 0 0
  | .nan, _ => .nan
  | _, .nan => .nan
  | .inf s, .inf t => .inf (s != t)
  | .inf s, .fin t _ _ => .inf (s != t)
  | .fin s _ _, .inf t => .inf (s != t)
  | .fin s m e, .fin t n f => .fin (s != t) (m * n) (e + f)

/-- The chunk sum of R81 and R83: exact in index order, rounded once; an exact zero is +0. -/
def chunkSum (ps : List FVal) : F32 :=
  let nanP := ps.any fun p => p == .nan
  let pinf := ps.any fun p => p == .inf false
  let ninf := ps.any fun p => p == .inf true
  if nanP || (pinf && ninf) then nan32
  else if pinf then posInf32
  else if ninf then negInf32
  else
    let d := ps.foldl (fun (a : Dy) p => match p with
      | FVal.fin s m e => if m = 0 then a else if a.m = 0 then fvDy s m e else dyAdd a (fvDy s m e)
      | _ => a) (Dy.mk 0 0)
    if d.m = 0 then 0#32 else enc32 (dyVal d)

/-! ## Scalar operations (R85, R86) -/

def fadd (x y : F32) : F32 :=
  match dec32 x, dec32 y with
  | .nan, _ => nan32
  | _, .nan => nan32
  | .inf s, .inf t => if s = t then enc32 (.inf s) else nan32
  | .inf s, _ => enc32 (.inf s)
  | _, .inf t => enc32 (.inf t)
  | .fin s m e, .fin t n f =>
    if m = 0 ∧ n = 0 then (if s ∧ t then 0x80000000#32 else 0#32)
    else
      let d := if m = 0 then fvDy t n f else if n = 0 then fvDy s m e else dyAdd (fvDy s m e) (fvDy t n f)
      if d.m = 0 then 0#32 else enc32 (dyVal d)

def fneg (x : F32) : F32 := x ^^^ 0x80000000#32

def fsub (x y : F32) : F32 := fadd x (fneg y)

def fmul (x y : F32) : F32 :=
  match dec32 x, dec32 y with
  | .nan, _ => nan32
  | _, .nan => nan32
  | .inf s, .inf t => enc32 (.inf (s != t))
  | .inf s, .fin t n _ => if n = 0 then nan32 else enc32 (.inf (s != t))
  | .fin s m _, .inf t => if m = 0 then nan32 else enc32 (.inf (s != t))
  | .fin s m e, .fin t n f => enc32 (.fin (s != t) (m * n) (e + f))

def fdiv (x y : F32) : F32 :=
  match dec32 x, dec32 y with
  | .nan, _ => nan32
  | _, .nan => nan32
  | .inf _, .inf _ => nan32
  | .inf s, .fin t _ _ => enc32 (.inf (s != t))
  | .fin s _ _, .inf t => enc32 (.fin (s != t) 0 0)
  | .fin s m e, .fin t n f =>
    if n = 0 then (if m = 0 then nan32 else enc32 (.inf (s != t)))
    else
      let k := 30 + bitLen n
      let q := m * 2 ^ k / n
      let st := if m * 2 ^ k % n = 0 then 0 else 1
      enc32 (.fin (s != t) (2 * q + st) (e - f - k - 1))

/-- Integer square root by bisection on `fuel` result bits, highest first. -/
def isqrtBits : Nat → Nat → Nat → Nat
  | 0, r, _ => r
  | k + 1, r, n => let c := r + 2 ^ k; isqrtBits k (if c * c ≤ n then c else r) n

def fsqrt (x : F32) : F32 :=
  match dec32 x with
  | .nan => nan32
  | .inf s => if s then nan32 else posInf32
  | .fin s m e =>
    if m = 0 then x &&& 0x80000000#32
    else if s then nan32
    else
      let (m, e) := if e % 2 = 0 then (m, e) else (2 * m, e - 1)
      let n := m * 2 ^ 60
      let r := isqrtBits (bitLen n / 2 + 1) 0 n
      enc32 (.fin false (2 * r + (if r * r = n then 0 else 1)) (e / 2 - 31))

/-- R86: NaN if either is NaN; the maximum of +0 and −0 is +0. -/
def fmax (x y : F32) : F32 :=
  match dec32 x, dec32 y with
  | .nan, _ => nan32
  | _, .nan => nan32
  | .inf s, v => if s then enc32 v else posInf32
  | v, .inf t => if t then enc32 v else posInf32
  | .fin s m e, .fin t n f =>
    if m = 0 ∧ n = 0 then (if s ∧ t then 0x80000000#32 else 0#32)
    else
      let d := dyAdd (fvDy s m e) (fvDy (!t) n f)
      enc32 (if d.m < 0 then .fin t n f else .fin s m e)

def isNan (x : F32) : Bool := dec32 x == .nan

/-- Is x > 0, read as a real or an infinity? -/
def fpos (x : F32) : Bool :=
  match dec32 x with
  | .nan => false
  | .inf s => !s
  | .fin s m _ => !s && m != 0

/-- Is x < y? NaN compares false. -/
def flt (x y : F32) : Bool :=
  match dec32 x, dec32 y with
  | .nan, _ => false
  | _, .nan => false
  | .inf s, .inf t => s && !t
  | .inf s, _ => s
  | _, .inf t => !t
  | .fin s m e, .fin t n f => decide ((dyAdd (fvDy s m e) (fvDy (!t) n f)).m < 0)

/-! ## Dot products (R79 to R84) -/

/-- Products of equal-length operand lists in index order. -/
def products (xs ys : List FVal) : List FVal := List.zipWith prodExact xs ys

/-- Dot product from a starting accumulator: chunks of 16, each rounded once, added in order (R81, R82, R250). -/
def dotFrom (acc : F32) (xs ys : List FVal) : F32 :=
  (chunks 16 (xs.length / 16 + 1) (products xs ys)).foldl (fun a c => fadd a (chunkSum c)) acc

def dot (xs ys : List FVal) : F32 := dotFrom 0#32 xs ys

def one : FVal := .fin false 1 0

/-- One-chunk dot product of a list with ones. -/
def sumOnes (xs : List FVal) : F32 := dot xs (List.replicate xs.length one)

/-! ## exp2p (R87, R88) and constants (Table 3-3, R89) -/

def c1 : F32 := 0x3F317218#32
def c2 : F32 := 0x3E75FDF0#32
def c3 : F32 := 0x3D635847#32
def log2e : F32 := 0x3FB8AA3B#32

/-- K_D of R89 by head dimension. -/
def kD (d : Nat) : F32 :=
  if d = 64 then 0x3E38AA3B#32 else if d = 128 then 0x3E0293EE#32 else 0x3DB8AA3B#32

/-- The largest r below 2^fuel·… with r^64 ≤ n, by bisection. -/
def root64Bits : Nat → Nat → Nat → Nat
  | 0, r, _ => r
  | k + 1, r, n => let c := r + 2 ^ k; root64Bits k (if c ^ 64 ≤ n then c else r) n

/-- T[k] of R88: the FP32 value nearest to 2^(k/64), found from the exact 64th root. -/
def expT (k : Nat) : F32 :=
  let r := root64Bits 25 0 (2 ^ (64 * 24 + k))
  BitVec.ofNat 32 (0x3F800000 + ((r + 1) / 2 - 2 ^ 23))

/-- exp2p exactly as R87 writes it. -/
def exp2p (x : F32) : F32 :=
  match dec32 x with
  | .nan => nan32
  | .inf s => if s then 0#32 else posInf32
  | .fin s m e =>
    let v := fvDy s m e
    let ge128 := decide ((dyAdd v ⟨-128, 0⟩).m ≥ 0)
    let ltm150 := decide ((dyAdd v ⟨150, 0⟩).m < 0)
    if ge128 then posInf32 else if ltm150 then 0#32
    else
      let d := (-e).toNat
      let X : Int := if e ≥ 0 then v.m * 2 ^ e.toNat else v.m
      let den : Int := 2 ^ d
      let i := X / den
      let fr := X % den
      let k := (fr * 64 / den).toNat
      let r := enc32 (.fin false (fr * 64 % den).toNat (-(d : Int) - 6))
      let q := fmul (fadd (fmul (fadd (fmul c3 r) c2) r) c1) r
      let t := expT k
      let y := fadd t (fmul t q)
      match dec32 y with
      | .fin s m e => enc32 (.fin s m (e + i))
      | _ => nan32

/-! ## Element-wise functions (R90) -/

def f32Half : F32 := 0x3F000000#32
def f32Two : F32 := 0x40000000#32
/-- The FP32 values nearest to 0.7978846 and 0.044715. -/
def geluA : F32 := 0x3F4C422A#32
def geluB : F32 := 0x3D372713#32

def silu (x : F32) : F32 := fdiv x (fadd one32 (exp2p (fneg (fmul x log2e))))

def geluTanh (x : F32) : F32 :=
  let u := fmul geluA (fadd x (fmul geluB (fmul (fmul x x) x)))
  let th := fsub one32 (fdiv f32Two (fadd (exp2p (fmul (fmul f32Two u) log2e)) one32))
  fmul (fmul f32Half x) (fadd one32 th)

def relu (x : F32) : F32 := if isNan x then nan32 else if fpos x then x else 0#32

/-- FP32 value of a natural number. -/
def ofNat32 (n : Nat) : F32 := enc32 (.fin false n 0)

/-- 1 / sqrt(ss / n + eps) (R90). -/
def rmsNormaliser (ss eps : F32) (n : Nat) : F32 :=
  fdiv one32 (fsqrt (fadd (fdiv ss (ofNat32 n)) eps))

/-! ## MX blocks (R73 to R76) -/

/-- The value of one element of a block under its E8M0 scale byte (R74). -/
def mxVal (sc : Nat) (v : FVal) : FVal :=
  if sc = 255 then .nan else
    match v with
    | .fin s m e => .fin s m (e + (sc : Int) - 127)
    | w => w

/-- The block scale and element codes for 32 source values (R76). -/
def mxQuant (f : Fmt) (xs : List F32) : Nat × List Nat :=
  let vs := xs.map dec32
  let bad := vs.any fun v => match v with | .fin _ _ _ => false | _ => true
  if bad then (255, xs.map fun _ => 0)
  else
    let top := vs.foldl (fun (t : Option Int) v => match v with
      | .fin _ m e => if m = 0 then t else
          let l := (bitLen m : Int) - 1 + e
          some (match t with | none => l | some u => max l u)
      | _ => t) none
    match top with
    | none => (127, xs.map fun _ => 0)
    | some l =>
      let e := max (-127) (min 127 (l - (if f = .mxfp4 then 2 else 8)))
      let enc := fun v => match v with
        | FVal.fin s m ex => (if f = .mxfp4 then encFp4 else encE4m3) (.fin s m (ex - e))
        | w => (if f = .mxfp4 then encFp4 else encE4m3) w
      ((e + 127).toNat, vs.map enc)

end Sys2Proof.Machine
end

