-- ==== Sys2Proof/Machine/Memory.lean ====
section
/-! DEFINITION. Sparse byte memory: the one canonical form and the operations that keep it. -/

namespace Sys2Proof.Machine

open Sys2Proof

/-- Byte memory as (address, byte) pairs, addresses strictly rising, no entry zero. An unlisted
address reads as zero: R42 makes every allocated frame read zero, and log entry 2 names the choice
for storage that nothing has written. -/
abbrev Mem := List Host.Cell

/-- What an address that nothing has written reads as (log entry 2). -/
def memDefault : Byte := 0

def memGet : Mem → Nat → Byte
  | [], _ => memDefault
  | (b, w) :: t, a => if a = b then w else memGet t a

def memPut : Mem → Nat → Byte → Mem
  | [], a, v => if v = memDefault then [] else [(a, v)]
  | (b, w) :: t, a, v =>
    if a < b then (if v = memDefault then (b, w) :: t else (a, v) :: (b, w) :: t)
    else if a = b then (if v = memDefault then t else (a, v) :: t)
    else (b, w) :: memPut t a v

/-- Write a run of bytes from address `a` upward. -/
def memWrite : Mem → Nat → Bytes → Mem
  | m, _, [] => m
  | m, a, b :: bs => memWrite (memPut m a b) (a + 1) bs

/-- Read `n` bytes from address `a` upward. -/
def memRead (m : Mem) (a n : Nat) : Bytes := (List.range n).map fun i => memGet m (a + i)

/-- Make `n` bytes from `a` upward read zero. -/
def memZero (m : Mem) (a n : Nat) : Mem := m.filter fun c => decide (c.1 < a) || decide (a + n ≤ c.1)

/-- Every address of the memory is above `lo`, they rise strictly, and no byte listed is the default. -/
def memWfFrom : Nat → Mem → Bool
  | _, [] => true
  | lo, (a, v) :: t => decide (lo ≤ a) && decide (v ≠ memDefault) && memWfFrom (a + 1) t

/-- The canonical form. -/
def Memory.wf (m : Mem) : Bool := memWfFrom 0 m

end Sys2Proof.Machine
end

