-- ==== Sys2Proof/Machine/StBank.lean ====
section
/-! DEFINITION. State of the memory: banks with their BAUs and sequencers, stacks and their governors (chapters 2
and 4). A bank or stack that a list does not hold stands at the values its structure's defaults give. -/

namespace Sys2Proof.Machine

open Sys2Proof

/-- One head's partial: running maximum, sum and weighted sum (R91, Table 4-2, Table 5-3). -/
structure Part where
  m : F32
  l : F32
  o : List F32
  deriving DecidableEq, Repr

/-- A partial-store entry: its PRESENT flag and the heads it holds (R99). -/
structure Entry where
  present : Bool := false
  heads   : List Part := []
  deriving DecidableEq, Repr

/-- The score buffer between SPAN_QK and SPAN_PV: per head m and the weights of the page in hand, with the
running CRC of the key half (R115). -/
structure Scores where
  ms  : List F32
  ps  : List (List F32)
  crc : Nat
  deriving DecidableEq, Repr

/-- Who is told the outcome of a bank operation or pin access. -/
inductive Own where
  /-- No engine waits for it. -/
  | free
  /-- Span pass `pass` of unit `unit` of a request; `last` marks the STORE_REG that emits P7. -/
  | pass (r : Req) (unit pass : Nat) (last : Bool)
  /-- A page group of an append-class request: page step `step`. -/
  | page (r : Req) (step : Nat)
  /-- Zeroing of freed frames (R504). -/
  | scrub (tenant : Nat)
  /-- Distances of candidate block `blk` of query `q` of a SEARCH. -/
  | dist (r : Req) (q blk : Nat)
  /-- A Mace repair (R519). -/
  | mace
  deriving DecidableEq, Repr

/-- A bank operation in a bank's queue; `order` numbers the operations sent to banks. -/
structure QOp where
  opc    : Nat
  tenant : Nat
  desc   : Desc
  chan   : Bytes
  own    : Own
  order  : Nat
  deriving DecidableEq, Repr

/-- The outcome record of Table 4-4, with the bytes sent over the channel. -/
structure BankOut where
  fault  : Nat
  fpage  : Nat
  cycles : Nat
  optag  : Nat
  chan   : Bytes
  deriving DecidableEq, Repr

/-- An operation on the die with the outcome it will return; `suspended` while a refresh holds it (R129). -/
structure Running where
  op        : QOp
  out       : BankOut
  suspended : Bool
  corrected : List Nat
  deriving DecidableEq, Repr

/-- The span pass in progress in a BAU: the tenant that owns it and the page index the loop of R112 has reached. -/
structure Pass where
  tenant : Nat
  next   : Nat
  deriving DecidableEq, Repr

/-- A node access of one frame over the pins (R106): a read, or a write of the whole frame. -/
structure PinJob where
  frame : Nat
  write : Option Bytes
  own   : Own
  deriving DecidableEq, Repr

/-- A bank, its BAU and its sequencer. -/
structure Bank where
  id        : Nat
  retired   : Bool := false
  /-- SEAL_BASE of R139. -/
  sealBase  : Nat := 40960
  /-- At most 16 queued operations (R103), then those whose engine waits. -/
  queue     : List QOp := []
  backlog   : List QOp := []
  running   : Option Running := none
  /-- The leading operation is held by the governor, and when it became its bank's leading ready operation (R135). -/
  held      : Bool := false
  leadAt    : Nat := 0
  /-- A CLEAR is placed ahead of the queue (R123). -/
  clear     : Bool := false
  /-- The last tenant served (R503). -/
  last      : Option Nat := none
  /-- V0 to V63 as 4,096 bytes (R98). -/
  v         : Mem := []
  /-- P0 to P7 (R99). -/
  parts     : List Entry := List.replicate 8 {}
  score     : Option Scores := none
  wbuf      : Bytes := []
  cbuf      : Bytes := []
  pass      : Option Pass := none
  /-- The tenant of a P7 that STORE_REG has not yet emitted (R113, R114). -/
  p7        : Option Nat := none
  refreshing : Bool := false
  /-- Next refresh due time on the bank's grid (R127). -/
  refreshAt : Nat := 0
  pins      : List PinJob := []
  /-- Correctable-error bucket level (R521). -/
  bucket    : Nat := 0
  deriving DecidableEq, Repr

/-- A stack: its power envelope in 0.1 W, governor credit in pJ, thermal step and die states. -/
structure Stack where
  id        : Nat
  envelope  : Nat := 340
  credit    : Nat := 289000000
  creditAt  : Nat := 0
  /-- Step of Table 4-10, 0 to 3. -/
  step      : Nat := 0
  /-- Dies in state HOT (R132). -/
  hot       : List Nat := []
  /-- Hottest reading in units of 0.125 °C (Table 20-14); none before the first reading. -/
  temp      : Option Int := none
  selfRefresh : Bool := false
  /-- When the stack entered self-refresh or last left it (R553). -/
  srSince   : Nat := 0
  deriving DecidableEq, Repr

end Sys2Proof.Machine
end

