-- ==== Sys2Proof/Machine/BankCalc.lean ====
section
/-! DEFINITION. The arithmetic of banks and arrays on rows and pages: element layouts (R46, R70, R98), page partials
(R91 to R93), merges (R157) and the in-span combination (R112), sketches (R203 to R206). -/

namespace Sys2Proof.Machine

open Sys2Proof

/-- Head dimension of a DIM code (Table 2-5). -/
def headDim (c : Nat) : Nat := 64 * 2 ^ c

/-- Bytes of one KV element of a stored-format code (Table 2-5). -/
def kvSize (fmt : Nat) : Nat := if fmt = 2 then 2 else 1

def kvFmt (fmt : Nat) : Fmt := if fmt = 0 then .e4m3 else if fmt = 1 then .e5m2 else .bf16

/-- Page bytes of Table 2-4. -/
def pageBytes (fmt dim : Nat) : Nat := 32 * headDim dim * kvSize fmt

/-- Data frames of a span (Table 2-4). -/
def spanFrames (fmt dim : Nat) : Nat := 64 * pageBytes fmt dim / 4096

/-- Bits of one element. -/
def fmtBits (f : Fmt) : Nat :=
  match f with
  | .fp32 | .u32 | .route => 32
  | .bf16 => 16
  | .e4m3 | .e5m2 | .mxfp8 | .int8 => 8
  | .mxfp4 => 4

/-- The element codes of a run of bytes, in index order; two FP4 elements share a byte (R70). -/
def elemCodes (f : Fmt) (b : Bytes) : List Nat :=
  match fmtBits f with
  | 32 => (chunks 4 b.length b).map leNat
  | 16 => (chunks 2 b.length b).map leNat
  | 4 => b.flatMap fun x => [x.toNat % 16, x.toNat / 16]
  | _ => b.map (·.toNat)

/-- The bytes of a run of element codes. -/
def elemBytes (f : Fmt) (cs : List Nat) : Bytes :=
  match fmtBits f with
  | 32 => cs.flatMap (leBytes 4)
  | 16 => cs.flatMap (leBytes 2)
  | 4 => (chunks 2 cs.length cs).map fun p => BitVec.ofNat 8 (p.headD 0 + 16 * p.getD 1 0)
  | _ => cs.map (BitVec.ofNat 8)

def elemVals (f : Fmt) (b : Bytes) : List FVal := (elemCodes f b).map (decElem f)

/-- Exact values of an MX run: element x of a block under scale byte E (R74). -/
def mxVals (f : Fmt) (els scales : Bytes) : List FVal :=
  ((elemCodes f els).mapIdx fun i c => mxVal (scales.getD (i / 32) 0).toNat (decElem f c))

/-! ## Page partials and merges -/

def absentPart (d : Nat) : Part := ⟨negInf32, 0#32, List.replicate d 0#32⟩

def nanPart (d : Nat) : Part := ⟨nan32, nan32, List.replicate d nan32⟩

/-- R154: absent is recognised by M alone. -/
def Part.absent (p : Part) : Bool := p.m == negInf32

/-- Scores t of the visible rows of a page (R91 step 1). `els` are the page's elements. -/
def pageScores (d : Nat) (els : List FVal) (vis : Nat → Bool) (q : List FVal) : List (Nat × F32) :=
  ((List.range 16).filter vis).map fun r => (r, fmul (dot q ((els.drop (r * d)).take d)) (kD d))

/-- The maximum m and the weights p of a page's 16 rows (R91 steps 2 and 3, R92); none where R92 makes the whole
partial NaN. -/
def pageWeights (ts : List (Nat × F32)) : Option (F32 × List F32) :=
  if ts.any fun t => isNan t.2 || t.2 == posInf32 then none
  else
    let m := ts.foldl (fun m t => fmax m t.2) negInf32
    some (m, (List.range 16).map fun r =>
      match ts.find? fun t => t.1 == r with
      | some t => if m == negInf32 then 0#32 else exp2p (fsub t.2 m)
      | none => 0#32)

/-- l and o from the weights (R91 steps 4 and 5). `els` are the page's elements. -/
def pageValues (d : Nat) (els : List FVal) (m : F32) (ps : List F32) : Part :=
  if m == negInf32 then absentPart d
  else
    let w := ps.map dec32
    let vals := els.drop (16 * d)
    ⟨m, sumOnes w, (List.range d).map fun k => dot w ((List.range 16).map fun r => vals.getD (r * d + k) (.fin false 0 0))⟩

/-- The partial of one query head over one page; none where no row is visible (R93). -/
def pagePartial (d : Nat) (els : List FVal) (vis : Nat → Bool) (q : List FVal) : Option Part :=
  let ts := pageScores d els vis q
  if ts.isEmpty then none
  else match pageWeights ts with
    | none => some (nanPart d)
    | some (m, ps) => some (pageValues d els m ps)

/-- The two-partial merge of R157. -/
def mergePart (a b : Part) : Part :=
  if a.absent then b
  else if b.absent then a
  else if isNan a.m || isNan b.m then nanPart a.o.length
  else
    let m := fmax a.m b.m
    let fa := exp2p (fsub a.m m)
    let fb := exp2p (fsub b.m m)
    ⟨m, fadd (fmul a.l fa) (fmul b.l fb), List.zipWith (fun x y => fadd (fmul x fa) (fmul y fb)) a.o b.o⟩

/-- merge with absent operands (R112): none is an absent page or block. -/
def mergeOpt (a b : Option (List Part)) : Option (List Part) :=
  match a, b with
  | none, x => x
  | x, none => x
  | some x, some y => some (List.zipWith mergePart x y)

/-- One turn of the loop of R112 at page index `i`, from level 6 − `rem` upward, on entries P0 to P7; the count of
merges whose operands are both present. -/
def carry (i : Nat) : Nat → List Entry → Option (List Part) → Nat → List Entry × Nat
  | 0, ps, x, n => (ps.set 7 ⟨x.isSome, x.getD []⟩, n)
  | rem + 1, ps, x, n =>
    let k := 5 - rem
    let e := ps.getD k {}
    let lv := if e.present then some e.heads else none
    if i.testBit k then
      carry i rem (ps.set k { e with present := false }) (mergeOpt lv x) (n + if lv.isSome && x.isSome then 1 else 0)
    else (ps.set k ⟨x.isSome, x.getD []⟩, n)

/-- The loop of R112 from index `i` over `xs`, one leaf for each index. -/
def carryAll (i : Nat) (xs : List (Option (List Part))) (ps : List Entry) : List Entry × Nat :=
  ((xs.foldl (fun (a : (List Entry × Nat) × Nat) x =>
    let r := carry a.2 6 a.1.1 x a.1.2
    (r, a.2 + 1)) ((ps, 0), i)).1)

/-- The span partial over 64 leaves (R112, R159). -/
def spanCombine (leaves : List (Option (List Part))) : Option (List Part) :=
  let e := (carryAll 0 leaves (List.replicate 8 {})).1.getD 7 {}
  if e.present then some e.heads else none

/-- Visible interval of R144 (Table 5-1), in signed arithmetic. -/
def visBounds (mask p x c : Nat) : Int × Int :=
  if mask = 0 then (0, min (p : Int) ((c : Int) - 1))
  else if mask = 1 then (max 0 ((p : Int) - x + 1), min (p : Int) ((c : Int) - 1))
  else (0, min (max (p : Int) ((x : Int) - 1)) ((c : Int) - 1))

def visible (mask p x c j : Nat) : Bool :=
  let b := visBounds mask p x c
  decide (b.1 ≤ (j : Int) ∧ (j : Int) ≤ b.2)

/-! ## Sketches -/

/-- mix64 of R203. -/
def mix64 (z : Nat) : Nat :=
  let z := (z + 0x9E3779B97F4A7C15) % 2 ^ 64
  let z := (z ^^^ (z / 2 ^ 30)) * 0xBF58476D1CE4E5B9 % 2 ^ 64
  let z := (z ^^^ (z / 2 ^ 27)) * 0x94D049BB133111EB % 2 ^ 64
  z ^^^ (z / 2 ^ 31)

/-- σ(seed, b, d) of R203, true for −1. -/
def sigmaNeg (seed b d : Nat) : Bool := decide (mix64 (seed ^^^ (b * 2 ^ 32 + d)) ≥ 2 ^ 63)

/-- The sketch of an FP32 vector as a number whose bit b is sketch bit b (R204, R234). -/
def sketchOf (width seed : Nat) (x : List F32) : Nat :=
  let xs := x.map dec32
  (List.range width).foldl (fun acc b =>
    let signs := (List.range xs.length).map fun d => FVal.fin (sigmaNeg seed b d) 1 0
    if fpos (dot signs xs) then acc + 2 ^ b else acc) 0

/-- The page sketch of R205 over `r` written rows. -/
def pageSketch (fmt dim r seed : Nat) (page : Bytes) : Nat :=
  let d := headDim dim
  let els := (elemCodes (kvFmt fmt) page).map (widen (kvFmt fmt))
  sketchOf 256 seed ((List.range d).map fun k =>
    sumOnes ((List.range r).map fun row => dec32 (els.getD (row * d + k) 0#32)))

/-- The query sketch of R206 from the elements of the G query heads of one KV head. -/
def querySketch (seed d : Nat) (heads : List (List F32)) : Nat :=
  sketchOf 256 seed ((List.range d).map fun k => sumOnes (heads.map fun h => dec32 (h.getD k 0#32)))

/-! ## Rotary position, norms, element-wise variants -/

/-- Pair indices of pair i in a row of n elements: SUB or PAIRING 0 is (2i, 2i + 1), 1 is (i, i + n/2). -/
def pairIdx (pairing n i : Nat) : Nat × Nat := if pairing = 0 then (2 * i, 2 * i + 1) else (i, i + n / 2)

/-- One row rotated with the given (c, s) of each pair (R118). -/
def ropeRow (pairing : Nat) (cs : List (F32 × F32)) (row : List F32) : List F32 :=
  (cs.foldl (fun (a : List F32 × Nat) p =>
    let (x, y) := pairIdx pairing row.length a.2
    let xa := row.getD x 0#32
    let xb := row.getD y 0#32
    ((a.1.set x (fsub (fmul xa p.1) (fmul xb p.2))).set y (fadd (fmul xa p.2) (fmul xb p.1)), a.2 + 1)) (row, 0)).1

/-- The (c, s) of pair i at position q from a rotary table (R188). -/
def ropePair (table : Bytes) (q i : Nat) : F32 × F32 :=
  let np := fld table 0 2
  let w := fun o => BitVec.ofNat 32 (fld table o 4)
  let a := 0x40 + 8 * ((1024 + q / 1024) * np + i)
  let b := 0x40 + 8 * ((q % 1024) * np + i)
  let cA := w a
  let sA := w (a + 4)
  let cB := w b
  let sB := w (b + 4)
  (fsub (fmul cA cB) (fmul sA sB), fadd (fmul sA cB) (fmul cA sB))

/-- Element-wise variants of Table 4-8; `b` is the second operand or the scale. -/
def elemFn (sub : Nat) (a b : F32) : F32 :=
  match sub with
  | 0 => fadd a b
  | 1 => fmul a b
  | 2 => fmul a b
  | 3 => silu a
  | 4 => geluTanh a
  | _ => relu a

/-- Distance from dot products (R121): squared L2 is (xx − 2·xq) + qq, inner product is xq. -/
def distOf (sub : Nat) (x q : List FVal) : F32 :=
  let xq := dot x q
  if sub = 0 then fadd (fsub (dot x x) (fmul f32Two xq)) (dot q q) else xq

end Sys2Proof.Machine
end

