-- ==== Sys2Proof/Machine/Codes.lean ====
section
/-! DEFINITION. The node's codes: CRC-32C page tags (R47), SHA3-256 digests (R494), the page code over
GF(2^12) (R511 to R514) and the tANS payload decoder (R348, R349). -/

namespace Sys2Proof.Machine

open Sys2Proof

/-! ## CRC-32C (R47) -/

def crcBit : Nat → Nat → Nat
  | 0, c => c
  | k + 1, c => crcBit k (if c % 2 = 1 then (c / 2) ^^^ 0x82F63B78 else c / 2)

def crcStep (c : Nat) (b : Byte) : Nat := crcBit 8 (c ^^^ b.toNat)

/-- CRC-32C of a run of bytes in address order. -/
def crc32c (bs : Bytes) : Nat := (bs.foldl crcStep 0xFFFFFFFF) ^^^ 0xFFFFFFFF

/-! ## SHA3-256 (FIPS 202, as R481, R489 and R494 name it) -/

def m64 : Nat := 2 ^ 64

def rotl64 (x n : Nat) : Nat := (x * 2 ^ n + x / 2 ^ (64 - n)) % m64

/-- Rotation offsets of lane x + 5y. -/
def keccakRot : List Nat :=
  [0, 1, 62, 28, 27, 36, 44, 6, 55, 20, 3, 10, 43, 25, 39, 41, 45, 15, 21, 8, 18, 2, 61, 56, 14]

def keccakRc : List Nat :=
  [0x0000000000000001, 0x0000000000008082, 0x800000000000808A, 0x8000000080008000,
   0x000000000000808B, 0x0000000080000001, 0x8000000080008081, 0x8000000000008009,
   0x000000000000008A, 0x0000000000000088, 0x0000000080008009, 0x000000008000000A]
  ++
  [0x000000008000808B, 0x800000000000008B, 0x8000000000008089, 0x8000000000008003,
   0x8000000000008002, 0x8000000000000080, 0x000000000000800A, 0x800000008000000A,
   0x8000000080008081, 0x8000000000008080, 0x0000000080000001, 0x8000000080008008]

/-- One Keccak-f[1600] round on 25 lanes, lane x + 5y at index x + 5y. -/
def keccakRound (a : List Nat) (rc : Nat) : List Nat :=
  let g := fun (l : List Nat) i => l.getD i 0
  let c := (List.range 5).map fun x => g a x ^^^ g a (x + 5) ^^^ g a (x + 10) ^^^ g a (x + 15) ^^^ g a (x + 20)
  let d := (List.range 5).map fun x => g c ((x + 4) % 5) ^^^ rotl64 (g c ((x + 1) % 5)) 1
  let a := (List.range 25).map fun i => g a i ^^^ g d (i % 5)
  let b := (List.range 25).map fun j =>
    let x' := j % 5
    let y' := j / 5
    let x := (x' + 3 * y') % 5
    rotl64 (g a (x + 5 * x')) (keccakRot.getD (x + 5 * x') 0)
  let a := (List.range 25).map fun i =>
    let x := i % 5
    let y := i / 5
    g b i ^^^ ((m64 - 1 - g b ((x + 1) % 5 + 5 * y)) &&& g b ((x + 2) % 5 + 5 * y))
  match a with
  | [] => []
  | h :: t => (h ^^^ rc) :: t

def keccakF (a : List Nat) : List Nat := keccakRc.foldl keccakRound a

/-- Absorb one 136-byte block. -/
def absorb (st : List Nat) (blk : Bytes) : List Nat :=
  keccakF ((List.range 25).map fun i => st.getD i 0 ^^^ (if i < 17 then leNat (cut blk (8 * i) 8) else 0))

/-- SHA3-256 of a byte string. -/
def sha3 (bs : Bytes) : Bytes :=
  let r := 136
  let n := bs.length / r + 1
  let pad := bs ++ zeros (n * r - bs.length)
  let pad := patch pad bs.length [cut pad bs.length 1 |>.headD 0 |>.xor 0x06]
  let pad := patch pad (n * r - 1) [cut pad (n * r - 1) 1 |>.headD 0 |>.xor 0x80]
  let st := (chunks r n pad).foldl absorb (List.replicate 25 0)
  (st.take 4).flatMap (leBytes 8)

/-! ## GF(2^12) and the page code (R511 to R514) -/

/-- x · α reduced modulo x^12 + x^6 + x^4 + x + 1. -/
def gfDouble (a : Nat) : Nat := if a ≥ 2048 then (2 * a - 4096) ^^^ 0x053 else 2 * a

def gfMulN : Nat → Nat → Nat → Nat → Nat
  | 0, _, _, acc => acc
  | k + 1, a, b, acc => gfMulN k (gfDouble a) (b / 2) (if b % 2 = 1 then acc ^^^ a else acc)

def gfMul (a b : Nat) : Nat := gfMulN 12 a b 0

def gfPow : Nat → Nat → Nat
  | _, 0 => 1
  | a, n + 1 => gfMul a (gfPow a n)

/-- a^(2^k) by repeated squaring. -/
def gfSq : Nat → Nat → Nat
  | 0, a => a
  | k + 1, a => gfSq k (gfMul a a)

/-- The inverse a^(2^12 − 2) of a non-zero element. -/
def gfInv (a : Nat) : Nat :=
  ((List.range 11).map fun k => gfSq (k + 1) a).foldl gfMul 1

/-- The generator (x + α^1) … (x + α^2t), coefficients from x^0 upward. -/
def rsGen (t : Nat) : List Nat :=
  ((List.range (2 * t)).foldl (fun (acc : List Nat × Nat) _ =>
    let root := gfDouble acc.2
    (List.zipWith (· ^^^ ·) (0 :: acc.1) ((acc.1.map (gfMul root)) ++ [0]), root)) ([1], 1)).1

/-- The 2,731 data symbols of a frame (R512): bit i of d_k is frame bit 12k + i. -/
def frameSyms (frame : Bytes) : List Nat :=
  (List.range 2731).map fun k =>
    bits (fld frame (12 * k / 8) 3) (12 * k % 8 + 11) (12 * k % 8)

/-- Bytes of a run of 12-bit symbols, symbol j at bit 12j (R513). -/
def symBytes (n : Nat) (ss : List Nat) : Bytes :=
  (List.range n).map fun b =>
    let bit := 8 * b
    let j := bit / 12
    BitVec.ofNat 8 ((ss.getD j 0 + 4096 * ss.getD (j + 1) 0) / 2 ^ (bit % 12))

/-- The check symbols p_0 .. p_(2t−1): the remainder of Σ d_k x^(2t+k) modulo g (R512). -/
def rsCheck (t : Nat) (ds : List Nat) : List Nat :=
  let g := (rsGen t).take (2 * t)
  ds.reverse.foldl (fun (r : List Nat) d =>
    let f := d ^^^ r.getLastD 0
    List.zipWith (fun a b => a ^^^ gfMul f b) (0 :: r.dropLast) g) (List.replicate (2 * t) 0)

/-- The 3t-byte check record of a frame at strength t (R513); that of an all-zero frame is all zero (R42). -/
def checkRecord (t : Nat) (frame : Bytes) : Bytes :=
  if frame.all (· == 0) then zeros (3 * t) else symBytes (3 * t) (rsCheck t (frameSyms frame))

/-- Evaluate a polynomial (coefficients from x^0) at a point. -/
def gfEval (ps : List Nat) (x : Nat) : Nat := ps.reverse.foldl (fun a c => gfMul a x ^^^ c) 0

/-- The codeword symbols: check symbols first, then data (position i is the coefficient of x^i). -/
def codeword (t : Nat) (frame check : Bytes) : List Nat :=
  ((List.range (2 * t)).map fun j => bits (fld check (12 * j / 8) 3) (12 * j % 8 + 11) (12 * j % 8)) ++ frameSyms frame

/-- The powers α^1 .. α^n. -/
def alphaPows (n : Nat) : List Nat := ((List.range n).foldl (fun (acc : List Nat × Nat) _ =>
  let a := gfDouble acc.2; (acc.1 ++ [a], a)) ([], 1)).1

def syndromes (t : Nat) (cw : List Nat) : List Nat := (alphaPows (2 * t)).map (gfEval cw)

/-- Berlekamp–Massey state: locator, previous locator, length, gap, last discrepancy. -/
structure Bm where
  c : List Nat
  b : List Nat
  l : Nat
  m : Nat
  d : Nat
  deriving DecidableEq, Repr

def xorPad (a b : List Nat) : List Nat :=
  let n := max a.length b.length
  (List.range n).map fun i => a.getD i 0 ^^^ b.getD i 0

def bmStep (syn : List Nat) (st : Bm) (n : Nat) : Bm :=
  let d := (List.range (st.l + 1)).foldl (fun a i => a ^^^ gfMul (st.c.getD i 0) (syn.getD (n - i) 0)) 0
  if d = 0 then { st with m := st.m + 1 }
  else
    let f := gfMul d (gfInv st.d)
    let c' := xorPad st.c (List.replicate st.m 0 ++ st.b.map (gfMul f))
    if 2 * st.l ≤ n then ⟨c', st.c, n + 1 - st.l, 1, d⟩
    else { st with c := c', m := st.m + 1 }

/-- The error locator of a syndrome list. -/
def locator (syn : List Nat) : List Nat :=
  let st := (List.range syn.length).foldl (bmStep syn) ⟨[1], [1], 0, 1, 1⟩
  st.c.take (st.l + 1)

/-- The logarithm positions i in 0 .. 4094 at which Λ(α^−i) is zero. -/
def locatorRoots (lam : List Nat) : List Nat :=
  let ai := gfInv 2
  ((List.range 4095).foldl (fun (acc : List Nat × Nat) i =>
    (if gfEval lam acc.2 = 0 then acc.1 ++ [i] else acc.1, gfMul acc.2 ai)) ([], 1)).1

/-- What decoding a frame with its check record gives (R514). -/
inductive Decoded where
  | clean
  | corrected (frame check : Bytes) (symbols : Nat)
  | uncorrectable
  deriving DecidableEq, Repr

/-- The decoder of R514: all its conditions for declaring a frame uncorrectable are applied. The all-zero word is a codeword (R42). -/
def pageDecode (t : Nat) (frame check : Bytes) : Decoded :=
  let cw := codeword t frame check
  let syn := syndromes t cw
  if frame.all (· == 0) && check.all (· == 0) then .clean
  else if syn.all (· == 0) then .clean
  else
    let lam := locator syn
    let deg := lam.length - 1
    let roots := locatorRoots lam
    if deg > t || roots.length != deg || roots.any (fun r => decide (r ≥ 2731 + 2 * t)) then .uncorrectable
    else
      let omega := (List.range (2 * t)).map fun k =>
        (List.range (k + 1)).foldl (fun a i => a ^^^ gfMul (lam.getD i 0) (syn.getD (k - i) 0)) 0
      let dlam := (List.range deg).map fun i => if i % 2 = 0 then lam.getD (i + 1) 0 else 0
      let fix := roots.map fun r =>
        let xi := gfInv (gfPow 2 r)
        (r, gfMul (gfEval omega xi) (gfInv (gfEval dlam xi)))
      let cw' := fix.foldl (fun (w : List Nat) (p : Nat × Nat) => w.set p.1 (w.getD p.1 0 ^^^ p.2)) cw
      let bad4 := decide (cw'.getD (2 * t + 2730) 0 ≥ 256)
      if bad4 || !((syndromes t cw').all (· == 0)) then .uncorrectable
      else .corrected (symBytes 4096 (cw'.drop (2 * t))) (symBytes (3 * t) (cw'.take (2 * t))) fix.length

/-! ## tANS payloads (R348, R349) -/

/-- Bits of a payload, least significant bit first from byte 0. -/
def bitStream (bs : Bytes) : List Bool := bs.flatMap fun b => (List.range 8).map fun i => b.getLsbD i

def takeBits : Nat → List Bool → Option (Nat × List Bool)
  | 0, bs => some (0, bs)
  | _ + 1, [] => none
  | k + 1, b :: bs => (takeBits k bs).map fun (v, r) => (2 * v + (if b then 1 else 0), r)

/-- One row of the decoding table: symbol, bits to read, base of the next state. -/
structure TansRow where
  sym : Nat
  nb : Nat
  base : Int
  deriving DecidableEq, Repr

/-- The spread and the decoding table of R349 for frequencies `freq` at `tlog`. -/
def tansTable (tlog : Nat) (freq : List Nat) : List TansRow :=
  let size := 2 ^ tlog
  let step := size / 2 + size / 8 + 3
  let order := (freq.mapIdx fun s n => List.replicate n s).flatten
  let placed := (order.foldl (fun (acc : List (Nat × Nat) × Nat) s =>
    ((acc.2, s) :: acc.1, (acc.2 + step) % size)) ([], 0)).1
  let sym := (List.range size).map fun x => ((placed.find? fun p => p.1 == x).map Prod.snd).getD 0
  (sym.foldl (fun (acc : List TansRow × List Nat) s =>
    let n := acc.2.getD s 0
    let nb := tlog - Nat.log2 n
    (acc.1 ++ [⟨s, nb, (n * 2 ^ nb : Nat) - (size : Int)⟩], acc.2.set s (n + 1))) ([], freq)).1

def tansRun (tab : List TansRow) : Nat → Nat → List Bool → Bytes → Option (Bytes × List Bool)
  | 0, _, bs, out => some (out.reverse, bs)
  | k + 1, st, bs, out =>
    let row := tab.getD st ⟨0, 0, 0⟩
    let out := BitVec.ofNat 8 row.sym :: out
    if k = 0 then some (out.reverse, bs)
    else
      match takeBits row.nb bs with
      | none => none
      | some (v, bs) => tansRun tab k ((row.base + v).toNat) bs out

/-- Decode `n` bytes; none where R349 calls the block corrupt (a read past the payload, a whole
unread byte, or a non-zero unread bit). -/
def tansDecode (tlog : Nat) (freq : List Nat) (n : Nat) (payload : Bytes) : Option Bytes :=
  match takeBits tlog (bitStream payload) with
  | none => none
  | some (st, bs) =>
    match tansRun (tansTable tlog freq) n st bs [] with
    | none => none
    | some (out, rest) => if decide (rest.length < 8) && rest.all (fun b => !b) then some out else none

end Sys2Proof.Machine
end

