-- ==== Sys2Proof/Machine/StObjects.lean ====
section
/-! DEFINITION. State of tenants' objects: tenants, sequences, spans and their pages, sequence trees, collections
(chapters 2, 6, 7, 8, 12 and 15). -/

namespace Sys2Proof.Machine

open Sys2Proof

/-- One installed tenant key generation (R498): the key, its next BCTR and the identity block of R354. -/
structure KeyGen where
  gen   : Nat
  key   : Bytes
  ctr   : Nat
  snode : Nat
  /-- The limit event of R355 has been raised. -/
  warned : Bool := false
  deriving DecidableEq, Repr

/-- A tenant: quotas (Table 15-1), durability (Table 12-5), keys, epoch floor and statistics (R389). -/
structure Tenant where
  id        : Nat
  kvClass   : Nat := 0
  groups    : List Nat := []
  flashMib  : Nat := 0
  leaseMax  : Nat := 0
  slotMax   : Nat := 0
  t1Frames  : Nat := 0
  t2Units   : Nat := 0
  bound     : Nat := 4
  domain    : Nat := 0
  replica   : Nat := 0
  replicaNotAfter : Nat := 0
  replicaAddr : Bytes := []
  replicaSig  : Bytes := []
  floor     : Nat := 0
  keys      : List KeyGen := []
  keyTop    : Nat := 0
  epoch     : Nat := 0
  /-- A re-key walk runs, and the objects it has visited (R500). -/
  rekey     : Bool := false
  rekeyPos  : Nat := 0
  /-- Being destroyed (R506). -/
  dying     : Bool := false
  /-- The mailbox of a TENANT_DESTROY that waits for what is in flight (R506 step 4). -/
  killBox   : Option Box := none
  /-- A flush is held, with the cause of its T2_HOLD event (R323, R355, R414). -/
  hold      : Option Nat := none
  /-- The span identity and block whose flush the hold began with. -/
  holdOf    : Nat × Nat := (0, 0)
  stale     : Nat := 0
  ignored   : Nat := 0
  noRecord  : Nat := 0
  timedOut  : Nat := 0
  fenced    : Nat := 0
  cancelled : Nat := 0
  lostCount : Nat := 0
  noNotice  : Nat := 0
  deriving DecidableEq, Repr

/-- A frontier W(l, h) (R178). -/
structure Front where
  layer : Nat
  head  : Nat
  w     : Nat
  deriving DecidableEq, Repr

/-- A sequence's attributes (Table 14-5) and lengths. Frontiers that `fronts` does not list stand at `wBase`. -/
structure Seq where
  handle  : Nat
  tenant  : Nat
  als   : Nat
  layers  : Nat
  kvh     : Nat
  dim     : Nat
  fmt     : Nat
  posOff  : Nat
  seed    : Nat
  rope    : Nat
  ctables : List Nat
  len     : Nat := 0
  wBase   : Nat := 0
  fronts  : List Front := []
  writer  : Option Nat := none
  /-- Loss bound and domain under which the present C was set (R331). -/
  bound   : Nat := 4
  domain  : Nat := 0
  lost    : Nat := 0
  restarted : Bool := false
  promoted  : Bool := false
  /-- Node the sequence arrives from while it is incoming (R436). -/
  incoming : Option Nat := none
  /-- Node the stub forwards to (R440). -/
  stub    : Option Nat := none
  /-- SEQ_DELETE has removed it; the alias is kept until the last frame is freed (R386). -/
  gone    : Bool := false
  /-- Tree paths still to be rebuilt (R218). -/
  rebuild : Bool := false
  /-- A discard of uncommitted rows waits for a MOVING span or a bank (R24, R53, R200). -/
  discard : Bool := false
  deriving DecidableEq, Repr

/-- The page state of R327, with the snapshot n of an outstanding flush (R328). -/
structure PageSt where
  wr    : Nat := 0
  drows : Nat := 0
  lw    : Nat := 16
  snap  : Option Nat := none
  /-- Marked lost: its bytes could not be read and no clean copy exists (R523). -/
  lost  : Bool := false
  deriving DecidableEq, Repr

/-- Span states of Table 2-6; FREE entries are not listed. -/
inductive SpanState where
  | resident | flashOnly | moving | stub
  deriving DecidableEq, Repr

/-- A span-table entry (Table 2-5) with its page states. `flash` is none where the entry holds 0xFFFF_FFFF. -/
structure Span where
  als    : Nat
  layer    : Nat
  head     : Nat
  idx      : Nat
  tenant   : Nat
  gen      : Nat
  state    : SpanState
  dim      : Nat
  fmt      : Nat
  /-- STRENGTH code; 0 for OPEN. -/
  strength : Nat
  bank     : Nat
  frame    : Nat
  flash    : Option Nat := none
  pages    : List PageSt := List.replicate 64 {}
  lastRead : Nat := 0
  /-- MOVING for a bank retirement or migration (R53). -/
  stubNode : Nat := 0
  deriving DecidableEq, Repr

/-- What a run of frames is given for. -/
inductive Use where
  | span | tree | vectors | staging | weights | plan | workspace | copy | service | table | reserve
  deriving DecidableEq, Repr

/-- A run of frames of one bank given to a tenant (R42), its check area included. -/
structure Region where
  tenant   : Nat
  bank     : Nat
  first    : Nat
  frames   : Nat
  strength : Nat
  use      : Use
  /-- The object that holds it: alias, collection, lease, object id. -/
  owner    : Nat
  deriving DecidableEq, Repr

/-- Frames freed while requests of an older span-table generation may still read them (R25), then frames that
wait for zeroing (R504). -/
structure Freed where
  tenant   : Nat
  bank     : Nat
  first    : Nat
  frames   : Nat
  strength : Nat
  /-- Generation whose requests must end first. -/
  gen      : Nat
  use      : Use
  owner    : Nat
  deriving DecidableEq, Repr

/-- A child pointer with its PGEN (Table 7-2). -/
structure Ptr where
  slot : Nat
  pgen : Nat
  deriving DecidableEq, Repr

/-- A sequence-tree node (Table 7-2). `leaves` and `kids` have 16 places; an unset VALID bit is none. -/
structure TreeNode where
  slot   : Nat
  level  : Nat
  first  : Nat
  als  : Nat
  layer  : Nat
  head   : Nat
  kids   : List (Option Ptr)
  leaves : List (Option Nat)
  v      : List Int
  deriving DecidableEq, Repr

/-- A root pointer in the sequence directory (R209). -/
structure Root where
  als : Nat
  layer : Nat
  head  : Nat
  ptr   : Ptr
  deriving DecidableEq, Repr

/-- A half-frame slot of a tree region with its GEN (R211). -/
structure TreeSlot where
  slot   : Nat
  tenant : Nat
  gen    : Nat
  used   : Bool
  /-- Half-frame slots from this one on that a collection node takes (R235). -/
  size   : Nat := 1
  /-- Span-table generation at which a bank retirement moved its node elsewhere (R229). -/
  moved  : Option Nat := none
  deriving DecidableEq, Repr

/-- A vector entry of a leaf (Table 8-2). -/
structure VecEnt where
  vid  : Nat
  live : Bool
  attr : Nat
  bank : Nat
  addr : Nat
  sk   : Nat
  /-- The record bears a loss mark (R523). -/
  lost : Bool := false
  deriving DecidableEq, Repr

/-- A collection-tree node (Table 8-2). -/
structure CollNode where
  slot    : Nat
  level   : Nat
  ents    : List VecEnt
  kids    : List Ptr
  attrOr  : Nat
  attrAnd : Nat
  v       : List Int
  deriving DecidableEq, Repr

/-- A vector collection (Table 8-1). -/
structure Coll where
  id     : Nat
  tenant : Nat
  dim    : Nat
  fmt    : Nat
  width  : Nat
  fanout : Nat
  metric : Nat
  seed   : Nat
  root   : Option Ptr := none
  nodes  : List CollNode := []
  /-- Nodes that a bank retirement has copied elsewhere (R229). -/
  old    : List CollNode := []
  /-- COLL_DESTROY has been given; searches armed earlier still use it. -/
  gone   : Bool := false
  deriving DecidableEq, Repr

/-- A stored object of R352 that commands load: its kind, id, owner, bytes and digest. -/
inductive ObjKind where
  | weight | plan | rope | table | image
  deriving DecidableEq, Repr

structure Obj where
  kind   : ObjKind
  id     : Nat
  tenant : Nat
  bytes  : Bytes
  digest : Bytes
  /-- Load-body fields kept for a weight set: WFMT, ENC, STORE, LAYERS, DIM_A, DIM_B. -/
  attr   : List Nat := []
  /-- STORE code: 0 OPEN, 1 to 4 SEALED (Table 14-6). -/
  store  : Nat := 0
  /-- T2 units it takes (R321). -/
  units  : Nat := 0
  /-- Being removed once nothing uses it (R287, R295). -/
  gone   : Bool := false
  /-- Marked lost (R353, Table 18-3): each use completes INTERNAL until it is reloaded. -/
  lost   : Bool := false
  /-- Tiles of a weight set that bear a loss mark (R523). -/
  marks  : List Nat := []
  /-- Arm order at which a weight set was loaded, and at which it was replaced (Table 9-6). -/
  born   : Nat := 0
  died   : Option Nat := none
  deriving DecidableEq, Repr

/-- One block of an object: no record yet, its record lost, or the LSN of its record (R344). -/
inductive BlkRef where
  | unwritten | lost
  | at (lsn : Nat)
  deriving DecidableEq, Repr

/-- What a flash object holds. -/
inductive FKind where
  | span
  | stored (k : ObjKind) (id : Nat)
  /-- A replica object of (SRC_NODE, SEQ), with the leases (id + 65,536 × GEN) that have put blocks of it (R336, R338). -/
  | replica (src seq : Nat) (leases : List Nat)
  deriving DecidableEq, Repr

/-- A version of a flash object: the fields of its header and index table (Tables 13-1, R344, R352). `index` is the LSN of
its INDEX record. -/
structure FObj where
  idx     : Nat
  tenant  : Nat
  kind    : FKind
  spanId  : Nat
  seq     : Nat
  shape   : Nat
  table   : Nat
  tdig    : Bytes
  gen     : Nat
  committed : Nat
  blocks  : List BlkRef
  index   : Nat
  /-- For a stored object: the load body and the digest. -/
  meta_   : Bytes := []
  deriving DecidableEq, Repr

end Sys2Proof.Machine
end

