-- ==== Sys2Proof/Machine/StNucon.lean ====
section
/-! DEFINITION. State of the Nucon interface: mailboxes, QPs and sessions, leases, armed requests and the engines'
work on them (chapters 5 to 8, 14 and 15). -/

namespace Sys2Proof.Machine

open Sys2Proof

/-- An armed mailbox command: the copy of its header and body (R380). -/
structure MailCmd where
  code       : Nat
  copy       : Nat
  mseq       : Nat
  /-- A reserved bit of the command word or a reserved header field is not zero. -/
  rsvd       : Bool
  len        : Nat
  noticeAddr : Nat
  noticeRkey : Nat
  noticeQp   : Nat
  body       : Bytes
  /-- Its place in the order in which command words have armed (R382). -/
  arrival    : Nat := 0
  /-- The command has begun; its reply comes later. -/
  begun      : Bool := false
  deriving DecidableEq, Repr

/-- A mailbox of Table 14-3: its bytes, LAST and the command that runs in it. -/
structure Mailbox where
  mem  : Mem := []
  last : Nat := 0xFFFF
  run  : Option MailCmd := none
  deriving DecidableEq, Repr

/-- Role of a session. -/
inductive Role where
  | owner | tenant (t : Nat)
  deriving DecidableEq, Repr

structure Session where
  role     : Role
  notAfter : Nat
  number   : Nat
  deriving DecidableEq, Repr

/-- What the acknowledgement of an outbound message lets the node do (R401, R155). -/
inductive AckTag where
  | plain
  /-- A result write of a request. -/
  | result (r : Req)
  /-- The completion record of a request, with the sync cell to increment. -/
  | completion (tenant : Nat) (csync : Option Nat)
  /-- The notice of a mailbox command. -/
  | notice (tenant : Option Nat)
  /-- A request of the node's own on a peer (replica or migration). -/
  | replica (tenant : Nat) (job : Nat)
  deriving DecidableEq, Repr

/-- An RDMA operation the node sends to a peer (R21, R451). -/
inductive OutOp where
  | write (addr rkey : Nat) (data : Bytes)
  | fetchAdd (addr rkey add : Nat)
  deriving DecidableEq, Repr

structure OutMsg where
  op  : OutOp
  psn : Nat
  tag : AckTag
  deriving DecidableEq, Repr

/-- States of a QP: being set up, connected, in error, or closed by DREQ. -/
inductive QpState where
  | setup | connected | error | closing
  deriving DecidableEq, Repr

/-- Why the node opened a QP itself. -/
inductive QpUse where
  | host
  | peer (tenant notAfter : Nat) (box : Box)
  | replica (tenant : Nat)
  | migration (mig : Nat)
  deriving DecidableEq, Repr

/-- DCQCN state of a QP (R457): rates in Mb/s, kept as exact rationals. -/
structure Cc where
  rc     : Rat
  rt     : Rat
  alpha  : Rat
  byteStage : Nat := 0
  timeStage : Nat := 0
  /-- Bytes sent since the byte counter was last started. -/
  sent   : Nat := 0
  /-- When the rate was last cut, and when the two timers were last started. -/
  cutAt  : Option Nat := none
  alphaAt : Nat := 0
  incAt  : Nat := 0
  deriving DecidableEq, Repr

/-- One connected or connecting QP with its session and session mailbox. -/
structure Qp where
  num     : Nat
  state   : QpState
  use     : QpUse := .host
  /-- The peer: its address as a number, and the node id PEER where the node opened the QP. -/
  peer    : Nat := 0
  peerNode : Nat := 0
  peerQpn : Nat := 0
  depth   : Nat := 0
  mtu     : Nat := 0
  tclass  : Nat := 0
  pcp     : Nat := 0
  /-- Next PSN expected from the peer, and next PSN to send. -/
  rxPsn   : Nat := 0
  txPsn   : Nat := 0
  unacked : List OutMsg := []
  retries : Nat := 0
  /-- Packets of a WRITE message still to come: address, rkey, length and bytes placed. -/
  placing : Option (Nat × Nat × Nat × Nat) := none
  /-- Nonce with its expiry (R374). -/
  nonce   : Option (Bytes × Nat) := none
  session : Option Session := none
  mbox    : Mailbox := {}
  /-- Return rkey with its first return record and first cell (R406). -/
  ret     : Option (Nat × Nat × Nat) := none
  cnpAt   : Option Nat := none
  cc      : Cc := ⟨1600000, 1600000, 1, 0, 0, 0, none, 0, 0⟩
  /-- The credential to present on a QP the node opens (R378), and whether its REQ waits for address resolution. -/
  sig     : Bytes := []
  unsent  : Bool := false
  /-- A NAK has been sent for the present PSN gap. -/
  nakSent : Bool := false
  /-- Answers to recent atomics, by PSN, for duplicates (R455). -/
  atomics : List (Nat × Nat) := []
  deriving DecidableEq, Repr

/-- A control mailbox (R393): the QP attached, its rkey and the mailbox. -/
structure CtlBox where
  id   : Nat
  qp   : Option Nat := none
  rkey : Nat := 0
  box  : Mailbox := {}
  deriving DecidableEq, Repr

inductive LeaseState where
  | active | ended
  deriving DecidableEq, Repr

/-- A lease that is not FREE: the fields of its cell (Table 15-2), rkey and staging window. -/
structure Lease where
  id      : Nat
  gen     : Nat
  tenant  : Nat
  state   : LeaseState
  service : Option Nat := none
  cause   : Nat := 0
  holdover : Bool := false
  expiry  : Nat
  fenceAt : Nat
  granted : Nat
  offset  : Nat
  ms      : Nat
  slotFirst : Nat
  slots   : Nat
  cellFirst : Nat
  cells   : Nat
  stageMib : Nat
  applied : Nat := 0
  refused : Nat := 0
  rkey    : Nat
  endedAt : Nat := 0
  deriving DecidableEq, Repr

/-- The cell of a FREE lease id keeps its GEN (R429). -/
structure LeaseGen where
  id  : Nat
  gen : Nat
  deriving DecidableEq, Repr

/-- LAST of a slot; a slot not listed has 0xFFFF (R397). -/
structure SlotSt where
  id   : Req
  last : Nat
  deriving DecidableEq, Repr

/-- One span pass of a unit: the span entry it reads, its runs of pages and its result (R112, R224). -/
structure PassWork where
  idx    : Nat
  entry  : Span
  runs   : List (Nat × Nat)
  /-- 0 waiting, 1 issued, 2 done, 3 withdrawn, 4 waiting for flash-read space. -/
  stage  : Nat
  /-- Partials of the unit that had reached the engine before this one's (R161). -/
  at_    : Nat
  parts  : Option (List Part)
  deriving DecidableEq, Repr

/-- A unit: one query, one KV head and one head group (R163). -/
structure UnitWork where
  q      : Nat
  kv     : Nat
  g0     : Nat
  n      : Nat
  /-- 0 waits, 1 runs, 2 has written its records. -/
  stage  : Nat
  pool   : Nat
  passes : List PassWork
  deriving DecidableEq, Repr

/-- The result of a walk: selected pages, how many were ranked, stale edges met (Table 7-5). -/
structure SelWork where
  q      : Nat
  kv     : Nat
  done   : Bool
  pages  : List Nat
  ranked : Nat
  stale  : Nat
  deriving DecidableEq, Repr

/-- A page step of the scatter engine: one page of one KV head (R187). -/
structure PageWork where
  head  : Nat
  span  : Nat
  page  : Nat
  row   : Nat
  rows  : Nat
  /-- First row of the group within the block. -/
  tok   : Nat
  /-- 0 waits, 1 issued, 2 done, 3 not run. -/
  stage : Nat
  deriving DecidableEq, Repr

/-- One query of a SEARCH: candidates, their distances and what was reached. -/
structure FindWork where
  q       : Nat
  done    : Bool
  cands   : List VecEnt
  dists   : List (Nat × F32)
  reached : Nat
  /-- Candidate blocks still to return. -/
  blocks  : Nat
  deriving DecidableEq, Repr

/-- Where a request stands. -/
inductive Phase where
  /-- Waits for its turn under R181 or R247. -/
  | turn
  /-- Waits for an attention, Pepper or scatter context, a workspace instance, a ring entry, flash-read space, or a
  MOVING span. -/
  | context | workspace | ring | flashSpace | moving
  | running
  /-- Waits under R196, or for older requests under R198. -/
  | commit | older
  /-- Its results are written and their acknowledgements awaited (R401). -/
  | finishing
  deriving DecidableEq, Repr

/-- An armed request with the copies taken at arm time (R397) and its engine's work. -/
structure Rq where
  id      : Req
  op      : Nat
  prio    : Nat
  lease   : Nat
  tenant  : Nat
  seq     : Nat
  via     : Nat
  csync   : Option Nat
  cmplAddr : Nat
  cmplRkey : Nat
  cmplQp  : Nat
  armTime : Nat
  order   : Nat
  deadline : Nat
  body    : Bytes
  /-- Sequence handle, C at arm time and span-table generation with its entries (R24, R29). -/
  handle  : Nat := 0
  len     : Nat := 0
  snapGen : Nat := 0
  snap    : List Span := []
  /-- Versions of the sequence's T2 copies at arm time, read by its direct reads (R24, R339). -/
  vers    : List FObj := []
  phase   : Phase := .running
  /-- Holds its attention or scatter context (Table 14-13). -/
  ctx     : Bool := false
  /-- Its point of no return has passed (R407). -/
  pnr     : Bool := false
  /-- The status it ends with once work that cannot be withdrawn has ended. -/
  stop    : Option Nat := none
  count   : Nat := 0
  detail  : Nat := 0
  redirect : Nat := 0
  units   : List UnitWork := []
  sels    : List SelWork := []
  pages   : List PageWork := []
  finds   : List FindWork := []
  /-- The collection as it stood when a SEARCH was armed (R247). -/
  coll    : Option Coll := none
  /-- Children found arrived, in the order found (R171). -/
  kids    : List Nat := []
  /-- Next entry of an INSERT_VECTORS, next operation of a RUN_LAYERS. -/
  next    : Nat := 0
  layer   : Nat := 0
  /-- FP32 outputs, row by row, of the array operation that a RUN_LAYERS has in progress. -/
  outs    : List Bytes := []
  /-- Workspace instance, ring entry. -/
  place   : Nat := 0
  /-- Result messages not yet acknowledged, and the record that waits for them. -/
  unacked : Nat := 0
  final   : Option Bytes := none
  /-- The QP that carries its results. -/
  resQp   : Option Nat := none
  /-- Local merge input (R168): staging offset of its records and the parent's sync cell. -/
  into    : Option (Nat × Nat) := none
  deriving DecidableEq, Repr

/-- What a Pepper context works on. -/
inductive WalkKind where
  | pages (q kv : Nat)
  | vectors (q : Nat)
  | insert
  deriving DecidableEq, Repr

/-- A Pepper context (R227): the nodes still to read at its level and those read. -/
structure Walk where
  ctx    : Nat
  req    : Req
  kind   : WalkKind
  sketch : Nat
  level  : Nat
  todo   : List Ptr
  seen   : List Ptr
  stale  : Nat
  /-- Span-table generation at its start (R229). -/
  gen    : Nat := 0
  deriving DecidableEq, Repr

/-- A walk that waits for a Pepper context. -/
structure WalkWait where
  req  : Req
  kind : WalkKind
  deriving DecidableEq, Repr

/-- An event ring subscription (R413). -/
structure Sub where
  box  : Box
  addr : Nat
  rkey : Nat
  qp   : Nat
  log2 : Nat
  deriving DecidableEq, Repr

/-- An event record (Table 14-14). -/
structure Event where
  eseq : Nat
  code : Nat
  sev  : Nat
  time : Nat
  data : Bytes
  deriving DecidableEq, Repr

end Sys2Proof.Machine
end

