-- ==== Sys2Proof/Machine/StPort.lean ====
section
/-! DEFINITION. State of the Ethernet port: configuration, link, egress queues and gates, policers, PTP, MACsec,
counters (chapter 16). -/

namespace Sys2Proof.Machine

open Sys2Proof

/-- PORT_CONFIG's settings (Table 16-2). -/
structure PortCfg where
  mac      : Nat
  vlan     : Nat
  ipv4     : Nat
  prefix4  : Nat
  prefix6  : Nat
  mtu      : Nat
  macsecEn : Bool
  pfcMask  : Nat
  gw4      : Nat
  ipv6     : Nat
  gw6      : Nat
  peerDscp : Nat
  peerPcp  : Nat
  cnpDscp  : Nat
  cnpPcp   : Nat
  ctlPcp   : Nat
  ackTimeout : Nat
  retryCnt : Nat
  txPol    : Nat
  rxPol    : Nat
  xoff     : Nat
  xon      : Nat
  cnpGap   : Nat
  g        : Nat
  alphaUs  : Nat
  incUs    : Nat
  incBytes : Nat
  rai      : Nat
  rhai     : Nat
  minRate  : Nat
  fast     : Nat
  deriving DecidableEq, Repr

/-- NAK codes the node sends (R451, R454, R468). -/
inductive NakCode where
  | sequence | invalidRequest | remoteAccess
  deriving DecidableEq, Repr

/-- What a transmitted frame carries. -/
inductive FrameKind where
  /-- One packet of an RDMA WRITE or FETCH_ADD the node sends: QP, PSN and the message. -/
  | request (qp psn : Nat) (op : OutOp)
  | readResponse (qp psn : Nat) (data : Bytes)
  | atomicResponse (qp psn old : Nat)
  | ack (qp psn : Nat)
  | nak (qp psn : Nat) (code : NakCode)
  | cnp (qp : Nat)
  | cmReq (qp peer psn : Nat)
  | cmRep (qp peerQpn resources depth psn mtu : Nat)
  | cmRtu (qp : Nat)
  | cmRej (peerQpn reason : Nat)
  | cmDreq (qp : Nat)
  | cmDrep (qp : Nat)
  | arpReply (ip mac : Nat)
  | neighborAdvert (ip mac : Nat)
  | echoReply (v6 : Bool) (dst : Nat) (data : Bytes)
  | arpRequest (ip : Nat)
  | neighborSolicit (ip : Nat)
  | pdelayReq (seq time : Nat)
  | pdelayResp (seq rx tx : Nat) (oneStep : Bool)
  | pdelayFollowUp (seq tx : Nat)
  | pfc (prio : Nat) (pause : Bool)
  deriving DecidableEq, Repr

/-- A frame with its count of R459 and its DSCP; `sec` names the transmit SA it goes under. -/
structure Frame where
  kind  : FrameKind
  count : Nat
  dscp  : Nat := 0
  sec   : Option Nat := none
  deriving DecidableEq, Repr

/-- An egress queue (R460 to R462): settings, bucket credit in bytes, deficit, pause and counters. -/
structure Queue where
  frames   : List Frame := []
  quantum  : Nat := 8192
  rate     : Nat := 0
  burst    : Nat := 16777216
  credit   : Rat := 16777216
  creditAt : Nat := 0
  deficit  : Nat := 0
  /-- Paused by a received PFC frame until this time (R458). -/
  paused   : Option Nat := none
  txFrames : Nat := 0
  txBytes  : Nat := 0
  txDrops  : Nat := 0
  deriving DecidableEq, Repr

/-- A gate control list entry (R463). -/
structure Gate where
  mask : Nat
  dur  : Nat
  deriving DecidableEq, Repr

/-- An ingress policer (R467, R468). -/
structure Policer where
  index : Nat
  scope : Nat
  id    : Nat
  rate  : Nat
  burst : Nat
  credit : Rat
  creditAt : Nat
  deriving DecidableEq, Repr

/-- A secure association: key, SSCI, salt, next packet number and replay window (R474). -/
structure Sa where
  an    : Nat
  key   : Bytes
  ssci  : Nat
  salt  : Bytes
  pn    : Nat
  window : Nat
  deriving DecidableEq, Repr

/-- A receive SC with its SAs (R474). -/
structure RxSc where
  id  : Nat
  sci : Bytes
  sas : List Sa
  deriving DecidableEq, Repr

/-- PTP_CONFIG's settings with the defaults of R470, and the clock's discipline. -/
structure PtpSt where
  /-- A PTP_CONFIG has been accepted (R494). -/
  set     : Bool := false
  domain  : Nat := 0
  oneStep : Bool := false
  queue   : Nat := 7
  logPdelay : Int := 0
  lockNs  : Nat := 1000
  txAsym  : Int := 0
  rxAsym  : Int := 0
  ppsUs   : Nat := 100
  /-- Consecutive Syncs within and beyond LOCK_NS. -/
  good    : Nat := 0
  bad     : Nat := 0
  lastSync : Option Nat := none
  interval : Nat := 0
  /-- Offset still to be slewed. -/
  offset  : Int := 0
  pdelaySeq : Nat := 0
  linkDelay : Option Int := none
  ppsHigh : Option Nat := none
  ppsIn   : List Nat := []
  deriving DecidableEq, Repr

/-- A neighbour that ARP or ND has resolved, or is to resolve (R450). -/
structure Neighbor where
  ip  : Nat
  mac : Option Nat
  deriving DecidableEq, Repr

structure PortSt where
  link    : Bool := false
  /-- FUNC_STOP of LINK holds the link down. -/
  held    : Bool := false
  netclk  : Bool := true
  /-- The link may train: the function runs and the node serves. -/
  cfg     : Option PortCfg := none
  queues  : List Queue := List.replicate 6 ({} : Queue) ++ List.replicate 2 { quantum := 0 }
  /-- DWRR: the queue whose turn it is, and whether it has had its quantum this turn. -/
  turn    : Nat := 0
  served  : Bool := false
  schedOn : Bool := true
  gclOn   : Bool := false
  gcl     : List Gate := []
  cycle   : Nat := 0
  base    : Nat := 0
  /-- First cycle start of the running schedule. -/
  start   : Option Nat := none
  /-- Present gate mask. -/
  gates   : Nat := 255
  policeOn : Bool := true
  policers : List Policer := []
  policeDrops : List (Nat × Nat) := []
  ptp     : PtpSt := {}
  neighbors : List Neighbor := []
  txSci   : Bytes := []
  txSas   : List Sa := []
  txAn    : Option Nat := none
  /-- A switch waiting for the next frame boundary (R476). -/
  txSwitch : Option Nat := none
  rxScs   : List RxSc := []
  /-- Frames transmitted, oldest first (the model's own record of the wire). -/
  wire    : List Frame := []
  rxUnsupported : Nat := 0
  rxBufferDrops : Nat := 0
  icrcErrors : Nat := 0
  icvFail : Nat := 0
  replay  : Nat := 0
  unprotected : Nat := 0
  cnpSent : Nat := 0
  cnpReceived : Nat := 0
  pfcSent : List Nat := List.replicate 8 0
  pfcReceived : List Nat := List.replicate 8 0
  fecCorrected : Nat := 0
  fecUncorrected : Nat := 0
  deriving DecidableEq, Repr

end Sys2Proof.Machine
end

