-- ==== Sys2Proof/Machine/StHealth.lean ====
section
/-! DEFINITION. State of error handling and health: the error log, buckets, Mace and the health score (chapter 18). -/

namespace Sys2Proof.Machine

open Sys2Proof

/-- An error record (Table 18-4). CLASS 0 CORRECTED, 1 UNCORRECTED, 2 FAULT, 3 FATAL. -/
structure ErrRec where
  recno  : Nat
  time   : Nat
  cls    : Nat
  source : Nat
  code   : Nat := 0
  requester : Nat := 0
  loctype : Nat := 0
  tenant : Option Nat := none
  repaired : Bool := false
  reported : Bool := false
  lossmark : Bool := false
  symbols : Nat := 0
  loc    : Nat := 0
  object : Nat := 0
  opcode : Nat := 0
  bankop : Nat := 0
  slot   : Nat := 0
  lease  : Nat := 0
  aux    : Nat := 0
  deriving DecidableEq, Repr

/-- A frame found uncorrectable, for the windows of R530 and R532. -/
structure BadFrame where
  time : Nat
  bank : Nat
  frame : Nat
  repaired : Bool
  deriving DecidableEq, Repr

/-- A bucket overflow (R521). -/
structure Overflow where
  time : Nat
  channel : Bool
  id : Nat
  deriving DecidableEq, Repr

/-- A STORE_PARITY or BAD_DESCRIPTOR fault of a bank (Table 18-6, trigger 3). -/
structure BankFault where
  time : Nat
  bank : Nat
  deriving DecidableEq, Repr

/-- A frame queued for a Mace repair (R519). -/
structure Repair where
  bank : Nat
  frame : Nat
  due : Nat
  deriving DecidableEq, Repr

/-- A bank that a trigger has set to retire (R530, R531). -/
structure Retiring where
  bank : Nat
  trigger : Nat
  time : Nat
  deriving DecidableEq, Repr

structure HealthSt where
  errs     : List ErrRec := []
  nextRec  : Nat := 0
  /-- Frames (by NPA) corrected since they were last written (R520). -/
  events   : List Nat := []
  /-- Channel bucket levels that are not 0. -/
  chBuckets : List (Nat × Nat) := []
  bad      : List BadFrame := []
  overflows : List Overflow := []
  faults   : List BankFault := []
  repairs  : List Repair := []
  retiring : List Retiring := []
  /-- Next frame of each bank's walk, where it is not 0 (R527). -/
  walk     : List (Nat × Nat) := []
  maceT1   : Bool := true
  maceT2   : Bool := true
  passMin  : Nat := 480
  t2Days   : Nat := 0
  passEnd  : Nat := 0
  score    : Nat := 0
  band     : Nat := 0
  bandSince : Nat := 0
  /-- Since when H has stayed 50 below the present band's threshold (R533). -/
  better   : Option Nat := none
  /-- Since when neither save area has been wholly erased (Table 18-7). -/
  noSave   : Option Nat := some 0
  ceTotal  : Nat := 0
  sramCe   : Nat := 0
  hb : Nat := 0
  hu : Nat := 0
  hc : Nat := 0
  hf : Nat := 0
  hs : Nat := 0
  u24 : Nat := 0
  v24 : Nat := 0
  pbad : Nat := 0
  deriving DecidableEq, Repr

end Sys2Proof.Machine
end

