-- ==== Sys2Proof/Machine/StServ.lean ====
section
/-! DEFINITION. State of the resident services: partitions, their guest memory and rings (chapter 11). -/

namespace Sys2Proof.Machine

open Sys2Proof

/-- A ring entry in use: its delivery number and the SCORE it holds (R312). -/
structure RingEnt where
  entry    : Nat
  delivery : Nat
  req      : Req
  deriving DecidableEq, Repr

/-- A core of a partition: its state under HSM, mode, SSTATUS.SIE with the value to return to, the trap it handles and the
interrupts that wait (R298, R305, R313, R316). -/
structure CoreSt where
  num    : Nat
  on     : Bool := false
  /-- VU-mode; otherwise VS-mode. -/
  user   : Bool := false
  /-- Where it starts, and its first arguments. -/
  pc     : Nat := 0
  a0     : Nat := 0
  a1     : Nat := 0
  sie    : Bool := false
  spie   : Bool := false
  trap   : Bool := false
  scause : Option Nat := none
  /-- Timer compare of the SBI timer extension, in PTP ns. -/
  timerAt : Option Nat := none
  /-- Supervisor external, timer and software interrupts pending. -/
  extInt  : Bool := false
  timerInt : Bool := false
  softInt : Bool := false
  deriving DecidableEq, Repr

/-- A partition (R300 to R317). The information page, ring and internal slots are kept by guest physical address (Table 11-2); private
memory stands in T1, the staging window is the service lease's. -/
structure Partition where
  id      : Nat
  tenant  : Nat
  image   : Nat
  /-- Its cores in ascending number. -/
  cores   : List CoreSt
  memMib  : Nat
  nslots  : Nat
  entries : Nat
  stageMib : Nat
  lease   : Nat
  restartMax : Nat
  restarts : List Nat := []
  mem     : Mem := []
  /-- 64-byte lines, by guest physical address / 64, that are poisoned (R316). -/
  poison  : List Nat := []
  /-- SCOREs delivered so far, modulo 2^32 (R312). -/
  delivered : Nat := 0
  ring    : List RingEnt := []
  deriving DecidableEq, Repr

structure ServSt where
  parts : List Partition := []
  deriving DecidableEq, Repr

end Sys2Proof.Machine
end

