-- ==== Sys2Proof/Machine/StPower.lean ====
section
/-! DEFINITION. State of power, resets, pins and the sideband (chapters 19 to 21). -/

namespace Sys2Proof.Machine

open Sys2Proof

/-- SB.STATUS.STATE (Table 20-6), and the part without STBY_3V3. -/
inductive Boot where
  | off | rom | recovery | booting | running | warmReset | saving | saved | failStop | void
  deriving DecidableEq, Repr

/-- A message the node sends on the sideband: a vendor reply of Table 20-2, an MCTP control reply, a PLDM reply. -/
inductive SbMsg where
  | vendor (cmd tag status addr len : Nat) (data : Bytes)
  | control (cmd : Nat) (data : Bytes)
  | pldm (data : Bytes)
  deriving DecidableEq, Repr

/-- SB.FAILCAUSE and SB.FAILLOC (Tables 20-9, 20-10). -/
structure FailRegs where
  code  : Nat := 0
  site  : Nat := 0
  stack : Nat := 0
  temp  : Int := 0
  npa   : Nat := 0
  deriving DecidableEq, Repr

/-- SB.SAVE's fields but for the erased flags (Table 20-11). -/
structure SaveRegs where
  last    : Nat := 0
  area    : Nat := 0
  restore : Nat := 0
  time    : Nat := 0
  kib     : Nat := 0
  deriving DecidableEq, Repr

structure PowerSt where
  boot    : Boot := .rom
  /-- PWRFAIL_N was low when PORST_N rose: ROM waits (R597). -/
  romHeld : Bool := false
  /-- PORST_N, WRST_N and PWRFAIL_N are low. -/
  porstLow : Bool := false
  wrstLow  : Bool := false
  pwrfailLow : Bool := false
  refclk  : Bool := true
  saveAct : Bool := false
  saveDone : Bool := false
  /-- FAIL_N and THERMTRIP_N are driven low. -/
  failN   : Bool := false
  thermtrip : Bool := false
  /-- Power state N0 to N4 (Table 19-4), the wake budget and dwell time (R550). -/
  pstate  : Nat := 0
  budgetUs : Nat := 0
  dwellUs : Nat := 1000
  /-- Firmware has restored the node since the last cold reset. -/
  restored : Bool := false
  appW    : Nat := 180
  /-- Clocks of application clusters 0 to 7 in units of 100 MHz, and the APP_VID code (R546, R589). -/
  clusters : List Nat := List.replicate 8 10
  appVid  : Nat := 20
  /-- Node-die junction in units of 0.125 °C and the derating step of Table 9-5. -/
  dieTemp : Option Int := none
  dieStep : Nat := 0
  /-- SB.POWER (Table 20-12). -/
  dieDw   : Nat := 0
  stacksDw : Nat := 0
  pkgDw   : Nat := 0
  fail    : FailRegs := {}
  save    : SaveRegs := {}
  /-- Node id (R446), UPD and BOOT_TIME of the identity block (R574). -/
  node    : Nat := 0
  upd     : Nat := 0
  bootTime : Nat := 0
  /-- I3C dynamic address and MCTP endpoint id. -/
  dynAddr : Option Nat := none
  eid     : Nat := 0
  /-- Sideband messages sent, oldest first (the model's own record of the bus). -/
  sent    : List SbMsg := []
  deriving DecidableEq, Repr

end Sys2Proof.Machine
end

