-- ==== Sys2Proof/Machine/StSec.lean ====
section
/-! DEFINITION. State of the root of trust: fuses, the boot flash, what ROM hands over, evidence (chapter 17). -/

namespace Sys2Proof.Machine

open Sys2Proof

/-- Life-cycle states (Table 17-2). -/
inductive Lcs where
  | test | field | return_ | void
  deriving DecidableEq, Repr

/-- An evidence record built in a mailbox (R491). -/
structure Evidence where
  box   : Box
  nonce : Bytes
  bytes : Bytes
  deriving DecidableEq, Repr

/-- Why the recovery loader refused an image (Table 17-7). -/
inductive RecCause where
  | none | header | vendorSig | ownerRecord | ownerSig | svn | flash
  deriving DecidableEq, Repr

structure SecSt where
  lcs      : Lcs := .field
  /-- OWNER_ROOT, OWNER_FLAGS and the SVN fuses (Table 17-1, R608). -/
  ownerRoot : Option Bytes := none
  ownerFlags : Nat := 0
  svnCount : Nat := 0
  /-- The boot flash: image range, certificate area, owner area (Table 17-5); each byte complemented, so that an erased one is 0. -/
  flash    : Mem := []
  /-- The owner record in force. -/
  record   : Option Bytes := none
  lcsNonce : Option (Bytes × Nat) := none
  /-- The running image: FWREV, SVN and FW_DIG; zero while no firmware runs. -/
  fwRev    : Nat := 0
  svn      : Nat := 0
  fwDig    : Bytes := []
  cdi1     : Bytes := []
  /-- KS in the island's key register (R489). -/
  ks       : Bytes := []
  /-- The image range is read-only (R485 step 8). -/
  locked   : Bool := false
  recState : Nat := 0
  recCause : RecCause := .none
  recBytes : Nat := 0
  recLen   : Nat := 0
  evidence : List Evidence := []
  /-- Vendor debug is open over JTAG (Table 17-2). -/
  debug    : Bool := false
  deriving DecidableEq, Repr

end Sys2Proof.Machine
end

