-- ==== Sys2Proof/Machine/StCfg.lean ====
section
/-! DEFINITION. State of the configuration copy that both flash save areas hold (R568). -/

namespace Sys2Proof.Machine

open Sys2Proof

/-- A QUEUE record in force: quantum, rate and burst (R466). -/
structure QueueRec where
  quantum : Nat
  rate    : Nat
  burst   : Nat
  deriving DecidableEq, Repr

/-- The configuration copy. Tenants carry their quotas, credentials, floors, epochs and journalled keys. -/
structure CfgCopy where
  node    : Nat
  port    : Option PortCfg
  ptp     : PtpSt
  queues  : List QueueRec
  gclOn   : Bool
  gcl     : List Gate
  cycle   : Nat
  base    : Nat
  policers : List Policer
  stks   : List (Nat × Nat)
  groups  : List Nat
  appW    : Nat
  budget  : Nat
  dwell   : Nat
  passMin : Nat
  t2Days  : Nat
  tenants : List Tenant
  /-- The storage key that seals the key journal (R499). -/
  ks      : Bytes := []
  parts   : List Partition
  retired : List Nat
  errs    : List ErrRec
  deriving DecidableEq, Repr

end Sys2Proof.Machine
end

