-- ==== Sys2Proof/Machine/StArray.lean ====
section
/-! DEFINITION. State of the tensor arrays, their groups and the layer plans (chapters 9 and 10). -/

namespace Sys2Proof.Machine

open Sys2Proof

/-- An array group: the tenant that holds it, its allowance in units of 0.5 W and its credit in pJ (R257, R266, R267). -/
structure Group where
  id        : Nat
  tenant    : Option Nat := none
  allowance : Nat := 140
  credit    : Nat := 700000000
  creditAt  : Nat := 0
  /-- The tenant whose work its local stores hold; none once they are scrubbed (R260). -/
  store     : Option Nat := none
  deriving DecidableEq, Repr

/-- What an array job computes. -/
inductive ArrKind where
  /-- A span pass over a SEALED or FLASH_ONLY span (R165, R606). -/
  | span (unit pass : Nat)
  /-- The tile passes of one output column in K order (R250, R259): GEMM call `call` of the operation, column `nt`. -/
  | col (call nt : Nat)
  deriving DecidableEq, Repr

/-- Work given to an array group: waiting in the dispatcher until `arr` is set, then on that array. `todo` are the pages or K
tiles to come; `ready` says that the governor has issued the pass in hand. -/
structure ArrJob where
  group : Nat
  arr   : Option Nat := none
  req   : Req
  prio  : Nat
  order : Nat
  kind  : ArrKind
  todo  : List Nat
  /-- Loop index and entries of the in-span combination (R112). -/
  next  : Nat := 0
  parts : List Entry := List.replicate 8 {}
  /-- FP32 accumulators of a column, by activation row and column (R250). -/
  acc   : List (List F32) := []
  /-- pJ of one pass, deducted at issue (R266, R267). -/
  charge : Nat
  ready : Bool := false
  deriving DecidableEq, Repr

structure ArrSt where
  /-- Work of the dispatchers and arrays, and the group that last took a span pass, by tenant (R606). -/
  jobs : List ArrJob := []
  turns : List (Nat × Nat) := []
  groups : List Group := (List.range 8).map fun i => { id := i }
  deriving DecidableEq, Repr

end Sys2Proof.Machine
end

