-- ==== Sys2Proof/Machine/StFlash.lean ====
section
/-! DEFINITION. State of T2: the NAND, the log and its objects, tier-mover jobs, peers, migrations and the save areas
(chapters 12, 13, 15 and 19). -/

namespace Sys2Proof.Machine

open Sys2Proof

/-- The flash profile (Table 13-4). -/
structure Profile where
  slcFeature : Nat
  slcValue : Nat
  retryFeature : Nat
  retry    : List Nat
  trMax    : Nat
  tprog    : Nat
  tprogSlc : Nat
  tbers    : Nat
  endurance : Nat
  disturb  : Nat
  refreshDays : Nat
  deriving DecidableEq, Repr

/-- What a segment is used for. A segment not listed is free and never erased. -/
inductive SegUse where
  | free | flush | reloc | closed | retired | erasing
  deriving DecidableEq, Repr

/-- A segment of the log (R361, R364): erase count, good planes, next offset, page reads since its erase. -/
structure Seg where
  id     : Nat
  use    : SegUse := .free
  erases : Nat := 0
  bad    : List Nat := []
  fill   : Nat := 0
  reads  : Nat := 0
  /-- Planes whose block failed a program, to be retired once the segment is empty (R364). -/
  failing : List Nat := []
  deriving DecidableEq, Repr

/-- A record of the log (Table 13-5). An INDEX record carries its version beside its payload. -/
structure LogRec where
  lsn    : Nat
  seg    : Nat
  off    : Nat
  typ    : Nat
  block  : Nat
  obj    : Nat
  gen    : Nat
  payload : Bytes
  ver    : Option FObj := none
  deriving DecidableEq, Repr

/-- A page's snapshot in a flush (R328). -/
structure Snap where
  page : Nat
  n    : Nat
  deriving DecidableEq, Repr

/-- What a tier-mover job does. -/
inductive JobKind where
  /-- A flush of one block: its span, the snapshots, and whether the replica's acknowledgement is needed and has come. -/
  | flush (als layer head idx : Nat) (snaps : List Snap) (fabric acked : Bool)
  /-- An install for an append-class request. -/
  | install (r : Req) (als layer head idx : Nat)
  /-- A direct read for a span pass (R339). -/
  | direct (r : Req) (unit pass : Nat)
  deriving DecidableEq, Repr

/-- A tier-mover job with the tenant epoch it noted (R505), the version it writes or reads, the blocks still to program or
read, and the blocks read. -/
structure FJob where
  id     : Nat
  tenant : Nat
  epoch  : Nat
  kind   : JobKind
  ver    : FObj
  todo   : List Nat
  data   : List (Nat × Bytes) := []
  /-- Frames that an install has allocated: bank and first frame (R326 step 1). -/
  place  : Option (Nat × Nat) := none
  deriving DecidableEq, Repr

/-- A session and lease that the node holds on a peer (R334, R436). -/
structure Peer where
  qp     : Nat
  tenant : Nat
  /-- The migration it serves; none for a FABRIC replica. -/
  mig    : Option Nat
  node   : Nat
  /-- The lease on the peer: id, GEN, rkey, first slot, expiry by this node's clock; none before it is granted. -/
  lease  : Option (Nat × Nat × Nat × Nat × Nat) := none
  /-- SLOTSEQ last used on each of the lease's slots. -/
  seqs   : List Nat := []
  mseq   : Nat := 0
  /-- Increments that have reached the return cell and no acknowledged block has used yet (R336). -/
  incs   : Nat := 0
  /-- REPLICA_DROP of a destroyed tenant has been issued (R509). -/
  dropped : Bool := false
  deriving DecidableEq, Repr

/-- What a REPLICA_PUT on a peer was armed for. -/
inductive PutUse where
  | flush (job : Nat)
  | copy (mig als layer head idx block : Nat)
  deriving DecidableEq, Repr

/-- A REPLICA_PUT the node has armed on a peer (R334, R336). -/
structure Put where
  qp     : Nat
  slot   : Nat
  /-- SLOTSEQ that its completion record names. -/
  seq    : Nat
  use    : PutUse
  /-- When it has timed out (R337). -/
  until_ : Nat
  /-- Completion status once its record has arrived. -/
  status : Option Nat := none
  deriving DecidableEq, Repr

/-- Migration states (Table 15-4); `freezing` while FREEZE waits. -/
inductive MigState where
  | prepared | installed | copying | freezing | frozen | stubbed
  deriving DecidableEq, Repr

/-- A block of a span to copy. -/
structure CopyBlk where
  als   : Nat
  layer : Nat
  head  : Nat
  idx   : Nat
  block : Nat
  deriving DecidableEq, Repr

structure Mig where
  id     : Nat
  source : Bool
  tenant : Nat
  peer   : Nat
  epoch  : Nat
  seqs   : List Nat
  graceMs : Nat
  notAfter : Nat
  state  : MigState
  qp     : Option Nat := none
  /-- The mailbox whose command waits for an answer. -/
  box    : Option Box := none
  addr   : Bytes := []
  sig    : Bytes := []
  todo   : List CopyBlk := []
  sent   : List CopyBlk := []
  /-- OBJ_GEN last used for each block copied. -/
  gens   : List (CopyBlk × Nat) := []
  /-- C of each sequence, by alias, when the copy began; positions from there to the final C are copied last. -/
  lens   : List (Nat × Nat) := []
  bytes  : Nat := 0
  waitUntil : Nat := 0
  graceAt : Nat := 0
  /-- The reply of INSTALL or FREEZE, repeated on request (R437). -/
  answer : Bytes := []
  deriving DecidableEq, Repr

/-- A replica session that R337 re-establishes, with its next attempt; also a withdrawal of R509. -/
structure Retry where
  tenant : Nat
  next   : Nat
  until_ : Nat
  addr   : Bytes
  node   : Nat
  sig    : Bytes
  deriving DecidableEq, Repr

/-- A save image (Table 19-9). -/
structure SaveImage where
  commit : Bool
  lsn    : Nat
  /-- Node time at which its writing began, and its programming time. -/
  start  : Nat
  dur    : Nat
  kib    : Nat
  seqs   : List Seq
  spans  : List Span
  objs   : List FObj
  migs   : List Mig
  destroyed : List (Nat × Nat)
  segs   : List Seg
  errs   : List ErrRec
  /-- Dl of each sequence by alias (Table 19-9). -/
  durs   : List (Nat × Nat)
  /-- Seal counters: tenant, key generation, next CTR. -/
  ctrs   : List (Nat × Nat × Nat)
  /-- The retired-bank record (R65). -/
  retired : List Nat := []
  deriving DecidableEq, Repr

/-- The image part of a save area (R568). -/
structure SaveArea where
  erased : Bool := false
  image  : Option SaveImage := none
  deriving DecidableEq, Repr

structure FlashSt where
  /-- The configuration copy of R568; none before anything has been configured, and after R482. -/
  cfg     : Option CfgCopy := none
  profile : Option Profile := none
  /-- Geometry and flash strength, once FLASH_FORMAT has run. -/
  geom    : Option FlashGeom := none
  strength : Nat := 0
  areaA   : SaveArea := {}
  areaB   : SaveArea := {}
  segs    : List Seg := []
  /-- Place of the next record in the turn over LUNs (R363). -/
  turn    : Nat := 0
  lsn     : Nat := 0
  log     : List LogRec := []
  objs    : List FObj := []
  nextIdx : Nat := 0
  /-- The last complete map checkpoint, its LSN and time; the last span-table checkpoint (R362, R567). -/
  ckObjs  : List FObj := []
  ckLsn   : Nat := 0
  ckTime  : Nat := 0
  ckSpans : List Span := []
  ckSeqs  : List Seq := []
  ckSpanLsn : Nat := 0
  ckSpanTime : Nat := 0
  jobs    : List FJob := []
  nextJob : Nat := 0
  /-- Tenant and alias last served in the turns of R332. -/
  rrTenant : Nat := 255
  rrSeqs   : List (Nat × Nat) := []
  /-- Blocks marked for Mace repair (R357): object and block. -/
  repair  : List (Nat × Nat) := []
  /-- First segment that the T2 walk has not yet read (R366, Table 19-8). -/
  walk    : Nat := 0
  /-- LSN journalled with each destroyed tenant (R508). -/
  destroyed : List (Nat × Nat) := []
  /-- Flash-read space in use, in KiB by tenant (R339). -/
  space   : List (Nat × Nat) := []
  peers   : List Peer := []
  puts    : List Put := []
  migs    : List Mig := []
  retries : List Retry := []
  withdraw : List Retry := []
  /-- Pairs (tenant, source node) withdrawn by a peer (R509), and pairs (source node, handle) promoted (R338). -/
  withdrawn : List (Nat × Nat) := []
  promoted : List (Nat × Nat) := []
  /-- The restored state is journalled: the used save area may be erased (R368). -/
  journalled : Bool := false
  deriving DecidableEq, Repr

end Sys2Proof.Machine
end

