-- ==== Sys2Proof/Machine/State.lean ====
section
/-! DEFINITION. The state of the block, the reasons a command can stop, and the state after reset. -/

namespace Sys2Proof.Machine

open Sys2Proof

/-- PTP states of Table 16-5. -/
inductive Ptp where
  | unlocked | locked | holdover
  deriving DecidableEq, Repr

/-- The node clock: PTP time in ns (R6) and its state. -/
structure Clock where
  now    : Nat := 0
  ptp    : Ptp := .unlocked
  /-- Node time at which the clock last left LOCKED (R426). -/
  th     : Nat := 0
  deriving DecidableEq, Repr

/-- T1: banks and stacks that differ from their defaults, the bytes by NPA, the regions and freed frames. -/
structure MemSt where
  banks   : List Bank := []
  stks   : List Stack := []
  t1      : Mem := []
  regions : List Region := []
  freed   : List Freed := []
  /-- Half-frames, by NPA, in which on-die ECC reports an uncorrectable word until they are written again (R517). -/
  ue      : List Nat := []
  /-- Bank operations sent so far. -/
  order   : Nat := 0
  deriving DecidableEq, Repr

/-- The window's stores, QPs, mailboxes and events. -/
structure NucSt where
  win    : Mem := []
  slots  : List SlotSt := []
  qps    : List Qp := []
  ctl    : List CtlBox := []
  sideband : Mailbox := {}
  subs   : List Sub := []
  eseq   : Nat := 0
  /-- Command words that have armed (R382). -/
  arrivals : Nat := 0
  /-- Events queued for the sideband (R582) and the lost flag. -/
  sbEvents : List Event := []
  evLost : Bool := false
  sessions : Nat := 0
  deriving DecidableEq, Repr

/-- Tenants and leases. -/
structure OwnSt where
  tenants : List Tenant := []
  leases  : List Lease := []
  gens    : List LeaseGen := []
  deriving DecidableEq, Repr

/-- Sequences, the span table and the trees. -/
structure SeqSt where
  seqs   : List Seq := []
  spans  : List Span := []
  gen    : Nat := 0
  roots  : List Root := []
  nodes  : List TreeNode := []
  slots  : List TreeSlot := []
  /-- Nodes that a bank retirement has copied elsewhere, read on by the walks that started before (R229). -/
  old    : List TreeNode := []
  /-- Tree regions allocated so far, for the turn across the stacks (R208). -/
  turn   : Nat := 0
  colls  : List Coll := []
  objs   : List Obj := []
  deriving DecidableEq, Repr

/-- Armed requests and Pepper's contexts. -/
structure EngSt where
  reqs  : List Rq := []
  walks : List Walk := []
  waits : List WalkWait := []
  /-- Arm order (R181, R412). -/
  order : Nat := 0
  deriving DecidableEq, Repr

structure State where
  clock : Clock
  mem   : MemSt
  nuc   : NucSt
  own   : OwnSt
  sq    : SeqSt
  eng   : EngSt
  port  : PortSt
  hl    : HealthSt
  serv  : ServSt
  pw    : PowerSt
  sec   : SecSt
  arr   : ArrSt
  fl    : FlashSt
  /-- The model's own counter of free values drawn (log entry 3); no register of the part. -/
  free  : Nat
  /-- Commands that wait, first in, first out. -/
  pending : List Instr
  deriving DecidableEq, Repr

/-- Why a command stops with a fault. -/
inductive Fault where
  /-- Raised by a row whose operand names a bank above 9,215, a channel above 575 or a stack above 17: the part has none
  (R37). Safe: no state follows. -/
  | noSuchBank
  deriving DecidableEq, Repr

/-- Why a command is refused. -/
inductive Refusal where
  /-- Raised by an arm of `exec` for a row without a meaning; safe. -/
  | notModelled (mnemonic : String)
  deriving DecidableEq, Repr

def State.reset : State :=
  { clock := {}, mem := {}, nuc := {}, own := {}, sq := {}, eng := {}, port := {}, hl := {}, serv := {}, pw := {}, sec := {}, arr := {}, fl := {}, free := 0, pending := [] }

end Sys2Proof.Machine
end

