-- ==== Sys2Proof/Machine/Ops.lean ====
section
/-! DEFINITION. The named operations every family uses: look-ups and updates of the lists State holds, free values,
error records and events, outbound messages and frames, completion of requests and of mailbox commands. -/

namespace Sys2Proof.Machine

open Sys2Proof

/-! ## Look-ups and updates -/

def State.now (s : State) : Nat := s.clock.now

/-- A time of last read, at 1 ms resolution (R325). -/
def State.readTime (s : State) : Nat := s.now / 1000000 * 1000000

/-- Time passes to `t` if that is later (log entry 4). -/
def State.at (s : State) (t : Nat) : State := { s with clock.now := max s.clock.now t }

def tenantOf (s : State) (t : Nat) : Option Tenant := s.own.tenants.find? fun x => x.id == t
def setTenant (s : State) (t : Tenant) : State :=
  { s with own.tenants := putBy (fun x => x.id == t.id) t s.own.tenants }
def mapTenant (s : State) (t : Nat) (f : Tenant → Tenant) : State :=
  { s with own.tenants := mapIf (fun x => x.id == t) f s.own.tenants }

def leaseOf (s : State) (l : Nat) : Option Lease := s.own.leases.find? fun x => x.id == l
def mapLease (s : State) (l : Nat) (f : Lease → Lease) : State :=
  { s with own.leases := mapIf (fun x => x.id == l) f s.own.leases }

def qpOf (s : State) (q : Nat) : Option Qp := s.nuc.qps.find? fun x => x.num == q
def mapQp (s : State) (q : Nat) (f : Qp → Qp) : State :=
  { s with nuc.qps := mapIf (fun x => x.num == q) f s.nuc.qps }

def reqOf (s : State) (r : Req) : Option Rq := s.eng.reqs.find? fun x => x.id == r
def mapReq (s : State) (r : Req) (f : Rq → Rq) : State :=
  { s with eng.reqs := mapIf (fun x => x.id == r) f s.eng.reqs }
def dropReq (s : State) (r : Req) : State :=
  { s with eng.reqs := s.eng.reqs.filter fun x => x.id != r,
           eng.walks := s.eng.walks.filter fun w => w.req != r,
           eng.waits := s.eng.waits.filter fun w => w.req != r }

/-- A sequence by handle; a deleted one is found only by requests armed before (R386). -/
def seqOf (s : State) (h : Nat) : Option Seq := s.sq.seqs.find? fun x => x.handle == h && !x.gone
def seqAny (s : State) (h : Nat) : Option Seq := s.sq.seqs.find? fun x => x.handle == h
def mapSeq (s : State) (a : Nat) (f : Seq → Seq) : State :=
  { s with sq.seqs := mapIf (fun x => x.als == a) f s.sq.seqs }

/-- W(l, h) (R178). -/
def Seq.front (q : Seq) (l h : Nat) : Nat :=
  ((q.fronts.find? fun f => f.layer == l && f.head == h).map Front.w).getD q.wBase
def Seq.setFront (q : Seq) (l h w : Nat) : Seq :=
  { q with fronts := putBy (fun f => f.layer == l && f.head == h) ⟨l, h, w⟩ q.fronts }

/-- Every W(l, h) equals `c`. -/
def Seq.level (q : Seq) (c : Nat) : Bool :=
  (List.range q.layers).all fun l => (List.range q.kvh).all fun h => q.front l h == c

def spanOf (s : State) (a l h i : Nat) : Option Span :=
  s.sq.spans.find? fun x => x.als == a && x.layer == l && x.head == h && x.idx == i
def Span.same (x y : Span) : Bool := x.als == y.als && x.layer == y.layer && x.head == y.head && x.idx == y.idx

/-- PAGES of an entry: pages holding a written row. -/
def pagesUsed (x : Span) : Nat := (x.pages.filter fun p => decide (0 < p.wr)).length

/-- Write an entry's fields in place. A change of PAGES or FLASH_OBJ keeps SPAN_GEN and is published in the next generation (R52). -/
def setSpan (s : State) (x : Span) : State :=
  let step := match s.sq.spans.find? x.same with
    | some y => if pagesUsed y = pagesUsed x && y.flash == x.flash then 0 else 1
    | none => 1
  { s with sq.spans := putBy x.same x s.sq.spans, sq.gen := s.sq.gen + step }

/-- Publish a new entry: a change of STATE, BANK or FIRST_FRAME increments SPAN_GEN, and each publication starts a new
span-table generation (R52). -/
def publish (s : State) (x : Span) : State :=
  let g := match s.sq.spans.find? x.same with
    | some y => if y.state == x.state && y.bank == x.bank && y.frame == x.frame then y.gen else (y.gen + 1) % 65536
    | none => x.gen
  { s with sq.spans := putBy x.same { x with gen := g } s.sq.spans, sq.gen := s.sq.gen + 1 }

/-- Span identity of R7: alias [47:32], layer [31:24], head [23:18], span index [17:4], zero [3:0]. -/
def spanId (a l h i : Nat) : Nat := a * 2 ^ 32 + l * 2 ^ 24 + h * 2 ^ 18 + i * 16

def bankOf (s : State) (b : Nat) : Bank := (s.mem.banks.find? fun x => x.id == b).getD { id := b }
def setBank (s : State) (k : Bank) : State := { s with mem.banks := putBy (fun x => x.id == k.id) k s.mem.banks }
def stackOf (s : State) (n : Nat) : Stack := (s.mem.stks.find? fun x => x.id == n).getD { id := n }
def setStack (s : State) (k : Stack) : State := { s with mem.stks := putBy (fun x => x.id == k.id) k s.mem.stks }

def partOf (s : State) (p : Nat) : Option Partition := s.serv.parts.find? fun x => x.id == p
def mapPart (s : State) (p : Nat) (f : Partition → Partition) : State :=
  { s with serv.parts := mapIf (fun x => x.id == p) f s.serv.parts }

def bankCount : Nat := 9216
def frameCount : Nat := 40960

/-- Node physical address (Table 2-2). -/
def npa (b frame byte : Nat) : Nat := b * 2 ^ 28 + frame * 4096 + byte

/-- OPEN_BASE of R139. -/
def openBase (b : Nat) : Nat := if b < 512 then 2768 else 720

def t1Read (s : State) (b addr n : Nat) : Bytes := memRead s.mem.t1 (npa b 0 addr) n
def t1Write (s : State) (b addr : Nat) (v : Bytes) : State := { s with mem.t1 := memWrite s.mem.t1 (npa b 0 addr) v }

/-- Draw a free value's argument (log entry 3). -/
def State.draw (s : State) : Nat × State := (s.free, { s with free := s.free + 1 })

/-- Draw a free 64-bit value (log entry 3). -/
def State.word (s : State) : Nat × State := let (n, s) := s.draw; ((Config.freeWord n).toNat, s)

/-! ## Error records and events -/

/-- What the configuration part of a save area holds (R568). -/
def cfgSnapshot (s : State) : CfgCopy :=
  { node := s.pw.node, port := s.port.cfg, ptp := s.port.ptp,
    queues := s.port.queues.map fun q => ⟨q.quantum, q.rate, q.burst⟩,
    gclOn := s.port.gclOn, gcl := s.port.gcl, cycle := s.port.cycle, base := s.port.base,
    policers := s.port.policers, stks := (List.range 18).map fun i => (i, (stackOf s i).envelope),
    groups := s.arr.groups.map Group.allowance, appW := s.pw.appW, budget := s.pw.budgetUs, dwell := s.pw.dwellUs,
    passMin := s.hl.passMin, t2Days := s.hl.t2Days, tenants := s.own.tenants, ks := s.sec.ks,
    parts := s.serv.parts.map fun p => { p with mem := [], ring := [] },
    retired := (s.mem.banks.filter Bank.retired).map Bank.id,
    errs := (s.fl.cfg.map CfgCopy.errs).getD [] }

/-- The error records the configuration copy keeps (R525). -/
def errCopied (e : ErrRec) : Bool := decide (e.cls ≠ 0) || e.source == 11

/-- The configuration copy with one more error copy; the newest 4,096 stay (R525). -/
def errCopy (s : State) (e : ErrRec) : CfgCopy :=
  let c := s.fl.cfg.getD (cfgSnapshot s)
  let es := c.errs ++ [e]
  { c with errs := es.drop (es.length - 4096) }

/-- Append an error record (R524, R525), and its copy to the configuration copy, which is never written during a save (R568). -/
def logErr (s : State) (e : ErrRec) : State :=
  let kept := if s.hl.errs.length < 1048576 then s.hl.errs else s.hl.errs.drop 1
  let e : ErrRec := { e with recno := s.hl.nextRec, time := s.now }
  { s with hl.errs := kept ++ [e], hl.nextRec := s.hl.nextRec + 1,
           fl.cfg := if errCopied e && !s.pw.saveAct then some (errCopy s e) else s.fl.cfg }

/-! ## Frames and messages -/

/-- Path-MTU bytes of an IBTA code (Table 16-2). -/
def mtuBytes (code : Nat) : Nat := 2 ^ (7 + code)

/-- The peer of a QP has an IPv4 address: ten zero bytes, then FF FF, then the address. -/
def v4Peer (q : Qp) : Bool := q.peer % 2 ^ 80 == 0 && q.peer / 2 ^ 80 % 65536 == 0xFFFF

/-- Frame count of R459 for an IP/UDP/RoCE packet with `ext` bytes of extended headers and `n` of payload, over IPv4 or IPv6. -/
def roceCount (s : State) (v4 : Bool) (ext n : Nat) : Nat :=
  let vlan := match s.port.cfg with | some c => if c.vlan = 0 then 0 else 4 | none => 0
  let ip := if v4 then 20 else 40
  let sec := match s.port.cfg with | some c => if c.macsecEn then 32 else 0 | none => 0
  max 64 (14 + vlan + ip + 8 + 12 + ext + roundUp n 4 + 4 + 4) + sec

/-- Count of a frame of another kind: Ethernet header, `n` bytes, FCS. -/
def plainCount (s : State) (n : Nat) : Nat :=
  let vlan := match s.port.cfg with | some c => if c.vlan = 0 then 0 else 4 | none => 0
  let sec := match s.port.cfg with | some c => if c.macsecEn then 32 else 0 | none => 0
  max 64 (14 + vlan + n + 4) + sec

/-- Longest single open interval of a queue in the gate control list, across a cycle boundary (R462, R464). -/
def longestOpen (gcl : List Gate) (q : Nat) : Nat :=
  let isOpen := fun (g : Gate) => g.mask.testBit q
  if gcl.all isOpen then sumBy Gate.dur gcl
  else
    ((gcl ++ gcl).foldl (fun (a : Nat × Nat) g =>
      let run := if isOpen g then a.1 + g.dur else 0
      (run, max a.2 run)) (0, 0)).2

/-- Place a frame in the egress queue of its PCP (R460); a frame that no open interval can hold is dropped (R462). -/
def toQueue (s : State) (pcp : Nat) (f : Frame) : State :=
  let upd := fun (g : Queue → Queue) =>
    { s with port.queues := s.port.queues.mapIdx fun i q => if i = pcp then g q else q }
  if s.port.gclOn && s.port.schedOn && decide (f.count * 5 > 1000 * longestOpen s.port.gcl pcp) then
    upd fun q => { q with txDrops := (q.txDrops + 1) % 2 ^ 64 }
  else upd fun q => { q with frames := q.frames ++ [f] }

/-- The node sends an RDMA operation on a connected QP (R21, R451): its packets enter the queue of the QP's PCP and
its acknowledgement is awaited. -/
def send (s : State) (qp : Nat) (op : OutOp) (tag : AckTag) : State :=
  match qpOf s qp with
  | none => s
  | some q =>
    let n := match op with
      | .write _ _ d => max 1 (ceilDiv d.length (mtuBytes q.mtu))
      | .fetchAdd _ _ _ => 1
    let last := (q.txPsn + n - 1) % 2 ^ 24
    let s := mapQp s qp fun q => { q with
      txPsn := (q.txPsn + n) % 2 ^ 24, unacked := q.unacked ++ [⟨op, last, tag⟩] }
    (List.range n).foldl (fun s i =>
      let (ext, len) := match op with
        | .write _ _ d => (if i = 0 then 16 else 0, min (mtuBytes q.mtu) (d.length - i * mtuBytes q.mtu))
        | .fetchAdd _ _ _ => (28, 0)
      toQueue s q.pcp { kind := .request qp ((q.txPsn + i) % 2 ^ 24) op, count := roceCount s (v4Peer q) ext len,
                        dscp := q.tclass }) s

/-- A connected QP. -/
def connected (s : State) (qp : Nat) : Bool :=
  match qpOf s qp with
  | some q => q.state == .connected
  | none => false

/-- The role of a QP's session, until its NOT_AFTER (R377). -/
def liveRole (s : State) (q : Qp) : Option Role :=
  match q.session with
  | some x => if s.now < x.notAfter then some x.role else none
  | none => none

/-- A connected QP of a session of the tenant, or one the node opened for it, until NOT_AFTER (R150, R377, R378, R399). -/
def tenantQp (s : State) (qp t : Nat) : Bool :=
  match qpOf s qp with
  | some q => q.state == .connected &&
      (match liveRole s q with
       | some r => r == .tenant t
       | none => match q.use with
         | .peer u na _ => u == t && decide (s.now < na)
         | _ => false)
  | none => false

/-- Bytes of an event record (Table 14-14). -/
def eventBytes (e : Event) : Bytes :=
  u32 e.eseq ++ u16 e.code ++ u8 e.sev ++ u8 0 ++ u64 e.time ++ cut e.data 0 16

/-- Raise an event (R413, R582): ESEQ, a severity the spec does not state (log entry 13), every subscriber's ring, the sideband queue. -/
def raise (s : State) (code : Nat) (data : Bytes) : State :=
  let e : Event := { eseq := s.nuc.eseq + 1, code := code, sev := (Config.severity code).toNat % 3, time := s.now, data := cut data 0 16 }
  let s := { s with nuc.eseq := e.eseq }
  let full := decide (s.nuc.sbEvents.length ≥ 256)
  let s := { s with nuc.sbEvents := s.nuc.sbEvents.drop (s.nuc.sbEvents.length + 1 - 256) ++ [e],
                    nuc.evLost := s.nuc.evLost || full }
  s.nuc.subs.foldl (fun s u =>
    send s u.qp (.write ((u.addr + 32 * (e.eseq % 2 ^ u.log2)) % 2 ^ 64) u.rkey (eventBytes e)) .plain) s

end Sys2Proof.Machine
end

