-- ==== Sys2Proof/Machine/BankOps.lean ====
section
/-! DEFINITION. What each bank operation reads, writes, costs and refuses: descriptor checks (R101, R102, R107), the fence
(R139 to R142), cycles and charges (Table 4-6), and its effect on the bank (chapter 4). -/

namespace Sys2Proof.Machine

open Sys2Proof

/-- Bytes an operation touches: bank byte address, length, whether it writes them, and whether it may write the
page-side area there (R142). -/
structure Touch where
  addr  : Nat
  len   : Nat
  write : Bool
  side  : Bool
  deriving DecidableEq, Repr

def descKv (d : Desc) : Nat := d.fmt % 4
def descPage (d : Desc) : Nat := pageBytes (descKv d) d.dim
def pageAddr (d : Desc) (p : Nat) : Nat := d.frame * 4096 + p * descPage d

/-- Tag and sketch addresses of the half-frame slot that holds a byte (R40). -/
def tagAddr (a : Nat) : Nat := a / 2048 * 4
def sketchAddr (a : Nat) : Nat := 80 * 4096 + a / 2048 * 32

/-- Element bytes of formats FP32 and BF16 as FMT 0 and 1 name them. -/
def wide (f : Nat) : Nat := if f = 0 then 4 else 2
def wideFmt (f : Nat) : Fmt := if f = 0 then .fp32 else .bf16

/-- Row bytes and scale bytes of DOT_ROWS and DIST_EXACT formats. -/
def dotRowBytes (fmt n : Nat) : Nat := if fmt = 2 then 2 * n else if fmt = 3 then n / 2 else n
def dotScaleBytes (fmt n : Nat) : Nat := if fmt ≥ 3 then n / 32 else 0
def dotFmt (fmt : Nat) : Fmt :=
  if fmt = 0 then .e4m3 else if fmt = 1 then .e5m2 else if fmt = 2 then .bf16 else if fmt = 3 then .mxfp4 else .mxfp8

/-- Operation codes of Table 4-5. -/
def opSpanAttend : Nat := 1
def opSpanQk : Nat := 2
def opSpanPv : Nat := 3
def opTagCheck : Nat := 4
def opTagWrite : Nat := 5
def opSketch : Nat := 6
def opQuant : Nat := 7
def opRope : Nat := 8
def opNormRms : Nat := 9
def opNormLayer : Nat := 10
def opElem : Nat := 11
def opDot : Nat := 12
def opDist : Nat := 13
def opFill : Nat := 14
def opCopy : Nat := 15
def opLoad : Nat := 16
def opStore : Nat := 17

/-- Candidate addresses of a DIST_EXACT from the register list at ARG1 (R121). -/
def candList (k : Bank) (d : Desc) : List Nat :=
  (List.range d.count).map fun i => leNat (memRead k.v (64 * (d.arg1 % 64) + 4 * i) 4)

/-- Pages FIRST to FIRST + COUNT − 1. -/
def descPages (d : Desc) : List Nat := (List.range d.count).map (d.first + ·)

/-- Pages whose tags FILL_ZERO with TAGS writes: those that begin in its frames; of a page longer than they are, the one (R116). -/
def fillPages (d : Desc) : List Nat := (List.range (max 1 (4096 * d.count / descPage d))).map fun i => d.frame * 4096 + i * descPage d

/-- Every byte run the operation reads or writes in its bank. -/
def touches (k : Bank) (opc : Nat) (d : Desc) : List Touch :=
  let rd := fun a n => Touch.mk a n false true
  let wr := fun a n => Touch.mk a n true false
  let pages := (descPages d).map fun p => rd (pageAddr d p) (descPage d)
  let D := headDim d.dim
  let e := kvSize (descKv d)
  match opc with
  | 1 => pages
  | 2 => [rd (pageAddr d d.first) (descPage d)]
  | 3 => [rd (pageAddr d d.first) (descPage d)]
  | 4 => pages
  | 5 => pages ++ (descPages d).map fun p => ⟨tagAddr (pageAddr d p), 4, true, true⟩
  | 6 => [rd (pageAddr d d.first) (descPage d / 2), ⟨sketchAddr (pageAddr d d.first), 32, true, true⟩]
  | 7 => [wr (pageAddr d d.first + d.arg0 * D * e) (d.count * D * e),
          wr (pageAddr d d.first + (16 * D + d.arg0 * D) * e) (d.count * D * e)]
  | 8 => [wr d.arg0 (d.count * d.arg3 * wide d.fmt)]
  | 9 => if d.sub = 2 then [wr d.arg0 (d.arg3 * wide d.fmt), rd d.arg1 (2 * d.arg3)] else [rd d.arg0 (d.arg3 * wide d.fmt)]
  | 10 => if d.sub = 2 then [wr d.arg0 (d.arg3 * wide d.fmt), rd d.arg1 (2 * d.arg3)] ++
            (if d.arg2 = 0xFFFFFFFF then [] else [rd d.arg2 (2 * d.arg3)])
          else [rd d.arg0 (d.arg3 * wide d.fmt)]
  | 11 => [rd d.arg0 (d.arg3 * wide (d.fmt % 4))] ++
          (if d.sub ≤ 1 then [rd d.arg1 (d.arg3 * wide (d.fmt % 4))] else []) ++
          [wr d.arg2 (d.arg3 * wide (d.fmt / 4))]
  | 12 => [rd d.arg0 (d.count * dotRowBytes d.fmt d.arg3)] ++
          (if d.fmt ≥ 3 then [rd d.arg1 (d.count * dotScaleBytes d.fmt d.arg3)] else []) ++
          (if d.arg2 = 0xFFFFFFFF then [] else [wr d.arg2 (4 * d.count)])
  | 13 => (candList k d).map fun a => rd a (dotRowBytes d.fmt d.arg0 + dotScaleBytes d.fmt d.arg0)
  | 14 => [wr (d.frame * 4096) (4096 * d.count)] ++
          (if d.sub % 2 = 1 then (fillPages d).map fun a => ⟨tagAddr a, 4, true, true⟩ else [])
  | 15 => [rd (d.arg0 * 4096) 4096, wr (d.arg1 * 4096) 4096]
  | 16 => if d.sub = 1 then [rd d.arg0 (64 * d.count)] else []
  | 17 => if d.sub = 1 then [wr d.arg0 (64 * d.count)] else []
  | _ => []

/-- Distinct 2 KiB DRAM rows of the runs. -/
def rowCount (ts : List Touch) : Nat :=
  (distinct (ts.flatMap fun t => if t.len = 0 then [] else
    (List.range ((t.addr + t.len - 1) / 2048 + 1 - t.addr / 2048)).map (t.addr / 2048 + ·))).length

/-- Field limits of Table 4-5 that the sequencer holds (RANGE). -/
def limitsOk (opc : Nat) (d : Desc) : Bool :=
  let pagesOk := decide (1 ≤ d.count ∧ d.count ≤ 64 ∧ d.first + d.count ≤ 64)
  let headsOk := decide (1 ≤ d.heads ∧ d.heads ≤ 16 ∧ d.heads * headDim d.dim ≤ 2048)
  match opc with
  | 1 => pagesOk && headsOk
  | 2 | 3 => pagesOk && headsOk && d.count == 1
  | 4 | 5 => pagesOk
  | 6 => decide (d.first ≤ 63 ∧ 1 ≤ d.arg2 ∧ d.arg2 ≤ 16)
  | 7 => decide (d.first ≤ 63 ∧ 1 ≤ d.count ∧ d.arg0 ≤ 15 ∧ d.arg0 + d.count ≤ 16)
  | 8 => decide (1 ≤ d.count ∧ d.count ≤ 16 ∧ 2 ≤ d.arg3 ∧ d.arg3 ≤ 256 ∧ d.arg3 % 2 = 0 ∧
           d.count * d.arg3 * 4 + 64 * d.vreg ≤ 4096)
  | 9 | 10 => decide (d.arg3 % 16 = 0 ∧ 0 < d.arg3 ∧ d.vreg ≤ 63)
  | 11 => decide (0 < d.arg3)
  | 12 => decide (1 ≤ d.count ∧ d.count ≤ 64 ∧ 1 ≤ d.arg3 ∧ d.arg3 ≤ 2048 ∧ 64 * d.vreg + 2 * d.arg3 ≤ 4096) &&
          (decide (d.fmt < 3) || decide (d.arg3 % 32 = 0))
  | 13 => decide (1 ≤ d.count ∧ d.count ≤ 32 ∧ 1 ≤ d.arg0 ∧ 64 * d.vreg + 2 * d.arg0 ≤ 4096 ∧
           64 * (d.arg1 % 64) + 4 * d.count ≤ 4096) && (decide (d.fmt < 3) || decide (d.arg0 % 32 = 0))
  | 14 => decide (1 ≤ d.count ∧ d.count ≤ 2)
  | 15 => decide (d.count = 1)
  | 16 => if d.sub = 2 then decide (d.vreg = 0 ∧ d.count = 0)
          else decide (1 ≤ d.count ∧ d.count ≤ 64 ∧ d.vreg + d.count ≤ 64) && (d.sub != 1 || decide (d.arg0 % 64 = 0))
  | 17 => if d.sub = 2 then headsOk
          else decide (1 ≤ d.count ∧ d.count ≤ 64 ∧ d.vreg + d.count ≤ 64)
  | _ => true

/-- Undefined codes and enumeration values, reserved fields, and fields the operation does not use (R101, R102). -/
def descBad (opc : Nat) (d : Desc) : Bool :=
  let dimBad := decide (d.dim > 2)
  let kvBad := decide (d.fmt % 4 = 3)
  let f0 := fun (xs : List Nat) => xs.any (· != 0)
  d.rsvd || decide (d.optag ≥ 2 ^ 32) ||
  match opc with
  | 1 | 2 | 3 => dimBad || kvBad || decide (d.fmt ≥ 8) || decide (d.mask > 2) || decide (d.sub > 3) || f0 [d.pent] ||
      (d.mask == 0 && d.arg2 != 0) || (opc == 3 && d.vreg != 0)
  | 4 | 5 => dimBad || kvBad || f0 [d.fmt / 4, d.sub, d.heads, d.mask, d.vreg, d.pent, d.arg0, d.arg1, d.arg2, d.arg3]
  | 6 => dimBad || kvBad || f0 [d.fmt / 4, d.sub, d.count, d.heads, d.mask, d.vreg, d.pent, d.arg3]
  | 7 => dimBad || kvBad || f0 [d.fmt / 4, d.sub, d.heads, d.mask, d.vreg, d.pent, d.arg1, d.arg2, d.arg3]
  | 8 => decide (d.fmt > 1) || decide (d.sub > 1) ||
      f0 [d.frame, d.first, d.heads, d.dim, d.mask, d.pent, d.arg1, d.arg2]
  | 9 => decide (d.fmt > 1) || !(d.sub == 1 || d.sub == 2) ||
      f0 [d.frame, d.first, d.count, d.heads, d.dim, d.mask, d.pent, d.arg2]
  | 10 => decide (d.fmt > 1) || decide (d.sub > 2) || f0 [d.frame, d.first, d.count, d.heads, d.dim, d.mask, d.pent]
  | 11 => decide (d.fmt % 4 > 1) || decide (d.fmt / 4 > 1) || decide (d.sub > 5) ||
      f0 [d.frame, d.first, d.count, d.heads, d.dim, d.mask, d.vreg, d.pent] || (decide (d.sub ≥ 3) && d.arg1 != 0)
  | 12 => decide (d.fmt > 4) || f0 [d.sub, d.frame, d.first, d.heads, d.dim, d.mask, d.pent] ||
      (decide (d.fmt < 3) && d.arg1 != 0)
  | 13 => decide (d.fmt > 4) || decide (d.sub > 1) ||
      f0 [d.frame, d.first, d.heads, d.dim, d.mask, d.pent, d.arg1 / 64, d.arg2, d.arg3]
  | 14 => decide (d.sub > 1) || f0 [d.first, d.heads, d.mask, d.vreg, d.pent, d.arg0, d.arg1, d.arg2, d.arg3] ||
      (if d.sub = 1 then dimBad || kvBad || d.fmt / 4 != 0 else f0 [d.dim, d.fmt])
  | 15 => f0 [d.sub, d.fmt, d.frame, d.first, d.heads, d.dim, d.mask, d.vreg, d.pent, d.arg2, d.arg3]
  | 16 => decide (d.sub > 2) ||
      f0 [d.fmt, d.frame, d.first, d.heads, d.dim, d.mask, d.pent, d.arg1, d.arg2, d.arg3] || (d.sub != 1 && d.arg0 != 0)
  | 17 => decide (d.sub > 2) || f0 [d.fmt, d.frame, d.first, d.mask, d.arg1, d.arg2, d.arg3] ||
      (d.sub != 1 && d.arg0 != 0) ||
      (if d.sub = 2 then dimBad || f0 [d.vreg, d.count] else f0 [d.heads, d.dim, d.pent])
  | _ => true

/-- Fault codes of Table 4-9. -/
def fNone : Nat := 0
def fTag : Nat := 1
def fEcc : Nat := 2
def fFence : Nat := 3
def fRange : Nat := 4
def fBad : Nat := 5
def fParity : Nat := 6

/-- A run that leaves the bank. -/
def outside (t : Touch) : Bool := decide (t.addr + t.len > frameCount * 4096)

/-- A run with a fenced frame: between 720 and OPEN_BASE − 1, or from SEAL_BASE up (R140). -/
def fenced (k : Bank) (t : Touch) : Bool :=
  let a := t.addr / 4096
  let b := (t.addr + t.len - 1) / 4096
  decide (max a 720 ≤ b ∧ max a 720 < openBase k.id) || decide (k.sealBase ≤ b)

/-- A write of the page-side area by an operation that may not write there (R142). -/
def sideWrite (t : Touch) : Bool := t.write && !t.side && decide (t.addr / 4096 < 720)

/-- The sequencer's checks before issue, then the die's (R102, R125, R140, R142). -/
def preFault (k : Bank) (opc : Nat) (d : Desc) : Nat :=
  let ts := (touches k opc d).filter fun t => t.len != 0
  if !limitsOk opc d || ts.any outside then fRange
  else if ts.any (fenced k) then fFence
  else if ts.any sideWrite then fRange
  else if descBad opc d then fBad
  else fNone

/-- FPAGE of a fault raised before issue: the first page of the run at which it arises; 0 where it arises at no page (R104; log entry
99). -/
def preFaultPage (k : Bank) (opc : Nat) (d : Desc) : Nat :=
  if opc < 1 || opc > 7 || !limitsOk opc d then 0
  else
    let ps := if opc = 6 || opc = 7 then [d.first] else descPages d
    let bad := fun (t : Touch) => t.len != 0 && (outside t || fenced k t || sideWrite t)
    let one := fun (p : Nat) => if opc = 7 then d else { d with first := p, count := if opc = 6 then 0 else 1 }
    (ps.find? fun p => (touches k opc (one p)).any bad).getD 0

/-- Stream cycles S of Table 4-6; a fraction of a cycle counts as one (log entry 97). -/
def streamCycles (k : Bank) (opc : Nat) (d : Desc) : Nat :=
  let P := descPage d
  let g := ceilDiv d.heads 8
  match opc with
  | 1 => ceilDiv (g * d.count * P) 16
  | 2 | 3 => ceilDiv (g * P) 32
  | 4 | 5 => ceilDiv (d.count * P) 16 + ceilDiv d.count 4
  | 6 => ceilDiv P 32 + 2
  | 7 => ceilDiv (d.count * headDim d.dim) 2 + ceilDiv (d.count * headDim d.dim * kvSize (descKv d)) 8
  | 8 => ceilDiv (2 * d.count * d.arg3 * wide d.fmt) 16
  | 9 | 10 =>
    if d.sub = 2 then
      ceilDiv (2 * d.arg3 * wide d.fmt + 2 * d.arg3 + (if opc = 10 && d.arg2 != 0xFFFFFFFF then 2 * d.arg3 else 0)) 16
    else ceilDiv (d.arg3 * wide d.fmt) 16
  | 11 => ceilDiv (sumBy Touch.len (touches k opc d)) 16
  | 12 => ceilDiv (d.count * (dotRowBytes d.fmt d.arg3 + dotScaleBytes d.fmt d.arg3)) 16 + ceilDiv d.count 4
  | 13 => ceilDiv (d.count * (dotRowBytes d.fmt d.arg0 + dotScaleBytes d.fmt d.arg0)) 16 + ceilDiv d.count 4
  | 14 => 256 * d.count + d.sub % 2
  | 15 => 512
  | 16 => if d.sub = 2 then 0 else 4 * d.count
  | 17 => if d.sub = 2 then ceilDiv (8 * d.heads + 4 * d.heads * headDim d.dim) 16 else 4 * d.count
  | _ => 0

/-- Energy charge w × S in pJ (R134). -/
def chargeOf (k : Bank) (opc : Nat) (d : Desc) : Nat :=
  let w := match opc with
    | 1 | 2 | 3 | 8 | 12 | 13 => 130
    | 4 => 95
    | 5 => 100
    | 6 => 110
    | 7 => 150
    | 9 | 10 | 11 => 125
    | 14 => 90
    | 15 => 120
    | 16 => if d.sub = 0 then 60 else 100
    | 17 => if d.sub = 1 then 100 else 60
    | _ => 0
  w * streamCycles k opc d

/-- Bit 0 of the NORM block's flags says that μ and the normaliser have been computed (log entry 98). -/
def normReady (blk : Bytes) : Bool := flagAt blk 24 0

/-- BNK cycles 8 + 30 A + S + X, with `m` merges (Table 4-6). -/
def cyclesOf (k : Bank) (opc : Nat) (d : Desc) (m : Nat) : Nat :=
  let P := descPage d
  let H := d.heads
  let c := ceilDiv (H * headDim d.dim) 128
  let a := match opc with
    | 1 => d.count * max 1 (P / 2048)
    | 2 | 3 => max 1 (P / 4096)
    | 4 | 5 => d.count * max 1 (P / 2048) + 1
    | 6 => max 1 (P / 4096) + 1
    | 13 => d.count
    | 14 => 2 * d.count + d.sub % 2
    | 15 => 4
    | 12 => rowCount ((touches k opc d).filter fun t => !t.write)
    | _ => rowCount (touches k opc d)
  let x := match opc with
    | 1 => d.count * (16 + H) + m * (4 + c)
    | 2 => 16 + H
    | 3 => m * (4 + c)
    | 6 => 2 * headDim d.dim
    | 9 | 10 => if d.sub = 2 && !normReady (memRead k.v (64 * d.vreg) 64) then 24 else 0
    | 12 => 4
    | 13 => 16
    | 16 => if d.sub = 2 then 290 else 0
    | _ => 0
  8 + 30 * a + streamCycles k opc d + x

/-! ## Effects -/

/-- What running an operation on the die gives: the bank and T1 after it, fault, page, channel bytes, merges. -/
structure BauRes where
  bank  : Bank
  mem   : Mem
  fault : Nat := 0
  fpage : Nat := 0
  chan  : Bytes := []
  merges : Nat := 0
  deriving DecidableEq, Repr

def rdMem (m : Mem) (b addr n : Nat) : Bytes := memRead m (npa b 0 addr) n
def wrMem (m : Mem) (b addr : Nat) (v : Bytes) : Mem := memWrite m (npa b 0 addr) v

/-- Every partial-store entry absent and the pass ended, as after every fault (R99, R125). -/
def bauFaulted (k : Bank) : Bank :=
  { k with parts := k.parts.map fun e => { e with present := false }, pass := none, p7 := none }

/-- CLEAR: every register, entry and buffer zero, every PRESENT flag clear (R123). -/
def bauClear (k : Bank) : Bank :=
  { k with v := [], parts := List.replicate 8 {}, score := none, wbuf := [], cbuf := [], clear := false, p7 := none }

/-- Query heads of a span operation from the V registers (R98); bytes beyond V63 read 0 (log entry 97). -/
def queryHeads (k : Bank) (d : Desc) : List (List FVal) :=
  let D := headDim d.dim
  let f : Fmt := if d.fmt / 4 % 2 = 1 then .e4m3 else .bf16
  let e := fmtBits f / 8
  let els := elemVals f (memRead k.v (64 * d.vreg) (d.heads * D * e))
  (List.range d.heads).map fun h => (els.drop (h * D)).take D

/-- Rows of page `p` that the mask leaves visible (R111). -/
def descVis (d : Desc) (p r : Nat) : Bool := visible d.mask d.arg1 d.arg2 d.arg3 (d.arg0 + 16 * p + r)

/-- The page's tag check (R56). -/
def tagOk (m : Mem) (b : Nat) (d : Desc) (p : Nat) : Bool :=
  leNat (rdMem m b (tagAddr (pageAddr d p)) 4) == crc32c (rdMem m b (pageAddr d p) (descPage d))

/-- The leaf of page `p`: one partial per head, absent where no row is visible. -/
def descLeaf (m : Mem) (k : Bank) (d : Desc) (p : Nat) : Option (List Part) :=
  if (List.range 16).any (descVis d p) then
    let els := elemVals (kvFmt (descKv d)) (rdMem m k.id (pageAddr d p) (descPage d))
    some ((queryHeads k d).map fun q => (pagePartial (headDim d.dim) els (descVis d p) q).getD (absentPart (headDim d.dim)))
  else none

/-- The first page of a run with a fault: a parity error, an uncorrectable word or a tag mismatch. -/
def pageFault (m : Mem) (b : Nat) (d : Desc) (e : OpEnv) (tags : Bool) : Option (Nat × Nat) :=
  (descPages d).findSome? fun p =>
    if e.parity == some p then some (fParity, p)
    else if e.ue == some p then some (fEcc, p)
    else if tags && !tagOk m b d p then some (fTag, p) else none

/-- Entries and loop index at the start of a pass operation. One without START in a bank with no pass in progress goes on from index 0
with the entries as they stand (log entry 97). -/
def passStart (k : Bank) (d : Desc) : List Entry × Nat :=
  if d.sub % 2 = 1 then (k.parts.mapIdx fun i e => if i < 7 then { e with present := false } else e, 0)
  else (k.parts, match k.pass with | some p => p.next | none => 0)

/-- Carry the loop of R112 over absent pages to FIRST, over the given leaves, and on FINAL to 63; P6 keeps the page in hand. -/
def passCarry (k : Bank) (tenant : Nat) (d : Desc) (leaves : List (Option (List Part))) : Bank × Nat :=
  let (ps, i) := passStart k d
  let fin := decide (d.sub / 2 % 2 = 1)
  let run := List.replicate (d.first - i) none ++ leaves
  let run := if fin then run ++ List.replicate (64 - (i + run.length)) none else run
  let (ps, m) := carryAll i run ps
  let ps := match leaves.getLast? with
    | some x => ps.set 6 ⟨x.isSome, x.getD []⟩
    | none => ps
  ({ k with parts := ps, pass := if fin then none else some ⟨tenant, d.first + d.count⟩,
            p7 := if fin then some tenant else k.p7 }, m)

def execSpan (m : Mem) (k : Bank) (tenant : Nat) (d : Desc) (e : OpEnv) : BauRes :=
  match pageFault m k.id d e true with
  | some (f, p) => { bank := bauFaulted k, mem := m, fault := f, fpage := p }
  | none =>
    let (k', n) := passCarry k tenant d ((descPages d).map (descLeaf m k d))
    { bank := k', mem := m, merges := n }

/-- SPAN_QK: scores and weights of the page into the score buffer (R115). -/
def execQk (m : Mem) (k : Bank) (tenant : Nat) (d : Desc) (e : OpEnv) : BauRes :=
  match pageFault m k.id d e false with
  | some (f, p) => { bank := bauFaulted k, mem := m, fault := f, fpage := p }
  | none =>
    let D := headDim d.dim
    let page := rdMem m k.id (pageAddr d d.first) (descPage d)
    let els := elemVals (kvFmt (descKv d)) page
    let ws := if (List.range 16).any (descVis d d.first) then
        (queryHeads k d).map fun q => (pageWeights (pageScores D els (descVis d d.first) q)).getD (nan32, [])
      else []
    let (ps, i) := passStart k d
    { bank := { k with parts := ps, pass := some ⟨tenant, i⟩,
                       score := some ⟨ws.map Prod.fst, ws.map Prod.snd, crc32c (page.take (descPage d / 2))⟩ },
      mem := m }

/-- SPAN_PV: weighted values from the score buffer, the tag check, then the span pass (R115). START is looked at on SPAN_QK only, and
FINAL here only (log entry 97). -/
def execPv (m : Mem) (k : Bank) (tenant : Nat) (d : Desc) (e : OpEnv) : BauRes :=
  match pageFault m k.id d e true with
  | some (f, p) => { bank := bauFaulted k, mem := m, fault := f, fpage := p }
  | none =>
    let D := headDim d.dim
    let els := elemVals (kvFmt (descKv d)) (rdMem m k.id (pageAddr d d.first) (descPage d))
    let sc := k.score.getD ⟨[], [], 0⟩
    let leaf := if sc.ms.isEmpty then none
      else some (List.zipWith (fun mx ps => if isNan mx then nanPart D else pageValues D els mx ps) sc.ms sc.ps)
    let (k', n) := passCarry k tenant { d with sub := d.sub / 2 * 2 } [leaf]
    { bank := { k' with score := none }, mem := m, merges := n }

def execTagWrite (m : Mem) (k : Bank) (d : Desc) (e : OpEnv) : BauRes :=
  let good := match pageFault m k.id d e false with | some (_, p) => p - d.first | none => d.count
  let m' := ((descPages d).take good).foldl (fun m p =>
    wrMem m k.id (tagAddr (pageAddr d p)) (u32 (crc32c (rdMem m k.id (pageAddr d p) (descPage d))))) m
  match pageFault m k.id d e false with
  | some (f, p) => { bank := bauFaulted k, mem := m', fault := f, fpage := p }
  | none => { bank := k, mem := m' }

def execTagCheck (m : Mem) (k : Bank) (d : Desc) (e : OpEnv) : BauRes :=
  match pageFault m k.id d e true with
  | some (f, p) => { bank := bauFaulted k, mem := m, fault := f, fpage := p }
  | none => { bank := k, mem := m }

def execSketch (m : Mem) (k : Bank) (d : Desc) (e : OpEnv) : BauRes :=
  if e.ue.isSome then { bank := bauFaulted k, mem := m, fault := fEcc, fpage := d.first }
  else
    let a := pageAddr d d.first
    let sk := pageSketch (descKv d) d.dim d.arg2 (d.arg0 + 2 ^ 32 * d.arg1) (rdMem m k.id a (descPage d))
    { bank := k, mem := wrMem m k.id (sketchAddr a) (leBytes 32 sk) }

/-- QUANT_STORE: rows of D key and D value FP32 elements, converted under R77 and placed under R46 (R117). -/
def execQuant (m : Mem) (k : Bank) (d : Desc) (chan : Bytes) : BauRes :=
  let D := headDim d.dim
  let e := kvSize (descKv d)
  let f := kvFmt (descKv d)
  let a := pageAddr d d.first
  let m' := (List.range d.count).foldl (fun m i =>
    let row := cut chan (8 * D * i) (8 * D)
    let enc := elemBytes f ((elemCodes .fp32 row).map fun c => narrow f (BitVec.ofNat 32 c))
    let r := d.arg0 + i
    wrMem (wrMem m k.id (a + r * D * e) (enc.take (D * e))) k.id (a + (16 * D + r * D) * e) (enc.drop (D * e))) m
  { bank := { k with wbuf := cut chan (8 * D * (d.count - 1)) 512 }, mem := m' }

/-- A row of FP32 or BF16 elements widened, and its bytes narrowed again. -/
def rdRow (m : Mem) (b addr n f : Nat) : List F32 :=
  (elemCodes (wideFmt f) (rdMem m b addr (n * wide f))).map (widen (wideFmt f))
def rowBytes (f : Nat) (xs : List F32) : Bytes := elemBytes (wideFmt f) (xs.map (narrow (wideFmt f)))

def execRope (m : Mem) (k : Bank) (d : Desc) : BauRes :=
  let n := d.arg3
  let w := wide d.fmt
  let m' := (List.range d.count).foldl (fun m r =>
    let cs := (List.range (n / 2)).map fun i =>
      let o := 64 * d.vreg + (r * (n / 2) + i) * 8
      (BitVec.ofNat 32 (leNat (memRead k.v o 4)), BitVec.ofNat 32 (leNat (memRead k.v (o + 4) 4)))
    wrMem m k.id (d.arg0 + r * n * w) (rowBytes d.fmt (ropeRow d.sub cs (rdRow m k.id (d.arg0 + r * n * w) n d.fmt)))) m
  { bank := k, mem := m' }

/-- The NORM accumulator block (R119). -/
structure NormBlk where
  sum : F32
  ss  : F32
  n   : Nat
  eps : F32
  mu  : F32
  r   : F32
  ready : Bool
  deriving DecidableEq, Repr

def normRead (b : Bytes) : NormBlk :=
  let f := fun o => BitVec.ofNat 32 (fld b o 4)
  ⟨f 0, f 4, fld b 8 4, f 12, f 16, f 20, normReady b⟩

def normBytes (x : NormBlk) : Bytes :=
  let f := fun (v : F32) => u32 v.toNat
  f x.sum ++ f x.ss ++ u32 x.n ++ f x.eps ++ f x.mu ++ f x.r ++ u32 (if x.ready then 1 else 0)

/-- NORM_RMS and NORM_LAYER (R119, R90). -/
def execNorm (m : Mem) (k : Bank) (layer : Bool) (d : Desc) : BauRes :=
  let blk := normRead (memRead k.v (64 * d.vreg) 64)
  let xs := rdRow m k.id d.arg0 d.arg3 d.fmt
  let put := fun (x : NormBlk) => { k with v := memWrite k.v (64 * d.vreg) (normBytes x) }
  let mean := fdiv blk.sum (ofNat32 blk.n)
  if d.sub = 0 then
    { bank := put { blk with sum := dotFrom blk.sum (xs.map dec32) (List.replicate xs.length one) }, mem := m }
  else if d.sub = 1 then
    let ys := (if layer then xs.map fun x => fsub x mean else xs).map dec32
    { bank := put { blk with ss := dotFrom blk.ss ys ys }, mem := m }
  else
    let blk := if blk.ready then blk
      else { blk with mu := if layer then mean else blk.mu, r := rmsNormaliser blk.ss blk.eps blk.n, ready := true }
    let gains := rdRow m k.id d.arg1 d.arg3 1
    let bias := rdRow m k.id d.arg2 d.arg3 1
    let ys := xs.mapIdx fun i x =>
      let y := fmul (fmul (if layer then fsub x blk.mu else x) blk.r) (gains.getD i 0#32)
      if layer && d.arg2 != 0xFFFFFFFF then fadd y (bias.getD i 0#32) else y
    { bank := { k with v := memWrite k.v (64 * d.vreg) (normBytes blk) },
      mem := wrMem m k.id d.arg0 (rowBytes d.fmt ys) }

def execElem (m : Mem) (k : Bank) (d : Desc) : BauRes :=
  let a := rdRow m k.id d.arg0 d.arg3 (d.fmt % 4)
  let b := if d.sub ≤ 1 then rdRow m k.id d.arg1 d.arg3 (d.fmt % 4)
    else List.replicate d.arg3 (BitVec.ofNat 32 d.arg1)
  { bank := k, mem := wrMem m k.id d.arg2 (rowBytes (d.fmt / 4) (List.zipWith (elemFn d.sub) a b)) }

/-- Values of a stored row or vector under its format, with its scale bytes for the MX formats. -/
def dotVals (fmt n : Nat) (els scales : Bytes) : List FVal :=
  if fmt ≥ 3 then (mxVals (dotFmt fmt) els scales).take n else (elemVals (dotFmt fmt) els).take n

/-- The BF16 vector at VREG. -/
def vecAt (k : Bank) (vreg n : Nat) : List FVal := elemVals .bf16 (memRead k.v (64 * vreg) (2 * n))

def execDot (m : Mem) (k : Bank) (d : Desc) : BauRes :=
  let n := d.arg3
  let rb := dotRowBytes d.fmt n
  let sb := dotScaleBytes d.fmt n
  let out := (List.range d.count).flatMap fun r =>
    u32 (dot (dotVals d.fmt n (rdMem m k.id (d.arg0 + r * rb) rb) (rdMem m k.id (d.arg1 + r * sb) sb))
      (vecAt k d.vreg n)).toNat
  if d.arg2 = 0xFFFFFFFF then { bank := k, mem := m, chan := out }
  else { bank := k, mem := wrMem m k.id d.arg2 out }

def execDist (m : Mem) (k : Bank) (d : Desc) : BauRes :=
  let n := d.arg0
  let rb := dotRowBytes d.fmt n
  let sb := dotScaleBytes d.fmt n
  { bank := k, mem := m,
    chan := (candList k d).flatMap fun a =>
      u32 (distOf d.sub (dotVals d.fmt n (rdMem m k.id a rb) (rdMem m k.id (a + rb) sb)) (vecAt k d.vreg n)).toNat }

def execFill (m : Mem) (k : Bank) (d : Desc) : BauRes :=
  let m := memZero m (npa k.id d.frame 0) (4096 * d.count)
  let m := if d.sub % 2 = 1 then
      (fillPages d).foldl (fun m a => wrMem m k.id (tagAddr a) (u32 (crc32c (zeros (descPage d))))) m
    else m
  { bank := k, mem := m }

def execCopy (m : Mem) (k : Bank) (d : Desc) : BauRes :=
  let f := rdMem m k.id (d.arg0 * 4096) 4096
  { bank := { k with cbuf := f.drop 2048 }, mem := wrMem m k.id (d.arg1 * 4096) f }

def execLoad (m : Mem) (k : Bank) (d : Desc) (chan : Bytes) : BauRes :=
  if d.sub = 2 then { bank := bauClear k, mem := m }
  else
    let v := if d.sub = 0 then cut chan 0 (64 * d.count) else rdMem m k.id d.arg0 (64 * d.count)
    { bank := { k with v := memWrite k.v (64 * d.vreg) v }, mem := m }

/-- Bytes of a partial-store entry for H heads: M and L of each head, then every O (Table 4-2). -/
def entryBytes (H D : Nat) (hs : List Part) : Bytes :=
  let p := fun h => hs.getD h ⟨0#32, 0#32, []⟩
  (List.range H).flatMap (fun h => u32 (p h).m.toNat ++ u32 (p h).l.toNat) ++
  (List.range H).flatMap fun h => (List.range D).flatMap fun d => u32 ((p h).o.getD d 0#32).toNat

def execStore (m : Mem) (k : Bank) (d : Desc) : BauRes :=
  if d.sub = 2 then
    let e := k.parts.getD d.pent {}
    { bank := { k with p7 := if d.pent = 7 then none else k.p7 }, mem := m, chan := entryBytes d.heads (headDim d.dim) e.heads }
  else
    let v := memRead k.v (64 * d.vreg) (64 * d.count)
    if d.sub = 0 then { bank := k, mem := m, chan := v } else { bank := k, mem := wrMem m k.id d.arg0 v }

/-- Operations that can raise STORE_PARITY, and those that can meet ECC_UE outside a page run (Table 4-6). -/
def parityOps : List Nat := [8, 9, 10, 11, 12, 13, 17]
def eccOps : List Nat := [8, 9, 10, 11, 12, 13, 15, 16]

/-- The die runs an operation that passed the checks, with no fault but those of its pages. -/
def bauWork (m : Mem) (k : Bank) (op : QOp) (e : OpEnv) : BauRes :=
  let d := op.desc
  match op.opc with
  | 1 => execSpan m k op.tenant d e
  | 2 => execQk m k op.tenant d e
  | 3 => execPv m k op.tenant d e
  | 4 => execTagCheck m k d e
  | 5 => execTagWrite m k d e
  | 6 => execSketch m k d e
  | 7 => execQuant m k d op.chan
  | 8 => execRope m k d
  | 9 => execNorm m k false d
  | 10 => execNorm m k true d
  | 11 => execElem m k d
  | 12 => execDot m k d
  | 13 => execDist m k d
  | 14 => execFill m k d
  | 15 => execCopy m k d
  | 16 => execLoad m k d op.chan
  | 17 => execStore m k d
  | _ => { bank := bauFaulted k, mem := m, fault := fBad }

/-- T1 with the first `n` bytes that the operation writes: `full` is T1 after all of them (R125). -/
def wrotePart (m full : Mem) (b : Nat) : List Touch → Nat → Mem
  | [], _ => m
  | t :: ts, n =>
    if t.write then wrotePart (wrMem m b t.addr ((rdMem full b t.addr t.len).take n)) full b ts (n - t.len)
    else wrotePart m full b ts n

/-- The die runs an operation; where it meets a parity error or an uncorrectable word outside a page run, the bytes written before
stay and it writes no more (R125). FPAGE of a DIST_EXACT, which has no pages, is the number of the candidate (log entry 99). -/
def bauExec (m : Mem) (k : Bank) (op : QOp) (e : OpEnv) : BauRes :=
  let d := op.desc
  let r := bauWork m k op (if op.opc ≤ 3 then e else { e with parity := none })
  let cutOff := fun (fault n : Nat) =>
    let v := if op.opc = opLoad then memWrite k.v (64 * d.vreg) ((memRead r.bank.v (64 * d.vreg) (64 * d.count)).take n) else k.v
    ({ bank := { bauFaulted k with v := v }, mem := wrotePart m r.mem k.id (touches k op.opc d) n, fault := fault,
       fpage := if op.opc = opDist then n % 64 else 0 } : BauRes)
  let ue := if eccOps.contains op.opc && !(op.opc == 16 && d.sub != 1) then e.ue else none
  match (if parityOps.contains op.opc then e.parity else none), ue with
  | some n, some u => if n ≤ u then cutOff fParity n else cutOff fEcc u
  | some n, none => cutOff fParity n
  | none, some u => cutOff fEcc u
  | none, none => r

/-- Run an operation: the sequencer's and the die's refusals, else the BAU's work, with its outcome record. The cycles of an operation
that ends in a fault are a free value (log entry 88). -/
def runOp (m : Mem) (k : Bank) (op : QOp) (e : OpEnv) : BauRes × BankOut :=
  let pre := preFault k op.opc op.desc
  let early := (Config.freeWord op.order).toNat % 801
  if pre != 0 then
    ({ bank := bauFaulted k, mem := m, fault := pre }, ⟨pre, preFaultPage k op.opc op.desc, early, op.desc.optag, []⟩)
  else
    let r := bauExec m k op e
    let n := if r.fault = 0 then cyclesOf k op.opc op.desc r.merges % 65536 else early
    (r, ⟨r.fault, r.fpage, n, op.desc.optag, r.chan⟩)

end Sys2Proof.Machine
end

