-- ==== Sys2Proof/Machine/Errors.lean ====
section
/-! DEFINITION. Errors met in storage: correction events and buckets (R519 to R521), uncorrectable frames (R522, R523),
retirement triggers (R530). -/

namespace Sys2Proof.Machine

open Sys2Proof

/-- 24 h in ns, the sliding window of R530 and R532. -/
def day : Nat := 86400 * 10 ^ 9

def recent (s : State) (t : Nat) : Bool := decide (s.now < t + day)

/-- Global channel of a bank (R37). -/
def channelOf (b : Nat) : Nat := b / 16

/-- A trigger of Table 18-6 sets banks to retire; banks retired or already retiring are left out (R531). -/
def trigger (s : State) (t : Nat) (banks : List Nat) : State :=
  let new := banks.filter fun b => !(bankOf s b).retired && !(s.hl.retiring.any fun x => x.bank == b)
  { s with hl.retiring := s.hl.retiring ++ new.map fun b => ⟨b, t, s.now⟩ }

/-- Training or mode-register access fails in stacks that have left self-refresh: triggers 5 and 6 (R66, R530). -/
def trainFail (s : State) (t : Train) (woke : Nat → Bool) : State :=
  let s := (t.dies.filter fun d => woke (d / 16)).foldl (fun s d => trigger s 6 ((List.range 32).map fun i => d * 32 + i)) s
  (t.channels.filter fun c => woke (c / 32)).foldl (fun s c => trigger s 5 ((List.range 16).map fun i => c * 16 + i)) s

/-- Add one event to a bucket of the given capacity; the new level and whether it overflowed (R521). -/
def bucketAdd (cap after level : Nat) : Nat × Bool := if level + 1 ≥ cap then (after, true) else (level + 1, false)

def channelLevel (s : State) (c : Nat) : Nat := ((s.hl.chBuckets.find? fun p => p.1 == c).map Prod.snd).getD 0
def setChannelLevel (s : State) (c n : Nat) : State :=
  { s with hl.chBuckets := (s.hl.chBuckets.filter fun p => p.1 != c) ++ (if n = 0 then [] else [(c, n)]) }

/-- An overflow: ERROR_RATE, the window of overflows, and triggers 1 and 4 (R521, R530). -/
def overflow (s : State) (channel : Bool) (id : Nat) : State :=
  let s := raise s 9 (u16 id ++ u8 (if channel then 1 else 0))
  let s := { s with hl.overflows := s.hl.overflows ++ [⟨s.now, channel, id⟩] }
  let n := (s.hl.overflows.filter fun o => o.channel == channel && o.id == id && recent s o.time).length
  if n ≥ 3 then
    if channel then trigger s 4 ((List.range 16).map fun i => id * 16 + i) else trigger s 1 [id]
  else s

/-- The first correction in a frame since it was last written (R520): a CORRECTED record and both buckets. -/
def correctionEvent (s : State) (b frame source symbols requester : Nat) : State :=
  let a := npa b frame 0
  if s.hl.events.contains a then s
  else
    let s := { s with hl.events := s.hl.events ++ [a], hl.ceTotal := s.hl.ceTotal + 1 }
    let s := logErr s { recno := 0, time := 0, cls := 0, source := source, requester := requester,
                        symbols := symbols, loc := a }
    let k := bankOf s b
    let (lv, ov) := bucketAdd 256 128 k.bucket
    let s := setBank s { k with bucket := lv }
    let s := if ov then overflow s false b else s
    let c := channelOf b
    let (lv, ov) := bucketAdd 1024 512 (channelLevel s c)
    let s := setChannelLevel s c lv
    if ov then overflow s true c else s

/-- The frame is written whole: a later correction in it is a new event (R520). -/
def frameWritten (s : State) (b frame : Nat) : State :=
  { s with hl.events := s.hl.events.filter (· != npa b frame 0) }

/-- Queue a Mace repair within 10 ms of a correction met by another reader (R519). -/
def queueRepair (s : State) (b frame : Nat) : State :=
  if s.hl.repairs.any fun r => r.bank == b && r.frame == frame then s
  else { s with hl.repairs := s.hl.repairs ++ [⟨b, frame, s.now + 10000000⟩] }

/-- An uncorrectable frame: one UNCORRECTED record and, for the second frame of a bank in 24 h, trigger 2 (R522, R530). -/
def uncorrectable (s : State) (b frame source requester : Nat) (tenant : Option Nat) (repaired lossmark : Bool)
    (object opcode slot lease : Nat) : State :=
  let s := logErr s { recno := 0, time := 0, cls := 1, source := source, requester := requester, tenant := tenant,
                      repaired := repaired, reported := lossmark && opcode != 0, lossmark := lossmark,
                      loc := npa b frame 0, object := object, opcode := opcode, slot := slot, lease := lease }
  let s := { s with hl.bad := s.hl.bad ++ [⟨s.now, b, frame, repaired⟩] }
  let fs := distinct ((s.hl.bad.filter fun x => x.bank == b && recent s x.time).map BadFrame.frame)
  if fs.length ≥ 2 then trigger s 2 [b] else s

/-- The error record of a bank operation fault (R126), and trigger 3 for STORE_PARITY and BAD_DESCRIPTOR. -/
def bankFault (s : State) (b frame opc fault : Nat) (tenant opcode slot lease : Nat) : State :=
  let s := logErr s { recno := 0, time := 0, cls := 2, source := 7, code := fault,
                      requester := if opcode = 0 then 0 else 1, tenant := some tenant, loc := npa b frame 0,
                      opcode := opcode, bankop := opc, slot := slot, lease := lease }
  if fault = 5 || fault = 6 then
    let s := { s with hl.faults := s.hl.faults ++ [⟨s.now, b⟩] }
    if (s.hl.faults.filter fun f => f.bank == b && recent s f.time).length ≥ 2 then trigger s 3 [b] else s
  else s

end Sys2Proof.Machine
end

