-- ==== Sys2Proof/Machine/Banks.lean ====
section
/-! DEFINITION. The bank sequencer: queues, passes, CLEAR between tenants, the governor, refresh, and the rows that send a
bank one operation (chapter 4). -/

namespace Sys2Proof.Machine

open Sys2Proof

/-! ## The governor (R133 to R137) -/

/-- Operation allowance of a stack in mW, which is pJ per ns (R133, Table 4-10). -/
def allowance (k : Stack) : Nat :=
  let full := k.envelope * 100 - 5100
  if k.step = 0 then full else if k.step = 1 then full * 3 / 4 else if k.step = 2 then full / 2 else 0

/-- Depth of the credit: 10 µs of allowance (R134). -/
def creditDepth (k : Stack) : Nat := allowance k * 10000

/-- BNK cycles of 1.25 ns that have passed at a time. -/
def bnkCycles (t : Nat) : Nat := t * 4 / 5

/-- The credit at time `t`: each BNK cycle it rises by 1.25 ns of the allowance, up to the depth (R134). -/
def creditAtTime (k : Stack) (t : Nat) : Nat :=
  min (creditDepth k) (k.credit + allowance k * (bnkCycles t - bnkCycles k.creditAt) * 5 / 4)

/-! ## The queue -/

/-- Frames that no region holds. -/
def freeFrames (s : State) (b f n : Nat) : Bool :=
  !(s.mem.regions.any fun r => r.bank == b && decide (f < r.first + r.frames ∧ r.first < f + n))

/-- FILL_ZERO of free frames (R113). -/
def fillsFree (s : State) (b : Nat) (op : QOp) : Bool := op.opc == opFill && freeFrames s b op.desc.frame op.desc.count

/-- Operations of its own tenant that a bank takes between the operations of a pass in progress (R113). -/
def inPass (p : Pass) (op : QOp) : Bool :=
  let d := op.desc
  (op.tenant == p.tenant &&
    ((decide (op.opc ≤ 3) && d.sub % 2 == 0) || [4, 5, 6, 7, 14, 15].contains op.opc ||
     (op.opc == opStore && d.sub == 2 && d.pent == 7)))

/-- What waits until P7 has been emitted: another tenant's operations, and the FINAL operation of the next pass (R113, R114). -/
def p7Holds (t : Nat) (op : QOp) : Bool :=
  op.tenant != t || ((op.opc == opSpanAttend || op.opc == opSpanPv) && op.desc.sub / 2 % 2 == 1)

/-- The first queued operation the bank may take now, with the queue without it. -/
def takeOp (s : State) (k : Bank) : Option (QOp × List QOp) :=
  let ok := fun (o : QOp) => fillsFree s k.id o ||
    ((match k.pass with | none => true | some p => inPass p o) && (match k.p7 with | none => true | some t => !p7Holds t o))
  match k.queue.find? ok with
  | none => none
  | some o => some (o, k.queue.eraseP ok)

/-- A bank of the stack is held whose leading operation became ready before time `t`, or at it with a lower bank number (R135). -/
def earlierHeld (s : State) (b t : Nat) : Bool :=
  s.mem.banks.any fun k => k.id / 512 == b / 512 && k.id != b && k.held && (takeOp s k).isSome &&
    (decide (k.leadAt < t) || (k.leadAt == t && decide (k.id < b)))

/-- A page has been written and its PAGE_TAG_WRITE comes next: nothing but refresh goes between (R116). -/
def tagNext (s : State) (k : Bank) : Bool :=
  match takeOp s k with
  | some (o, _) => o.opc == opTagWrite
  | none => false

/-- A bank with no span pass in progress and no P7 to emit, where a CLEAR may go (R113, R123). -/
def clearable (s : State) (k : Bank) : Bool := k.pass.isNone && k.p7.isNone && !tagNext s k

/-- Fill the 16-entry queue from the operations whose engine waits (R103). -/
def refill (k : Bank) : Bank :=
  { k with queue := k.queue ++ k.backlog.take (16 - k.queue.length), backlog := k.backlog.drop (16 - k.queue.length) }

/-- Half-frames, by NPA, that a run of bank bytes touches. -/
def halves (b addr len : Nat) : List Nat :=
  (List.range (ceilDiv (addr % 2048 + len) 2048)).map fun i => npa b 0 (addr / 2048 * 2048 + 2048 * i)

/-- On-die ECC finds an uncorrectable word in a run of bank bytes. -/
def ueIn (s : State) (b addr len : Nat) : Bool := (halves b addr len).any s.mem.ue.contains

/-- What an operation meets: what the command says, else the uncorrectable words that its bytes already hold. -/
def meets (s : State) (k : Bank) (op : QOp) (e : OpEnv) : OpEnv :=
  let d := op.desc
  let page := fun (p : Nat) => ueIn s k.id (pageAddr d p) (descPage d)
  if e.ue.isSome then e
  else if 1 ≤ op.opc && op.opc ≤ 6 then
    { e with ue := (if op.opc = opSketch then [d.first] else descPages d).find? page }
  else if op.opc = opDist then
    { e with ue := (List.range d.count).find? fun i => (((touches k op.opc d)[i]?).map fun t => ueIn s k.id t.addr t.len).getD false }
  else if (touches k op.opc d).any fun t => !t.write && ueIn s k.id t.addr t.len then { e with ue := some 0 }
  else e

/-- Uncorrectable half-frames after an operation: a fault on a page leaves its word there, and whole half-frames written by FILL_ZERO or
COPY_IN_BANK are good again. -/
def ueAfter (s : State) (b : Nat) (op : QOp) (out : BankOut) : List Nat :=
  let d := op.desc
  if out.fault = fEcc && op.opc ≤ 6 then distinct (s.mem.ue ++ halves b (pageAddr d out.fpage) (descPage d))
  else if out.fault = 0 && op.opc = opFill then s.mem.ue.filter fun a => !(halves b (4096 * d.frame) (4096 * d.count)).contains a
  else if out.fault = 0 && op.opc = opCopy then s.mem.ue.filter fun a => !(halves b (4096 * d.arg1) 4096).contains a
  else s.mem.ue

/-- Put an operation on the die; `last` is the tenant it is served for (R503). -/
def startOp (s : State) (k : Bank) (op : QOp) (last : Option Nat) (e : OpEnv) : State :=
  let (r, out) := runOp s.mem.t1 k op (meets s k op e)
  let s := { s with mem.ue := ueAfter s k.id op out, mem.t1 := r.mem }
  setBank s { r.bank with running := some ⟨op, out, false, e.corrected⟩, last := last, held := false }

/-- A CLEAR descriptor (R123). -/
def clearDesc : Desc := ⟨0, 2, 0, 0, 0, 0, 0, 0, 0, 0, 0, 0, 0, 0, 0, false⟩

/-- The governor lets an operation issue at once: the sequencer refuses it, so that the die gets nothing, or it is a CLEAR (R134, R136). -/
def ungoverned (k : Bank) (op : QOp) : Bool :=
  let f := preFault k op.opc op.desc
  f == fFence || f == fRange || (op.opc == opLoad && op.desc.sub == 2)

/-- What an operation costs at issue (R134, R136). -/
def issueCharge (k : Bank) (op : QOp) : Nat := if ungoverned k op then 0 else chargeOf k op.opc op.desc

/-- The sequencer never issues an operation of more than 800 cycles; the tag of a page needs no operation shorter than that of the page,
whatever its length (R105, R116; log entry 100). -/
def tooLong (s : State) (k : Bank) (op : QOp) (e : OpEnv) : Bool :=
  op.own == .free && !((op.opc == opTagCheck || op.opc == opTagWrite) && op.desc.count == 1) &&
  (let r := runOp s.mem.t1 k op e; r.2.fault == 0 && decide (800 < r.2.cycles))

/-- Issue the bank's next operation if nothing holds it: a placed CLEAR, the CLEAR before another tenant (R503), the
governor (R134, R135). -/
def pump (s : State) (b : Nat) (e : OpEnv) : State :=
  let k := bankOf s b
  let st := stackOf s (b / 512)
  if s.pw.boot != .running || k.retired || k.running.isSome || k.refreshing || (!k.pins.isEmpty && !tagNext s k) || st.selfRefresh then s
  else if k.clear && clearable s k then
    startOp s k ⟨opLoad, k.last.getD 0, clearDesc, [], .free, 0⟩ k.last e
  else match takeOp s k with
    | none => setBank s { k with held := false }
    | some (op, rest) =>
      if k.pass.isNone && k.p7.isNone && k.last.isSome && k.last != some op.tenant then
        startOp s k ⟨opLoad, op.tenant, clearDesc, [], .free, 0⟩ (some op.tenant) e
      else
        let c := creditAtTime st s.now
        let charge := issueCharge k op
        let lead := if k.held then k.leadAt else s.now
        if !ungoverned k op && (st.step == 3 || decide (c < charge) || earlierHeld s b lead) then
          setBank s { k with held := true, leadAt := lead }
        else if tooLong s k op e then setBank s (refill { k with queue := rest, held := false })
        else
          let s := setStack s { st with credit := c - charge, creditAt := s.now }
          let last := if fillsFree s b op && k.last.isSome then k.last else some op.tenant
          startOp s (refill { k with queue := rest }) op last e

/-- Give a bank an operation (R103). -/
def enqueue (s : State) (b opc tenant : Nat) (d : Desc) (chan : Bytes) (own : Own) : State :=
  let op : QOp := ⟨opc, tenant, d, chan, own, s.mem.order⟩
  let s := { s with mem.order := s.mem.order + 1 }
  let k := bankOf s b
  setBank s (if k.queue.length < 16 && k.backlog.isEmpty then { k with queue := k.queue ++ [op] }
             else { k with backlog := k.backlog ++ [op] })

def noEnv : OpEnv := ⟨none, none, []⟩

/-- Take the operations and pin accesses that `drop` and `dropPin` hold of out of every bank; the queues fill up from the engines that
wait, and an idle bank goes on (R103, R135). -/
def cutOps (s : State) (drop : Bank → QOp → Bool) (dropPin : PinJob → Bool) : State :=
  let hit := s.mem.banks.filter fun k => (k.queue ++ k.backlog).any (drop k) || k.pins.any dropPin
  let cut := fun (k : Bank) => refill { k with queue := k.queue.filter fun o => !drop k o, backlog := k.backlog.filter fun o => !drop k o,
                                               pins := k.pins.filter fun p => !dropPin p, held := false }
  let s := hit.foldl (fun s k => setBank s (cut k)) s
  hit.foldl (fun s k => pump s k.id noEnv) s

/-! ## Rows that send a bank one operation -/

/-- The operation of a bank row reaches its bank and is issued as soon as nothing holds it; a retired bank takes none
(R65). -/
def bankSubmit (opc : Nat) (k : BankCmd) (s : State) : State :=
  if (bankOf s k.bank).retired then s
  else pump (enqueue s k.bank opc k.tenant k.desc k.chan .free) k.bank k.env

/-- A bank row: bank numbers above 9,215 name no bank (R37). -/
def bankRow (opc : Nat) (k : BankCmd) (s : State) : Host.Outcome State Fault Refusal :=
  if k.bank < bankCount then .next (bankSubmit opc k s) else .fault .noSuchBank

/-- SPAN_ATTEND (R111, R112). -/
def execSpanAttend (k : BankCmd) (s : State) : Host.Outcome State Fault Refusal := bankRow opSpanAttend k s
/-- SPAN_QK (R115). -/
def execSpanQk (k : BankCmd) (s : State) : Host.Outcome State Fault Refusal := bankRow opSpanQk k s
/-- SPAN_PV (R115). -/
def execSpanPv (k : BankCmd) (s : State) : Host.Outcome State Fault Refusal := bankRow opSpanPv k s
/-- PAGE_TAG_CHECK (R107). -/
def execPageTagCheck (k : BankCmd) (s : State) : Host.Outcome State Fault Refusal := bankRow opTagCheck k s
/-- PAGE_TAG_WRITE (R116). -/
def execPageTagWrite (k : BankCmd) (s : State) : Host.Outcome State Fault Refusal := bankRow opTagWrite k s
/-- SKETCH_PAGE (R205). -/
def execSketchPage (k : BankCmd) (s : State) : Host.Outcome State Fault Refusal := bankRow opSketch k s
/-- QUANT_STORE (R117). -/
def execQuantStore (k : BankCmd) (s : State) : Host.Outcome State Fault Refusal := bankRow opQuant k s
/-- ROPE_APPLY (R118). -/
def execRopeApply (k : BankCmd) (s : State) : Host.Outcome State Fault Refusal := bankRow opRope k s
/-- NORM_RMS (R119). -/
def execNormRms (k : BankCmd) (s : State) : Host.Outcome State Fault Refusal := bankRow opNormRms k s
/-- NORM_LAYER (R119). -/
def execNormLayer (k : BankCmd) (s : State) : Host.Outcome State Fault Refusal := bankRow opNormLayer k s
/-- ELEM (R120). -/
def execElemOp (k : BankCmd) (s : State) : Host.Outcome State Fault Refusal := bankRow opElem k s
/-- DOT_ROWS (R121). -/
def execDotRows (k : BankCmd) (s : State) : Host.Outcome State Fault Refusal := bankRow opDot k s
/-- DIST_EXACT (R121). -/
def execDistExact (k : BankCmd) (s : State) : Host.Outcome State Fault Refusal := bankRow opDist k s
/-- FILL_ZERO (R107). -/
def execFillZero (k : BankCmd) (s : State) : Host.Outcome State Fault Refusal := bankRow opFill k s
/-- COPY_IN_BANK (R107). -/
def execCopyInBank (k : BankCmd) (s : State) : Host.Outcome State Fault Refusal := bankRow opCopy k s
/-- A CLEAR is placed ahead of every queued operation and issued at the next break with no pass in progress (R123). -/
def clearRow (k : BankCmd) (s : State) : Host.Outcome State Fault Refusal :=
  if k.bank < bankCount then
    let b := bankOf s k.bank
    if b.retired then .next s
    else .next (pump (setBank s { b with clear := true }) k.bank k.env)
  else .fault .noSuchBank

/-- LOAD_REG from the channel or the bank (R107); with SUB 2 it is a CLEAR (R123). -/
def execLoadReg (k : BankCmd) (s : State) : Host.Outcome State Fault Refusal :=
  if k.desc.sub = 2 && preFault (bankOf s k.bank) opLoad k.desc = 0 then clearRow k s else bankRow opLoad k s
/-- STORE_REG (R107). -/
def execStoreReg (k : BankCmd) (s : State) : Host.Outcome State Fault Refusal := bankRow opStore k s

/-- CLEAR (R123). -/
def execClear (k : BankCmd) (s : State) : Host.Outcome State Fault Refusal := clearRow k s

/-! ## Governor and refresh rows -/

/-- GOVERNOR_RELEASE (R135): the held operation is issued if the credit now allows. -/
def execGovernorRelease (b : Nat) (e : OpEnv) (s : State) : Host.Outcome State Fault Refusal :=
  if b < bankCount then
    let k := bankOf s b
    if k.held then .next (pump s b e) else .next s
  else .fault .noSuchBank

/-- A die in state HOT halves tREFIpb (Table 4-7). -/
def refreshInterval (s : State) (b : Nat) : Nat :=
  if (stackOf s (b / 512)).hot.contains (b / 32 % 16) then 3900 else 7800

/-- REFRESH_DUE (R128): the refresh is issued, suspending a running operation; later due times keep the grid (R127). -/
def execRefreshDue (b : Nat) (s : State) : Host.Outcome State Fault Refusal :=
  if b < bankCount then
    let k := bankOf s b
    if k.retired || (stackOf s (b / 512)).selfRefresh then .next s
    else .next (setBank s { k with refreshing := true, refreshAt := k.refreshAt + refreshInterval s b,
                                   running := k.running.map fun r => { r with suspended := true } })
  else .fault .noSuchBank

/-- REFRESH_DONE (R129): the suspended operation continues with every register kept. -/
def execRefreshDone (b : Nat) (s : State) : Host.Outcome State Fault Refusal :=
  if b < bankCount then
    let k := bankOf s b
    if k.refreshing then
      .next (pump (setBank s { k with refreshing := false,
                                      running := k.running.map fun r => { r with suspended := false } }) b noEnv)
    else .next s
  else .fault .noSuchBank

end Sys2Proof.Machine
end

