-- ==== Sys2Proof/Machine/Aes.lean ====
section
/-! DEFINITION. AES-256-GCM (FIPS 197, SP 800-38D), with which R354 seals blocks. -/

namespace Sys2Proof.Machine

open Sys2Proof

/-- x · 2 in GF(2^8) modulo x^8 + x^4 + x^3 + x + 1. -/
def xtime (a : Nat) : Nat := if a ≥ 128 then (2 * a - 256) ^^^ 0x1B else 2 * a

def gmulN : Nat → Nat → Nat → Nat → Nat
  | 0, _, _, acc => acc
  | k + 1, a, b, acc => gmulN k (xtime a) (b / 2) (if b % 2 = 1 then acc ^^^ a else acc)

def gmul (a b : Nat) : Nat := gmulN 8 a b 0

/-- The multiplicative inverse a^254, 0 for 0. -/
def ginv (a : Nat) : Nat :=
  let a2 := gmul a a
  let a4 := gmul a2 a2
  let a8 := gmul a4 a4
  let a16 := gmul a8 a8
  let a32 := gmul a16 a16
  let a64 := gmul a32 a32
  let a128 := gmul a64 a64
  gmul a128 (gmul a64 (gmul a32 (gmul a16 (gmul a8 (gmul a4 a2)))))

def rotl8 (a n : Nat) : Nat := (a * 2 ^ n + a / 2 ^ (8 - n)) % 256

/-- The S-box: inverse, then the affine map. -/
def sbox (a : Nat) : Nat :=
  let b := ginv a
  b ^^^ rotl8 b 1 ^^^ rotl8 b 2 ^^^ rotl8 b 3 ^^^ rotl8 b 4 ^^^ 0x63

/-- Key schedule words (4 bytes each) of a 32-byte key: 60 words for 14 rounds. -/
def keyWords (key : Bytes) : List (List Nat) :=
  let w0 := (chunks 4 8 (key.map (·.toNat)))
  ((List.range 52).foldl (fun (acc : List (List Nat) × Nat) j =>
    let i := j + 8
    let prev := acc.1.getD (i - 1) []
    let t := if i % 8 = 0 then
        let r := (prev.drop 1 ++ prev.take 1).map sbox
        (r.headD 0 ^^^ acc.2) :: r.drop 1
      else if i % 8 = 4 then prev.map sbox else prev
    (acc.1 ++ [List.zipWith (· ^^^ ·) (acc.1.getD (i - 8) []) t], if i % 8 = 0 then xtime acc.2 else acc.2)) (w0, 1)).1

def roundKey (ws : List (List Nat)) (r : Nat) : List Nat := ((ws.drop (4 * r)).take 4).flatten

def shiftRows (st : List Nat) : List Nat :=
  (List.range 16).map fun i => st.getD ((i + 4 * (i % 4)) % 16) 0

def mixColumn (c : List Nat) : List Nat :=
  let g := fun i => c.getD (i % 4) 0
  (List.range 4).map fun i => xtime (g i) ^^^ (xtime (g (i + 1)) ^^^ g (i + 1)) ^^^ g (i + 2) ^^^ g (i + 3)

/-- Encrypt one 16-byte block under expanded key words. -/
def aesBlock (ws : List (List Nat)) (blk : List Nat) : List Nat :=
  let x := fun a b => List.zipWith (fun (p q : Nat) => p ^^^ q) a b
  let st := (List.range 13).foldl (fun st r =>
    x ((chunks 4 4 (shiftRows (st.map sbox))).flatMap mixColumn) (roundKey ws (r + 1))) (x blk (roundKey ws 0))
  x (shiftRows (st.map sbox)) (roundKey ws 14)

/-- Big-endian value of bytes. -/
def beNat (bs : List Nat) : Nat := bs.foldl (fun a b => 256 * a + b) 0
def beBytes (n v : Nat) : List Nat := ((List.range n).map fun i => v / 256 ^ i % 256).reverse

def ghashMulN : Nat → Nat → Nat → Nat → Nat
  | 0, _, _, z => z
  | k + 1, x, v, z =>
    let z := if x.testBit k then z ^^^ v else z
    ghashMulN k x (if v % 2 = 1 then (v / 2) ^^^ (0xE1 * 2 ^ 120) else v / 2) z

/-- Product in GF(2^128) as GHASH takes it. -/
def ghashMul (x y : Nat) : Nat := ghashMulN 128 x y 0

def pad16 (bs : List Nat) : List Nat := bs ++ List.replicate (roundUp bs.length 16 - bs.length) 0

def ghash (h : Nat) (bs : List Nat) : Nat :=
  (chunks 16 (bs.length / 16 + 1) bs).foldl (fun y b => ghashMul (y ^^^ beNat b) h) 0

/-- CTR keystream over data, from counter value 2. -/
def gctr (ws : List (List Nat)) (iv data : List Nat) : List Nat :=
  ((chunks 16 (data.length / 16 + 1) data).mapIdx fun i b =>
    List.zipWith (fun (p q : Nat) => p ^^^ q) b (aesBlock ws (iv ++ beBytes 4 (i + 2)))).flatten

def gcmTag (ws : List (List Nat)) (iv aad ct : List Nat) : List Nat :=
  let h := beNat (aesBlock ws (List.replicate 16 0))
  let s := ghash h (pad16 aad ++ pad16 ct ++ beBytes 8 (8 * aad.length) ++ beBytes 8 (8 * ct.length))
  List.zipWith (fun (p q : Nat) => p ^^^ q) (beBytes 16 s) (aesBlock ws (iv ++ [0, 0, 0, 1]))

def toNats (b : Bytes) : List Nat := b.map (·.toNat)
def ofNats (b : List Nat) : Bytes := b.map (BitVec.ofNat 8)

/-- Ciphertext and 16-byte tag. -/
def gcmSeal (key iv aad pt : Bytes) : Bytes × Bytes :=
  let ws := keyWords key
  let ct := gctr ws (toNats iv) (toNats pt)
  (ofNats ct, ofNats (gcmTag ws (toNats iv) (toNats aad) ct))

/-- Plaintext where the tag verifies. -/
def gcmOpen (key iv aad ct tag : Bytes) : Option Bytes :=
  let ws := keyWords key
  if ofNats (gcmTag ws (toNats iv) (toNats aad) (toNats ct)) == tag then some (ofNats (gctr ws (toNats iv) (toNats ct)))
  else none

end Sys2Proof.Machine
end

