-- ==== Sys2Proof/Machine/Frames.lean ====
section
/-! DEFINITION. Frames over the pins: check areas (R59, R60), the page code and on-die ECC (R55, R514 to R520), breaks (R63, R106), and
single bank operations that a whole step of the block carries out. -/

namespace Sys2Proof.Machine

open Sys2Proof

/-! ## Check areas -/

/-- Records per check frame at a strength code (Table 2-8). -/
def perCheck (strength : Nat) : Nat := if strength = 1 then 170 else if strength = 2 then 85 else if strength = 3 then 42 else 21

/-- Frames of a region with `n` data frames (R59, R60). -/
def withCheck (n strength : Nat) : Nat := if strength = 0 then n else n + ceilDiv n (perCheck strength)

/-- Data frames of a region (R59). -/
def dataFrames (r : Region) : Nat :=
  if r.strength = 0 then r.frames else r.frames - ceilDiv r.frames (perCheck r.strength + 1)

/-- Bytes of a check record at a strength code. -/
def checkLen (strength : Nat) : Nat := 12 * 2 ^ strength

/-- Where the check record of data frame `k` of a region stands (R59): bank byte address. -/
def checkAddr (first n strength k : Nat) : Nat :=
  (first + n + k / perCheck strength) * 4096 + k % perCheck strength * checkLen strength

/-- Decoder strength t of a STRENGTH code. -/
def strengthT (strength : Nat) : Nat := 4 * 2 ^ strength

/-- Write the check record of one data frame of a SEALED region from its present bytes (R55). -/
def writeCheck (s : State) (b first n strength k : Nat) : State :=
  t1Write s b (checkAddr first n strength k) (checkRecord (strengthT strength) (t1Read s b ((first + k) * 4096) 4096))

/-- The node's own tenant number, for regions of the node reserve. -/
def nodeTenant : Nat := 256

/-- The share of the node reserve in a stack-0 bank, at t = 64 (Table 2-3, R41, R515). -/
def reserveShare (b : Nat) : Region := ⟨nodeTenant, b, 720, 2048, 4, .reserve, b⟩

def Region.holds (r : Region) (b f : Nat) : Bool := r.bank == b && decide (r.first ≤ f ∧ f < r.first + r.frames)

/-- The SEALED region that a frame stands in. -/
def sealedRegion (s : State) (b f : Nat) : Option Region :=
  if b < 512 && (reserveShare b).holds b f then some (reserveShare b)
  else s.mem.regions.find? fun r => r.holds b f && r.strength != 0

/-! ## Reading and writing a frame -/

/-- Change stored bits of a frame, and of its check record at offsets from 4,096. -/
def applyFlips (s : State) (b f : Nat) (e : FrameEnv) : State :=
  e.flips.foldl (fun s p =>
    let put := fun (a : Nat) => t1Write s b a [(t1Read s b a 1).headD 0 ^^^ p.2]
    if p.1 < 4096 then put (f * 4096 + p.1)
    else match sealedRegion s b f with
      | some r => put (checkAddr r.first (dataFrames r) r.strength (f - r.first) + (p.1 - 4096))
      | none => s) s

/-- What a reader gets from a frame: its bytes, and whether they were corrected; no bytes where it is uncorrectable. -/
structure FrameRead where
  bytes : Option Bytes
  fixed : Bool
  deriving DecidableEq, Repr

/-- An uncorrectable word stays in a frame until the frame is written again. -/
def ueMark (s : State) (b f : Nat) : State :=
  { s with mem.ue := distinct (s.mem.ue ++ [npa b f 0, npa b f 2048]) }

/-- Read a frame through on-die ECC or the page-code decoder (R55, R514, R517); a correction is counted as an event (R520). -/
def readFrame (s : State) (b f : Nat) (e : FrameEnv) (requester : Nat) : FrameRead × State :=
  let s := applyFlips s b f e
  let raw := t1Read s b (f * 4096) 4096
  match sealedRegion s b f with
  | some r =>
    let n := dataFrames r
    if f - r.first < n then
      let a := checkAddr r.first n r.strength (f - r.first)
      match pageDecode (strengthT r.strength) raw (t1Read s b a (checkLen r.strength)) with
      | .clean => (⟨some raw, false⟩, s)
      | .corrected fr _ k => (⟨some fr, true⟩, correctionEvent s b f 2 k requester)
      | .uncorrectable => (⟨none, false⟩, s)
    else (⟨some raw, false⟩, s)
  | none =>
    let s := if e.ue then ueMark s b f else s
    if ueIn s b (f * 4096) 4096 then (⟨none, false⟩, s)
    else if e.ondie then (⟨some raw, true⟩, correctionEvent s b f 1 1 requester)
    else (⟨some raw, false⟩, s)

/-- A run of bytes is written over the pins: no uncorrectable word is left in the half-frames it covers. -/
def pinWrite (s : State) (b addr : Nat) (v : Bytes) : State :=
  let inside := fun (a : Nat) => decide (npa b 0 addr ≤ a ∧ a + 2048 ≤ npa b 0 (addr + v.length))
  let s : State := { s with mem.ue := s.mem.ue.filter fun a => !inside a }
  t1Write s b addr v

/-- A whole frame is written through the encoder or over the pins (R55). -/
def writeFrame (s : State) (b f : Nat) (v : Bytes) : State :=
  let s := frameWritten (pinWrite s b (f * 4096) (cut v 0 4096)) b f
  match sealedRegion s b f with
  | some r => if f - r.first < dataFrames r then writeCheck s b r.first (dataFrames r) r.strength (f - r.first) else s
  | none => s

def cleanFrame : FrameEnv := ⟨[], false, false⟩

/-- A read of frames by an engine: a correction that another reader than Mace meets queues a repair (R519). -/
def readRun (s : State) (b first n : Nat) (e : FrameEnv) (requester : Nat) : Option Bytes × State :=
  (List.range n).foldl (fun (a : Option Bytes × State) i =>
    let (rd, s) := readFrame a.2 b (first + i) (if i = 0 then e else cleanFrame) requester
    let s := if rd.fixed && requester != 8 then queueRepair s b (first + i) else s
    (match a.1, rd.bytes with | some v, some w => some (v ++ w) | _, _ => none, s)) (some [], s)

/-- Write bytes at the start of a run of frames, through the encoder where the run is SEALED. -/
def writeRun (s : State) (b first : Nat) (v : Bytes) : State :=
  (List.range (ceilDiv v.length 4096)).foldl (fun s i => writeFrame s b (first + i) (cut v (4096 * i) 4096)) s

/-! ## Objects held in several regions -/

/-- The regions of an object, in the order of its bytes. -/
def poolOf (s : State) (use : Use) (t owner : Nat) : List Region :=
  s.mem.regions.filter fun r => r.use == use && r.tenant == t && r.owner == owner

/-- Region and frame of data frame `k` of an object. -/
def poolFrame : List Region → Nat → Option (Region × Nat)
  | [], _ => none
  | r :: rs, k => if k < dataFrames r then some (r, r.first + k) else poolFrame rs (k - dataFrames r)

/-- The frames that `n` bytes from `off` lie in: data frame, offset in it, bytes. -/
def frameSegs (off n : Nat) : List (Nat × Nat × Nat) :=
  (List.range (ceilDiv (off % 4096 + n) 4096)).map fun i =>
    let lo := if i = 0 then off % 4096 else 0
    (off / 4096 + i, lo, min 4096 (off % 4096 + n - 4096 * i) - lo)

/-- Read bytes of an object over the pins; none where a word of them is uncorrectable. -/
def poolRead (s : State) (rs : List Region) (off n requester : Nat) : Option Bytes × State :=
  (frameSegs off n).foldl (fun (a : Option Bytes × State) g =>
    match a.1, poolFrame rs g.1 with
    | none, _ => a
    | some v, none => (some (v ++ zeros g.2.2), a.2)
    | some v, some (r, f) =>
      if r.strength = 0 then
        if ueIn a.2 r.bank (f * 4096 + g.2.1) g.2.2 then (none, a.2)
        else (some (v ++ t1Read a.2 r.bank (f * 4096 + g.2.1) g.2.2), a.2)
      else
        let (w, s) := readRun a.2 r.bank f 1 cleanFrame requester
        (w.map fun w => v ++ cut w g.2.1 g.2.2, s)) (some [], s)

/-- The stored bytes of an object as they stand, with no decoding. -/
def poolRaw (s : State) (rs : List Region) (off n : Nat) : Bytes :=
  (frameSegs off n).flatMap fun g => match poolFrame rs g.1 with
    | some (r, f) => t1Read s r.bank (f * 4096 + g.2.1) g.2.2
    | none => zeros g.2.2

/-- Write bytes of an object over the pins; a frame of a SEALED region is written whole through the encoder. -/
def poolWrite (s : State) (rs : List Region) (off : Nat) (v : Bytes) (requester : Nat) : State :=
  (frameSegs off v.length).foldl (fun s g =>
    let part := cut v (g.1 * 4096 + g.2.1 - off) g.2.2
    match poolFrame rs g.1 with
    | none => s
    | some (r, f) =>
      if r.strength = 0 then pinWrite s r.bank (f * 4096 + g.2.1) part
      else if g.2.2 = 4096 then writeFrame s r.bank f part
      else match readRun s r.bank f 1 cleanFrame requester with
        | (some w, s) => writeFrame s r.bank f (patch w g.2.1 part)
        | (none, s) => s) s

/-- Bytes of a lease's staging window, in the OPEN frames of R182. -/
def stagePool (s : State) (l : Nat) : List Region := match leaseOf s l with | some x => poolOf s .staging x.tenant l | none => []
def stageRead (s : State) (l off n : Nat) : Bytes := poolRaw s (stagePool s l) off n
def stageWrite (s : State) (l off : Nat) (v : Bytes) : State := poolWrite s (stagePool s l) off v 0

/-- A run of the window holds an uncorrectable word (R193). -/
def stageBad (s : State) (l off n : Nat) : Bool := (poolRead s (stagePool s l) off n 1).1.isNone

/-! ## Breaks -/

/-- Nothing runs in the bank, it does not refresh, and no page waits for its tag (R62, R63, R106, R131, R553). -/
def calm (s : State) (b : Nat) : Bool :=
  let k := bankOf s b
  !k.retired && k.running.isNone && !k.refreshing && !(stackOf s (b / 512)).selfRefresh && !tagNext s k

/-- A pin access can be made now. -/
def atBreak (s : State) (b : Nat) : Bool := s.pw.boot == .running && calm s b

/-- No span pass is in progress in the bank, and its stack is not stopped by its temperature (R113, R137). -/
def opFree (s : State) (b : Nat) : Bool :=
  let k := bankOf s b
  k.pass.isNone && k.p7.isNone && (stackOf s (b / 512)).step != 3

/-! ## Bank operations within a step -/

/-- A bank operation that a whole step of the block carries out, with the CLEAR before another tenant's operation (R503) and its charge
(R134): its outcome. -/
def stepOp (s : State) (b opc tenant : Nat) (d : Desc) (chan : Bytes) : BankOut × State :=
  let k := bankOf s b
  let k := if k.last.isSome && k.last != some tenant then bauClear k else k
  let op : QOp := ⟨opc, tenant, d, chan, .free, 0⟩
  let (r, out) := runOp s.mem.t1 k op (meets s k op noEnv)
  let st := stackOf s (b / 512)
  let s := setStack s { st with credit := creditAtTime st s.now - issueCharge k op, creditAt := s.now }
  (out, setBank { s with mem.t1 := r.mem, mem.ue := ueAfter s b op out } { r.bank with last := some tenant })

/-- A list of bank operations on one bank, up to the first fault: its code and the operation that met it. -/
def stepOps (b tenant : Nat) : List (Nat × Desc × Bytes) → State → Option (Nat × Nat) × State
  | [], s => (none, s)
  | o :: os, s =>
    let (out, s) := stepOp s b o.1 tenant o.2.1 o.2.2
    if out.fault = 0 then stepOps b tenant os s else (some (out.fault, o.1), s)

end Sys2Proof.Machine
end

