-- ==== Sys2Proof/Machine/Results.lean ====
section
/-! DEFINITION. Partitions' memory, and the results and completion records of requests (R155, R307, R399, R401). -/

namespace Sys2Proof.Machine

open Sys2Proof

/-! ## Partitions' memory -/

def stageGuest : Nat := 0x1000000000
def privateBase : Nat := 0x80000000
def infoPage : Nat := 0x1000

/-- The partition that a service lease belongs to. -/
def guestOf (s : State) (l : Nat) : Option Partition := s.serv.parts.find? fun k => k.lease == l

/-- The SEALED frames of a partition's private memory (R302). -/
def privatePool (s : State) (k : Partition) : List Region := poolOf s .service k.tenant k.lease

/-- A guest physical range in the partition's private memory or staging window (R307). -/
def guestOk (p : Partition) (addr n : Nat) : Bool :=
  (decide (privateBase ≤ addr) && decide (addr + n ≤ privateBase + p.memMib * 2 ^ 20)) ||
  (decide (stageGuest ≤ addr) && decide (addr + n ≤ stageGuest + p.stageMib * 2 ^ 20))

/-- Store bytes at a guest physical address: in the service lease's staging window, in private memory, or in the ring and slots. -/
def guestWrite (s : State) (p : Partition) (addr : Nat) (v : Bytes) : State :=
  if addr ≥ stageGuest then
    stageWrite s p.lease (addr - stageGuest) v
  else if addr ≥ privateBase then poolWrite s (privatePool s p) (addr - privateBase) v 5
  else mapPart s p.id fun p => { p with mem := memWrite p.mem addr v }

def guestRead (s : State) (p : Partition) (addr n : Nat) : Bytes :=
  if addr ≥ stageGuest then
    stageRead s p.lease (addr - stageGuest) n
  else if addr ≥ privateBase then poolRaw s (privatePool s p) (addr - privateBase) n
  else memRead p.mem addr n

/-! ## Results and completion -/

/-- A QP field of a body or header: 0 is the QP that wrote the arm word, otherwise [23:0] (Table 14-7). -/
def Rq.qp (r : Rq) (f : Nat) : Nat := if f = 0 then r.via else f % 2 ^ 24

/-- One 8-byte sync cell of the window (R404). -/
def cellAddr (i : Nat) : Nat := 0x400000 + 8 * i
def cellRead (s : State) (i : Nat) : Nat := leNat (memRead s.nuc.win (cellAddr i) 8)
def cellWrite (s : State) (i v : Nat) : State := { s with nuc.win := memWrite s.nuc.win (cellAddr i) (u64 v) }
def cellAdd (s : State) (i n : Nat) : State := cellWrite s i ((cellRead s i + n) % 2 ^ 64)

/-- Write result bytes of a request: over the RES or NOTIFY QP, or into the partition's memory for an internal slot
(R155, R307, R401). -/
def emit (s : State) (r : Rq) (qp addr rkey : Nat) (v : Bytes) : State :=
  match r.id with
  | .net _ =>
    let q := r.qp qp
    if connected s q then
      mapReq (send s q (.write addr rkey v) (.result r.id)) r.id fun x =>
        { x with unacked := x.unacked + 1, resQp := some q }
    else mapTenant s r.tenant fun t => { t with noNotice := (t.noNotice + 1) % 2 ^ 64 }
  | .int l _ => match guestOf s l with
    | some k => guestWrite s k addr v
    | none => s

/-- Fetch-add 1 to a remote sync cell (R155 step 3); in guest memory the eight bytes are incremented. -/
def emitAdd (s : State) (r : Rq) (qp addr rkey : Nat) : State :=
  match r.id with
  | .net _ =>
    let q := r.qp qp
    if connected s q then
      mapReq (send s q (.fetchAdd addr rkey 1) (.result r.id)) r.id fun x =>
        { x with unacked := x.unacked + 1, resQp := some q }
    else mapTenant s r.tenant fun t => { t with noNotice := (t.noNotice + 1) % 2 ^ 64 }
  | .int l _ => match guestOf s l with
    | some k => guestWrite s k addr (u64 ((leNat (guestRead s k addr 8) + 1) % 2 ^ 64))
    | none => s

/-- Statuses of Table 14-10. -/
def stOK : Nat := 0
def stSHORT : Nat := 1
def stCANCELLED : Nat := 2
def stTIMEDOUT : Nat := 3
def stFENCED : Nat := 4
def stSTALE : Nat := 5
def stLOST : Nat := 6
def stGONE : Nat := 7
def stQUOTA : Nat := 8
def stMALFORMED : Nat := 9
def stUNKNOWN : Nat := 10
def stINTERNAL : Nat := 11
def stNOTCOMMITTED : Nat := 12
def stBUSY : Nat := 13

/-- SLOT of a completion record: the slot number, partition-relative for an internal slot. -/
def reqSlot : Req → Nat
  | .net n => n
  | .int _ n => n

/-- The completion record (Table 14-8). -/
def cmplBytes (r : Rq) (status time : Nat) : Bytes :=
  u8 status ++ u8 r.op ++ u16 r.seq ++ u16 (reqSlot r.id) ++ u16 0 ++ u32 r.count ++
  u16 (if status = stSTALE then r.redirect else 0) ++ u16 0 ++
  u64 (if status = stLOST then r.detail else 0) ++ u64 time

/-- Statistics of R389 for a request that completes with a status. -/
def countStatus (t : Tenant) (status : Nat) : Tenant :=
  if status = stTIMEDOUT then { t with timedOut := (t.timedOut + 1) % 2 ^ 64 }
  else if status = stFENCED then { t with fenced := (t.fenced + 1) % 2 ^ 64 }
  else if status = stCANCELLED then { t with cancelled := (t.cancelled + 1) % 2 ^ 64 }
  else if status = stLOST then { t with lostCount := (t.lostCount + 1) % 2 ^ 64 }
  else t

/-- Put the completion record on its way and free the slot (R399, R401). -/
def putRecord (s : State) (r : Rq) (rec_ : Bytes) : State :=
  match r.id with
  | .net _ =>
    let q := r.qp r.cmplQp
    if decide (r.cmplAddr % 32 = 0) && tenantQp s q r.tenant then
      dropReq (send s q (.write r.cmplAddr r.cmplRkey rec_) (.completion r.tenant r.csync)) r.id
    else
      dropReq (mapTenant s r.tenant fun t => { t with noRecord := (t.noRecord + 1) % 2 ^ 64 }) r.id
  | .int l _ =>
    match guestOf s l with
    | some k =>
      if decide (r.cmplAddr % 32 = 0) && guestOk k r.cmplAddr 32 then
        let s := guestWrite s k r.cmplAddr rec_
        let s := match r.csync with | some c => cellAdd s c 1 | none => s
        dropReq s r.id
      else dropReq (mapTenant s r.tenant fun t => { t with noRecord := (t.noRecord + 1) % 2 ^ 64 }) r.id
    | none => dropReq s r.id

/-- A request completes: its status is counted, its engine work is dropped, and the record follows at once or after
the last result write on another QP has been acknowledged (R401). -/
def complete (s : State) (id : Req) (status : Nat) : State :=
  match reqOf s id with
  | none => s
  | some r =>
    let s := mapTenant s r.tenant fun t => countStatus t status
    let rec_ := cmplBytes r status s.now
    if r.unacked != 0 && r.resQp.isSome && r.resQp != some (r.qp r.cmplQp) then
      mapReq { s with eng.walks := s.eng.walks.filter fun w => w.req != id,
                      eng.waits := s.eng.waits.filter fun w => w.req != id }
        id fun x => { x with phase := .finishing, final := some rec_, ctx := false, units := [] }
    else putRecord s r rec_

end Sys2Proof.Machine
end

