-- ==== Sys2Proof/Machine/Views.lean ====
section
/-! DEFINITION. What the window shows of other state: the identity block (R573 to R575), lease cells (Table 15-2), and the
DICE values behind IDENT (R489). -/

namespace Sys2Proof.Machine

open Sys2Proof

/-! ## Keys of the identity chain (R489) -/

def labelDev : Bytes := ascii [90, 76, 75, 45, 68, 69, 86]
def labelDid : Bytes := ascii [90, 76, 75, 45, 68, 73, 68]
def labelStor : Bytes := ascii [90, 76, 75, 45, 83, 84, 79, 82]
def labelAlias : Bytes := ascii [90, 76, 75, 45, 65, 76, 73, 65, 83]
def labelKem : Bytes := ascii [90, 76, 75, 45, 75, 69, 77]

def uds : Bytes := sha3 Config.puf
def cdi0 : Bytes := sha3 (uds ++ labelDev)

/-- The DeviceID public key, and IDENT, its digest. -/
def deviceKey : Bytes := Config.mldsaPublic (sha3 (cdi0 ++ labelDid))
def ident : Bytes := sha3 deviceKey

/-- Value of a life-cycle state (Table 17-2). -/
def lcsCode : Lcs → Nat
  | .test => 1
  | .field => 2
  | .return_ => 3
  | .void => 4

/-- OWNER_ROOT as 32 bytes, zero while unprogrammed. -/
def rootBytes (s : State) : Bytes := (s.sec.ownerRoot).getD (zeros 32)

/-- KS, which depends on LCS and OWNER_ROOT. -/
def storageKey (s : State) : Bytes :=
  sha3 (cdi0 ++ labelStor ++ u8 (lcsCode s.sec.lcs) ++ rootBytes s)

/-- CDI_1 of an image with the given digest and SVN. -/
def cdi1Of (s : State) (fwDig : Bytes) (svn : Nat) : Bytes :=
  sha3 (cdi0 ++ fwDig ++ u8 svn ++ u8 (lcsCode s.sec.lcs) ++ rootBytes s ++ u8 s.sec.ownerFlags)

def aliasKey (s : State) : Bytes := Config.mldsaPublic (sha3 (s.sec.cdi1 ++ labelAlias))
def kemKey (s : State) : Bytes := Config.mlkemPublic (s.sec.cdi1 ++ labelKem)

/-! ## The boot flash -/

/-- Erased NOR reads 0xFF: `sec.flash` holds each byte complemented. -/
def norRead (s : State) (a n : Nat) : Bytes := (memRead s.sec.flash a n).map fun b => b ^^^ 255
def norWrite (s : State) (a : Nat) (v : Bytes) : State :=
  { s with sec.flash := memWrite s.sec.flash a (v.map fun b => b ^^^ 255) }

/-! ## JTAG and the silicon revision (R601, Table 17-2) -/

/-- The IDCODE register, whose bits [31:28] are SIREV.MAJOR (R601). -/
def idcode : Nat := 0x10880A35

/-- SIREV: major in [15:8]; the spec describes silicon revision 1.0. -/
def siRev : Nat := idcode / 2 ^ 28 * 2 ^ 8

/-- What JTAG offers besides vendor debug. -/
inductive JtagOp where
  | bypass | idcode | samplePreload | extest | coreDebug
  deriving DecidableEq, Repr

/-- JTAG instructions of a life-cycle state: the four in FIELD, debug of every core in TEST, vendor debug once a token has opened it
(Table 17-2); none in VOID, of which the spec states nothing. -/
def jtagOps (s : State) : Option (List JtagOp) :=
  let base := [JtagOp.bypass, .idcode, .samplePreload, .extest]
  match s.sec.lcs with
  | .test => some (base ++ [.coreDebug])
  | .field => some base
  | .return_ => some (if s.sec.debug then base ++ [.coreDebug] else base)
  | .void => none

/-- The lands of Table 21-2. -/
inductive Land where
  | netTx (lane : Nat) (p : Bool) | netRx (lane : Nat) (p : Bool) | netclk (p : Bool)
  | flash (channel n : Nat) | bootFlash (n : Nat) | sideband (n : Nat) | test (n : Nat) | control (n : Nat)
  | refclk (p : Bool) | ppsIn | ppsOut | regulator (n : Nat) | rsvd (n : Nat) | supply (n : Nat) | ground (n : Nat)
  deriving DecidableEq, Repr

/-- Every land of Table 21-2. -/
def Land.ok : Land → Bool
  | .netTx l _ | .netRx l _ => decide (l < 8)
  | .netclk _ | .refclk _ | .ppsIn | .ppsOut => true
  | .flash c n => decide (c < 16 ∧ n < 21)
  | .bootFlash n | .regulator n => decide (n < 12)
  | .sideband n => decide (n < 2)
  | .test n => decide (n < 5)
  | .control n => decide (n < 8)
  | .rsvd n => decide (n < 23)
  | .supply n => decide (n < 2188)
  | .ground n => decide (n < 1612)

/-- Boundary scan in FIELD covers every signal land but the network lanes, REFCLK and NETCLK (R601). -/
def Land.scanned (l : Land) : Bool :=
  l.ok && match l with
  | .netTx _ _ | .netRx _ _ | .netclk _ | .refclk _ | .rsvd _ | .supply _ | .ground _ => false
  | .flash _ _ | .bootFlash _ | .sideband _ | .test _ | .control _ | .ppsIn | .ppsOut | .regulator _ => true

/-! ## The identity block -/

/-- Firmware runs: neither ROM nor the recovery loader answers (R575). -/
def firmware (s : State) : Bool :=
  match s.pw.boot with
  | .booting | .running | .saving | .saved | .failStop => s.sec.fwDig != []
  | _ => false

def cfgNat (s : State) (f : PortCfg → Nat) : Nat := match s.port.cfg with | some c => f c | none => 0

def identityBlock (s : State) : Bytes :=
  let k := firmware s
  let v := fun (n : Nat) => if k then n else 0
  u32 0x4449584B ++ u16 (v s.pw.upd) ++ u16 1 ++ u16 0x4A52 ++ u16 0x0880 ++ u16 siRev ++ u16 0 ++
  u32 (v s.sec.fwRev) ++ u16 (v s.pw.node) ++ u8 (lcsCode s.sec.lcs) ++ u8 0 ++
  leBytes 6 (v (cfgNat s PortCfg.mac)) ++ u16 0 ++ u32 (v (cfgNat s PortCfg.ipv4)) ++ zeros 12 ++
  leBytes 16 (v (cfgNat s PortCfg.ipv6)) ++ ident ++ u64 (v s.pw.bootTime) ++ zeros 3992

/-- UPD passes through an odd value while the block changes and is even after (R574). -/
def identityChanged (s : State) : State := { s with pw.upd := (s.pw.upd + 2) % 65536 }

/-! ## Lease cells -/

/-- A lease the data plane still serves: ACTIVE, and an ordinary one before its FENCE_AT (R26, R421). -/
def leaseLive (s : State) (l : Lease) : Bool :=
  l.state == .active && (l.service.isSome || decide (s.now < l.fenceAt))

def allOnes64 : Nat := 2 ^ 64 - 1

def leaseCellBytes (l : Lease) : Bytes :=
  u16 l.id ++ u16 l.gen ++ u8 l.tenant ++
  u8 ((match l.state with | .active => 1 | .ended => 2) + (if l.service.isSome then 4 else 0)) ++
  u8 l.cause ++ u8 (if l.holdover then 1 else 0) ++ u64 l.expiry ++ u64 l.fenceAt ++ u64 l.granted ++
  u32 l.offset ++ u32 l.ms ++ u16 l.slotFirst ++ u16 l.slots ++ u16 l.cellFirst ++ u16 l.cells ++
  u32 l.stageMib ++ u32 0 ++ u32 l.applied ++ u32 l.refused

/-- The cell of a lease id; a FREE id keeps its id and GEN, and its other fields read 0 (log entry 8). -/
def leaseCell (s : State) (i : Nat) : Bytes :=
  match leaseOf s i with
  | some l => leaseCellBytes l
  | none => u16 i ++ u16 (((s.own.gens.find? fun g => g.id == i).map LeaseGen.gen).getD 0) ++ zeros 60

/-! ## Node states -/

/-- The node serves the fabric: firmware runs and no reset, save or fail-stop has begun (R31, R555, R564). -/
def serves (s : State) : Bool := s.pw.boot == .running

/-- One of several free numbers (log entry 6). -/
def pickOf (s : State) (xs : List Nat) : Option (Nat × State) :=
  match xs with
  | [] => none
  | x :: rest => let (n, s) := s.draw; some ((x :: rest).getD (Config.pick n % (rest.length + 1)) x, s)

/-- Free runs (first, count) of the numbers `lo` to `hi` - 1, given the runs in use in ascending order. -/
def freeRuns : Nat → Nat → List (Nat × Nat) → List (Nat × Nat)
  | lo, hi, [] => if lo < hi then [(lo, hi - lo)] else []
  | lo, hi, (f, n) :: rest => (if lo < f then [(lo, f - lo)] else []) ++ freeRuns (max lo (f + n)) hi rest

/-- Places for a run of `n` in a free run. -/
def runPlaces (n : Nat) (g : Nat × Nat) : Nat := g.2 + 1 - n

/-- The place numbered `k` among those that the free runs offer. -/
def nthPlace (n : Nat) : List (Nat × Nat) → Nat → Nat
  | [], _ => 0
  | g :: gs, k => if k < runPlaces n g then g.1 + k else nthPlace n gs (k - runPlaces n g)

/-- One of the free runs of `n` ≥ 1 numbers from `lo` to `hi` - 1 (log entry 6). -/
def pickRun (s : State) (lo hi n : Nat) (used : List (Nat × Nat)) : Option (Nat × State) :=
  let gs := freeRuns lo hi (sortBy (fun a b => decide (a.1 < b.1)) used)
  let total := sumBy (runPlaces n) gs
  if total = 0 then none
  else let (k, s) := s.draw; some (nthPlace n gs (Config.pick k % total), s)

end Sys2Proof.Machine
end

