-- ==== Sys2Proof/Machine/Net.lean ====
section
/-! DEFINITION. QPs and sessions: NAKs, errors, the end of a session, acknowledgements and retransmission, frames in the
egress queues (R377, R401, R447, R454, R455). -/

namespace Sys2Proof.Machine

open Sys2Proof

/-! ## Frames on QPs -/

/-- A short frame of a QP: acknowledgement, NAK or response (R453). -/
def post (s : State) (q : Qp) (ext n : Nat) (k : FrameKind) : State :=
  toQueue s q.pcp { kind := k, count := roceCount s (v4Peer q) ext n, dscp := q.tclass }

def postAck (s : State) (q : Qp) (psn : Nat) : State := post s q 4 0 (.ack q.num psn)

/-- A control frame of the port: CM, ARP, ND, ICMP (Table 16-2, CTL_PCP). -/
def postCtl (s : State) (n : Nat) (k : FrameKind) : State :=
  toQueue s (cfgNat s PortCfg.ctlPcp) { kind := k, count := plainCount s n }

/-- A CM message on QP1. -/
def postCm (s : State) (k : FrameKind) : State :=
  toQueue s (cfgNat s PortCfg.ctlPcp) { kind := k, count := roceCount s (cfgNat s PortCfg.ipv4 != 0) 8 256 }

def isRequestOf (qp : Nat) (f : Frame) : Bool := match f.kind with | .request q _ _ => q == qp | _ => false

/-- Take a QP's waiting request frames out of the egress queues. -/
def pullFrames (s : State) (qp : Nat) : State :=
  { s with port.queues := s.port.queues.map fun q => { q with frames := q.frames.filter fun f => !isRequestOf qp f } }

/-- Packets of an RDMA operation on a QP. -/
def packets (q : Qp) : OutOp → Nat
  | .write _ _ d => max 1 (ceilDiv d.length (mtuBytes q.mtu))
  | .fetchAdd _ _ _ => 1

/-- Send again every message not yet acknowledged, from the oldest (R447, R455). -/
def retransmit (s : State) (qp : Nat) : State :=
  match qpOf s qp with
  | none => s
  | some q =>
    q.unacked.foldl (fun s m =>
      let n := packets q m.op
      (List.range n).foldl (fun s i =>
        let (ext, len) := match m.op with
          | .write _ _ d => (if i = 0 then 16 else 0, min (mtuBytes q.mtu) (d.length - i * mtuBytes q.mtu))
          | .fetchAdd _ _ _ => (28, 0)
        toQueue s q.pcp { kind := .request qp ((m.psn + 2 ^ 24 + 1 + i - n) % 2 ^ 24) m.op,
                          count := roceCount s (v4Peer q) ext len, dscp := q.tclass }) s) (pullFrames s qp)

/-! ## Sessions and errors -/

/-- A session ends: the QP falls back to R373 and its control mailbox is detached; a command still running there completes
with a reply and no notice (R377). -/
def endSession (s : State) (qp : Nat) : State :=
  let s := mapQp s qp fun q => { q with session := none }
  { s with nuc.ctl := s.nuc.ctl.map fun m =>
      if m.qp == some qp then
        { m with qp := none, box := { m.box with run := m.box.run.map fun r => { r with noticeAddr := 0 } } }
      else m }

def bumpNoNotice (s : State) (t : Nat) : State := mapTenant s t fun t => { t with noNotice := (t.noNotice + 1) % 2 ^ 64 }
def bumpNoRecord (s : State) (t : Nat) : State := mapTenant s t fun t => { t with noRecord := (t.noRecord + 1) % 2 ^ 64 }

/-- An outbound message is abandoned: the slots it belongs to are freed and the undelivered counters rise (R455). -/
def abandon (s : State) (m : OutMsg) : State :=
  match m.tag with
  | .plain => s
  | .result r => match reqOf s r with
    | some x =>
      let s := bumpNoNotice s x.tenant
      if x.phase == .finishing then dropReq (bumpNoRecord s x.tenant) r
      else mapReq s r fun x => { x with unacked := x.unacked - 1 }
    | none => s
  | .completion t _ => bumpNoRecord s t
  | .notice t => match t with | some t => bumpNoNotice s t | none => s
  | .replica _ _ => s

/-- A QP leaves the connected state: its session, its return rkey, the subscriptions over it and what it had still to send
end (R377, R406, R413, R455). A QP the node opened for a tenant closes (R378). -/
def leaveConnected (s : State) (qp : Nat) (st : QpState) : State :=
  match qpOf s qp with
  | none => s
  | some q =>
    let s := pullFrames (endSession s qp) qp
    let s := { s with nuc.subs := s.nuc.subs.filter fun u => u.qp != qp }
    let s := q.unacked.foldl abandon s
    match q.use with
    | .peer _ _ _ => { s with nuc.qps := s.nuc.qps.filter fun x => x.num != qp }
    | _ => mapQp s qp fun q => { q with state := st, unacked := [], placing := none, ret := none, retries := 0 }

/-- A NAK of Remote Access Error or Invalid Request moves this end of the QP to the error state (R454). -/
def nakError (s : State) (q : Qp) (psn : Nat) (c : NakCode) : State :=
  leaveConnected (post s q 4 0 (.nak q.num psn c)) q.num .error

/-! ## Acknowledgements -/

/-- PSN `a` is at or before `b` in the 24-bit sequence. -/
def psnLe (a b : Nat) : Bool := decide ((b + 2 ^ 24 - a) % 2 ^ 24 < 2 ^ 23)

/-- What the acknowledgement of one message lets follow (R155, R401). The cell index is returned where one changes. -/
def acked (s : State) (m : OutMsg) : State × Option Nat :=
  match m.tag with
  | .result r => match reqOf s r with
    | some x =>
      let x := { x with unacked := x.unacked - 1 }
      let s := mapReq s r fun _ => x
      match x.final with
      | some f => (if x.unacked = 0 then putRecord s x f else s, none)
      | none => (s, none)
    | none => (s, none)
  | .completion _ (some c) => (cellAdd s c 1, some c)
  | _ => (s, none)

end Sys2Proof.Machine
end

