-- ==== Sys2Proof/Machine/Mail.lean ====
section
/-! DEFINITION. Mailboxes (R379 to R383, R581, R605): arming a command word, the checks every command has, the reply. -/

namespace Sys2Proof.Machine

open Sys2Proof

/-! ## The configuration copy -/

/-- The configuration part is written at each change of its contents, and never during a save (R568). -/
def saveCfg (s : State) : State :=
  if s.pw.saveAct then s else { s with fl.cfg := some (cfgSnapshot s) }

/-! ## The boxes -/

def ctlOf (s : State) (m : Nat) : CtlBox := (s.nuc.ctl.find? fun c => c.id == m).getD { id := m }
def setCtl (s : State) (c : CtlBox) : State := { s with nuc.ctl := putBy (fun x => x.id == c.id) c s.nuc.ctl }

/-- Bytes of one half of a mailbox. -/
def boxHalf : Box → Nat
  | .session _ => 4096
  | _ => 8192

/-- A mailbox that can be reached: a connected QP's, an attached control mailbox, the sideband's. -/
def boxGet (s : State) : Box → Option Mailbox
  | .session q => match qpOf s q with
    | some x => if x.state == .connected then some x.mbox else none
    | none => none
  | .control m =>
    let c := ctlOf s m
    if m < 64 && (((c.qp.bind (qpOf s)).bind (liveRole s)).isSome) then some c.box else none
  | .sideband => some s.nuc.sideband

/-- A mailbox wherever it stands, for a reply to a command that runs in it (R377). -/
def boxAny (s : State) : Box → Option Mailbox
  | .session q => (qpOf s q).map Qp.mbox
  | .control m => some (ctlOf s m).box
  | .sideband => some s.nuc.sideband

def boxPut (s : State) (b : Box) (m : Mailbox) : State :=
  match b with
  | .session q => mapQp s q fun x => { x with mbox := m }
  | .control n => setCtl s { ctlOf s n with box := m }
  | .sideband => { s with nuc.sideband := m }

/-- The QP that writes a mailbox's command words. -/
def boxQp (s : State) : Box → Option Nat
  | .session q => some q
  | .control m => (ctlOf s m).qp
  | .sideband => none

/-- The role a command in this mailbox has (R383, R581). -/
def boxRole (s : State) (b : Box) : Option Role :=
  match b with
  | .sideband => some .owner
  | _ => match boxQp s b with
    | some q => (qpOf s q).bind (liveRole s)
    | none => none

/-! ## Arming -/

/-- The copy taken when a command word arms (R380). -/
def mailCopy (m : Mailbox) (h copy mseq : Nat) (rsvd : Bool) : MailCmd :=
  let hd := memRead m.mem 0 32
  { code := fld hd 0 2, copy := copy, mseq := mseq,
    rsvd := rsvd || !(zeroAt hd 2 2) || !(zeroAt hd 0x18 8),
    len := fld hd 4 4, noticeAddr := fld hd 8 8, noticeRkey := fld hd 0x10 4, noticeQp := fld hd 0x14 4,
    body := memRead m.mem 0x20 (min (fld hd 4 4) (h - 40)) }

/-- An 8-byte write of the command word: it arms if MSEQ is LAST + 1 and no command runs there (R380). -/
def boxArm (s : State) (b : Box) (word : Nat) : State :=
  match boxGet s b with
  | none => s
  | some m =>
    let mseq := word / 2 ^ 48 % 65536
    if mseq = (m.last + 1) % 65536 && m.run.isNone then
      let r := mailCopy m (boxHalf b) (word / 2 ^ 32 % 65536) mseq (word % 2 ^ 32 != 0)
      boxPut { s with nuc.arrivals := s.nuc.arrivals + 1 } b { m with last := mseq, run := some { r with arrival := s.nuc.arrivals + 1 } }
    else s

/-- The command codes of Table 14-4. -/
def mailCodes : List Nat :=
  [0x1, 0x2, 0x3, 0x4, 0x5, 0x6, 0x7, 0x8, 0x100, 0x101, 0x102, 0x110, 0x111, 0x112, 0x113, 0x114, 0x115, 0x116, 0x117,
   0x120, 0x121, 0x130, 0x131, 0x132, 0x133, 0x134, 0x135, 0x136, 0x137, 0x138, 0x140, 0x200, 0x201, 0x210, 0x211, 0x212,
   0x213, 0x220, 0x221, 0x222, 0x230, 0x231, 0x232, 0x240, 0x241, 0x250, 0x251, 0x252, 0x253, 0x254, 0x260, 0x261, 0x262,
   0x263, 0x264, 0x270, 0x271, 0x272]

/-- What a command names in its body: kinds 0 tenant, 1 sequence, 2 collection, 3 plan, 4 weight set, 5 table, 6 partition, 7 lease. -/
def mailNames (r : MailCmd) : List (Nat × Nat) :=
  let b := r.body
  if [0x101, 0x102].contains r.code then [(7, fld b 0 2)]
  else if [0x111, 0x112, 0x113, 0x114, 0x116, 0x117].contains r.code then [(1, fld b 0 8)]
  else if r.code = 0x110 then (1, fld b 0 8) :: (List.range (min 256 (fld b 8 2))).map fun l => (5, fld b (0x40 + 2 * l) 2)
  else if r.code = 0x121 then [(2, fld b 0 2)]
  else if r.code = 0x130 then [(7, fld b 0 2), (4, fld b 0x10 4)]
  else if [0x131, 0x133, 0x134, 0x136].contains r.code then [(7, fld b 0 2)]
  else if r.code = 0x132 then [(3, fld b 0 2)]
  else if r.code = 0x135 then [(5, fld b 0 2)]
  else if r.code = 0x138 then [(6, fld b 0 1)]
  else if r.code = 0x140 then (if fld b 0x21 1 = 1 then [(0, fld b 0x22 1)] else [])
  else if [0x210, 0x211, 0x212, 0x213, 0x221].contains r.code then [(0, fld b 0 1)]
  else if r.code = 0x220 then [(0, fld b 5 1)]
  else if r.code = 0x230 then (0, fld b 5 1) :: (List.range (min 256 (fld b 0xC 2))).map fun i => (1, fld b (0x9A8 + 8 * i) 8)
  else []

/-- Commands armed in mailboxes that can be reached. -/
def armedCmds (s : State) : List MailCmd :=
  (((s.nuc.qps.map fun q => Box.session q.num) ++ (s.nuc.ctl.map fun m => Box.control m.id) ++ [Box.sideband]).filterMap (boxGet s)).filterMap
    Mailbox.run

/-- No command that armed earlier and has not begun names something that this one names (R382; log entry 120). -/
def mailFirst (s : State) (r : MailCmd) : Bool :=
  (armedCmds s).all fun x => x.begun || decide (r.arrival ≤ x.arrival) || !(mailNames r).any (mailNames x).contains

/-- A session past its NOT_AFTER ends before its QP's mailboxes are looked at (R377). -/
def settleSession (s : State) (b : Box) : State :=
  match boxQp s b with
  | some q => match qpOf s q with
    | some x => if x.session.isSome && (liveRole s x).isNone then endSession s q else s
    | none => s
  | none => s

/-- The armed command a row runs, in the order of R382: the one its word has armed, or the one its word arms now. -/
def mailTake (s : State) (c : Cmd) (code : Nat) : Option (State × MailCmd) :=
  let s := settleSession s c.box
  match boxGet s c.box with
  | none => none
  | some m => match m.run with
    | some r => if !r.begun && r.mseq = c.mseq && r.code = code && mailFirst s r then some (s, r) else none
    | none =>
      if c.mseq = (m.last + 1) % 65536 && leNat (memRead m.mem 0 2) = code then
        let word := (code * 2 ^ 32 + c.mseq * 2 ^ 48)
        let s := boxPut s c.box { m with mem := memWrite m.mem (boxHalf c.box - 8) (u64 word) }
        let s := boxArm s c.box word
        match (boxGet s c.box).bind Mailbox.run with
        | some r => if mailFirst s r then some (s, r) else none
        | none => none
      else none

/-! ## Replies -/

/-- The node writes the reply, the reply word, and the notice (R381). -/
def mailReply (s : State) (b : Box) (status : Nat) (body : Bytes) : State :=
  match boxAny s b with
  | none => s
  | some m => match m.run with
    | none => s
    | some r =>
      let h := boxHalf b
      let word := status + r.code * 2 ^ 32 + r.mseq * 2 ^ 48
      let out := u8 status ++ u8 0 ++ u16 r.mseq ++ u32 body.length ++ u64 s.now ++ zeros 16 ++ body
      let mem := memWrite (memWrite m.mem h out) (2 * h - 8) (u64 word)
      let tenant := match boxRole s b with | some (.tenant t) => some t | _ => none
      let s := boxPut s b { m with mem := mem, run := none }
      if r.noticeAddr = 0 then s
      else
        let q := if r.noticeQp = 0 then (boxQp s b).getD 0 else r.noticeQp % 2 ^ 24
        if connected s q then send s q (.write r.noticeAddr r.noticeRkey (u64 word)) (.notice tenant)
        else match tenant with | some t => bumpNoNotice s t | none => s

/-- A command word written by RDMA_WRITE or MBOX_WRITE: it arms under R380, and a code that Table 14-4 does not define
completes MALFORMED (R12). -/
def boxWord (s : State) (b : Box) (word : Nat) : State :=
  match (boxGet s b).map Mailbox.run with
  | some none =>
    let s := boxArm s b word
    match (boxGet s b).map Mailbox.run with
    | some (some r) => if mailCodes.contains r.code then s else mailReply s b stMALFORMED []
    | _ => s
  | _ => s

/-! ## Commands -/

/-- Which mailbox and role a command takes (Table 14-4). -/
inductive MailKind where
  /-- Session mailbox, with or without a session. -/
  | open
  /-- Session mailbox, any role. -/
  | any
  /-- Session mailbox or the sideband, any role (EVIDENCE_GET). -/
  | both
  | owner
  | tenant
  | control
  deriving DecidableEq, Repr

/-- A command's outcome: a reply, an answer that comes later, or none (RESET_WARM). -/
inductive MailRes where
  | reply (s : State) (status : Nat) (body : Bytes)
  | wait (s : State)
  | silent (s : State)

/-- Where a command came from. -/
structure MailCtx where
  box  : Box
  qp   : Nat
  role : Option Role

def MailCtx.tenant (x : MailCtx) : Nat := match x.role with | some (.tenant t) => t | _ => 0

/-- The mailbox takes the command (R383, R581). -/
def kindOk (k : MailKind) (b : Box) (role : Option Role) : Bool :=
  match k, b with
  | .open, .session _ => true
  | .any, .session _ => true
  | .both, .session _ => true
  | .both, .sideband => true
  | .owner, .session _ => role == some .owner
  | .tenant, .session _ => match role with | some (.tenant _) => true | _ => false
  | .control, .control _ => true
  | .control, .sideband => true
  | _, _ => false

/-- The checks every command has, in order: CMD_COPY and reserved bits, the session, the mailbox and role, the notice on the
sideband, LEN (R373, R380, R383, R581, R605). -/
def mailCheck (k : MailKind) (b : Box) (role : Option Role) (r : MailCmd) (need : Bytes → Nat) : Option Nat :=
  if r.copy ≠ r.code || r.rsvd then some stMALFORMED
  else if k ≠ .open && role.isNone then some stFENCED
  else if !kindOk k b role then some stMALFORMED
  else if b == .sideband && !(r.noticeAddr = 0 && r.noticeRkey = 0 && r.noticeQp = 0) then some stMALFORMED
  else if r.len > boxHalf b - 40 then some stMALFORMED
  else if r.len < need r.body || !((r.body.drop (need r.body)).all (· == 0)) then some stMALFORMED
  else none

/-- The command in a mailbox has begun and its reply is still to come. -/
def mailBegun (s : State) (b : Box) : State :=
  match boxAny s b with
  | some m => boxPut s b { m with run := m.run.map fun r => { r with begun := true } }
  | none => s

/-- A mailbox row: take the command, check it, run it, answer. A session or control mailbox is reached over Ethernet only (R19). -/
def mailRow (code : Nat) (k : MailKind) (need : Bytes → Nat) (h : MailCtx → Bytes → State → MailRes)
    (c : Cmd) (s : State) : State :=
  if !(serves s && (s.port.link || c.box == .sideband)) then s
  else match mailTake s c code with
    | none => s
    | some (s, r) =>
      let role := boxRole s c.box
      match mailCheck k c.box role r need with
      | some st => mailReply s c.box st []
      | none =>
        match h ⟨c.box, (boxQp s c.box).getD 0, role⟩ r.body s with
        | .reply s st body => saveCfg (mailReply s c.box st body)
        | .wait s => saveCfg (mailBegun s c.box)
        | .silent s => s

/-- A command whose code other rows share takes only bodies with the row's operation (FUNC_STOP, LIFECYCLE_REQUEST …). -/
def mailRowIf (p : Bytes → Bool) (code : Nat) (k : MailKind) (need : Bytes → Nat)
    (h : MailCtx → Bytes → State → MailRes) (c : Cmd) (s : State) : State :=
  match mailTake s c code with
  | none => s
  | some (_, r) => if p r.body then mailRow code k need h c s else s

/-- A command that names a tenant: UNKNOWN_OBJECT, or TENANT_GONE while it is being destroyed (R507). -/
def withTenant (s : State) (t : Nat) (f : Tenant → MailRes) : MailRes :=
  match tenantOf s t with
  | none => .reply s stUNKNOWN []
  | some x => if x.dying then .reply s stGONE [] else f x

end Sys2Proof.Machine
end

