-- ==== Sys2Proof/Machine/Sessions.lean ====
section
/-! DEFINITION. Session commands: nonces, sessions, control mailboxes, peer connections, slot and statistics queries, the node
id and event subscriptions (chapter 14). -/

namespace Sys2Proof.Machine

open Sys2Proof

/-! ## Credentials -/

/-- A signature field verifies under a key over a message. -/
def verified (key msg : Bytes) (sig : Option Signed) : Bool :=
  match sig with
  | some g => g.key == key && g.msg == msg
  | none => false

/-- A role key of the owner record in force (Table 17-4). -/
def ownerKey (s : State) (off : Nat) : Option Bytes := s.sec.record.map fun r => cut r off 1312
def rootKeyOff : Nat := 0x20
def sessionKeyOff : Nat := 0x540
def serviceKeyOff : Nat := 0xA60
def wrapKeyOff : Nat := 0xF80

/-- A signature by a role key of the owner record; it fails while no record is in force (R481). -/
def ownerVerified (s : State) (off : Nat) (msg : Bytes) (sig : Option Signed) : Bool :=
  match ownerKey s off with
  | some k => verified k msg sig
  | none => false

def labelSess : Bytes := ascii [90, 76, 75, 45, 83, 69, 83, 83]
def labelBind : Bytes := ascii [90, 76, 75, 45, 66, 73, 78, 68]

/-- The digest a credential signs (R375). -/
def credential (kind node role tenant notAfter : Nat) (nonce : Bytes) : Bytes :=
  sha3 ((if kind = 0 then labelSess else labelBind) ++ u16 node ++ u8 role ++ u8 tenant ++ u64 notAfter ++
    (if kind = 0 then nonce else []))

/-- Bytes of an ML-DSA-44 signature. -/
def sigLen : Nat := 2420

/-- NONCE_GET (R374). -/
def execNonceGet (c : Cmd) (s : State) : Host.Outcome State Fault Refusal :=
  .next (mailRow 0x0001 .open (fun _ => 0) (fun x _ s =>
    let (n, s) := s.draw
    let nonce := cut (Config.nonce n) 0 32
    let e := s.now + 10 * 10 ^ 9
    .reply (mapQp s x.qp fun q => { q with nonce := some (nonce, e) }) stOK (nonce ++ u64 e)) c s)

/-- OPEN_SESSION (R375, R376). -/
def openSession (sig : Option Signed) (x : MailCtx) (b : Bytes) (s : State) : MailRes :=
  let role := fld b 0 1
  let t := fld b 1 1
  let kind := fld b 2 1
  let na := fld b 8 8
  let nonce := cut b 0x10 32
  if role > 1 || kind > 1 || !zeroAt b 3 5 || (role = 0 && t ≠ 0) || (kind = 1 && !zeroAt b 0x10 32) then
    .reply s stMALFORMED []
  else
    let held := match qpOf s x.qp with
      | some q => match q.nonce with
        | some (n, e) => n == nonce && decide (s.now < e)
        | none => false
      | none => false
    let s := if kind = 0 && held then mapQp s x.qp fun q => { q with nonce := none } else s
    if !ownerVerified s sessionKeyOff (credential kind s.pw.node role t na nonce) sig || na ≤ s.now ||
        (kind = 0 && !held) || (kind = 1 && role = 0) then .reply s stFENCED []
    else
      let start := fun (r : Role) =>
        if x.role.isSome then MailRes.reply s stMALFORMED []
        else
          let (n, s) := s.draw
          let num := Config.pick n % 2 ^ 32
          MailRes.reply (mapQp s x.qp fun q => { q with session := some ⟨r, na, num⟩ }) stOK (u32 num)
      if role = 0 then start .owner
      else match tenantOf s t with
        | none => .reply s stUNKNOWN []
        | some k => if k.dying then .reply s stGONE [] else start (.tenant t)

def execOpenSession (c : Cmd) (sig : Option Signed) (s : State) : Host.Outcome State Fault Refusal :=
  .next (mailRow 0x0002 .open (fun _ => 0x30 + sigLen) (openSession sig) c s)

/-- CLOSE_SESSION (R377). -/
def execCloseSession (c : Cmd) (s : State) : Host.Outcome State Fault Refusal :=
  .next (mailRow 0x0003 .any (fun _ => 0) (fun x _ s => .reply (endSession s x.qp) stOK []) c s)

/-- SESSION_EXPIRY (R377): at NOT_AFTER the session ends; a QP the node opened for a tenant closes (R378). -/
def execSessionExpiry (qpn : Nat) (s : State) : Host.Outcome State Fault Refusal :=
  match qpOf s qpn with
  | none => .next s
  | some q =>
    match q.session, q.use with
    | some x, _ => .next (endSession (s.at x.notAfter) qpn)
    | none, .peer _ na _ =>
      if q.state == .connected then
        .next (leaveConnected (postCm (s.at na) (.cmDreq q.peerQpn)) qpn .closing)
      else .next s
    | none, .replica t =>
      match tenantOf s t with
      | some k => .next (leaveConnected (postCm (s.at k.replicaNotAfter) (.cmDreq q.peerQpn)) qpn .closing)
      | none => .next s
    | none, _ => .next s

/-- MBOX_ATTACH (R393). -/
def execMboxAttach (c : Cmd) (s : State) : Host.Outcome State Fault Refusal :=
  .next (mailRow 0x0004 .owner (fun _ => 0) (fun x _ s =>
    if s.nuc.ctl.any fun m => m.qp == some x.qp then .reply s stMALFORMED []
    else match pickOf s ((List.range 64).filter fun m => (ctlOf s m).qp.isNone && (ctlOf s m).box.run.isNone) with
      | none => .reply s stBUSY []
      | some (m, s) =>
        let (n, s) := s.draw
        let rkey := (Config.rkey n).toNat
        let k := ctlOf s m
        .reply (setCtl s { k with qp := some x.qp, rkey := rkey, box := { k.box with last := 0xFFFF, run := none } })
          stOK (u8 m ++ zeros 3 ++ u32 rkey)) c s)

/-- MBOX_DETACH (R393). -/
def execMboxDetach (c : Cmd) (s : State) : Host.Outcome State Fault Refusal :=
  .next (mailRow 0x0005 .owner (fun _ => 0) (fun x _ s =>
    if s.nuc.ctl.any fun m => m.qp == some x.qp then
      .reply { s with nuc.ctl := s.nuc.ctl.map fun m =>
        if m.qp == some x.qp then
          { m with qp := none, box := { m.box with run := m.box.run.map fun r => { r with noticeAddr := 0 } } }
        else m } stOK []
    else .reply s stMALFORMED []) c s)

/-! ## Connections the node opens -/

/-- Big-endian value of a run of network-order bytes. -/
def beVal (b : Bytes) : Nat := b.foldl (fun n x => 256 * n + x.toNat) 0

/-- An address of 16 network-order bytes holds an IPv4 address (IPv4-mapped). -/
def mapped4 (a : Bytes) : Bool := zeroAt a 0 10 && cut a 10 2 == [255, 255]

/-- The next hop of a destination: itself within the prefix, otherwise the gateway (R450). -/
def nextHop (c : PortCfg) (a : Bytes) : Nat :=
  if mapped4 a then
    let ip := cut a 12 4
    let own := leBytes 4 c.ipv4
    if c.ipv4 ≠ 0 && beVal ip / 2 ^ (32 - c.prefix4) = beVal own / 2 ^ (32 - c.prefix4) then leNat ip else c.gw4
  else
    let own := leBytes 16 c.ipv6
    if c.ipv6 ≠ 0 && beVal a / 2 ^ (128 - c.prefix6) = beVal own / 2 ^ (128 - c.prefix6) then leNat a else c.gw6

def neighborMac (s : State) (ip : Nat) : Option Nat :=
  match s.port.neighbors.find? fun n => n.ip == ip with
  | some n => n.mac
  | none => none

/-- The REQ of a QP that is being set up, once its next hop is resolved; otherwise ARP or ND asks for it (R450, R452). -/
def startConnect (s : State) (qpn : Nat) : State :=
  match qpOf s qpn, s.port.cfg with
  | some q, some c =>
    let a := leBytes 16 q.peer
    let hop := nextHop c a
    match neighborMac s hop with
    | some _ => postCm (mapQp s qpn fun q => { q with unsent := false }) (.cmReq qpn q.peer q.rxPsn)
    | none =>
      let s := { s with port.neighbors := putBy (fun n => n.ip == hop) ⟨hop, none⟩ s.port.neighbors }
      postCtl (mapQp s qpn fun q => { q with unsent := true }) 46
        (if mapped4 a then .arpRequest hop else .neighborSolicit hop)
  | _, _ => s

/-- A QP number not in use, from 0x100 to 0x80FF (R453). -/
def freeQpn (s : State) : Option (Nat × State) := pickRun s 0x100 0x8100 1 (s.nuc.qps.map fun q => (q.num, 1))

/-- Open a QP to a peer: none when 32,768 QPs are in use. -/
def openQp (s : State) (use : QpUse) (addr node : Nat) (sig : Bytes) : Option (Nat × State) :=
  match freeQpn s with
  | none => none
  | some (n, s) =>
    let (k, s) := s.draw
    let q : Qp := { num := n, state := .setup, use := use, peer := addr, peerNode := node, sig := sig,
                    depth := 16, mtu := cfgNat s PortCfg.mtu, tclass := cfgNat s PortCfg.peerDscp,
                    pcp := cfgNat s PortCfg.peerPcp, rxPsn := (Config.psn k).toNat }
    some (n, startConnect { s with nuc.qps := s.nuc.qps ++ [q] } n)

/-- PEER_CONNECT (R378), to a node id other than 0 (R22): the reply follows when the peer has answered. -/
def execPeerConnect (c : Cmd) (s : State) : Host.Outcome State Fault Refusal :=
  .next (mailRow 0x0006 .tenant (fun _ => 0x20 + sigLen) (fun x b s =>
    if !zeroAt b 2 6 || fld b 0 2 = 0 then .reply s stMALFORMED []
    else match openQp s (.peer x.tenant (fld b 8 8) x.box) (fld b 0x10 16) (fld b 0 2) (cut b 0x20 sigLen) with
      | none => .reply s stQUOTA []
      | some (_, s) => .wait s) c s)

/-! ## Queries -/

def lastOf (s : State) (r : Req) : Nat := ((s.nuc.slots.find? fun x => x.id == r).map SlotSt.last).getD 0xFFFF

/-- The lease that holds a network slot. -/
def slotLease (s : State) (n : Nat) : Option Lease :=
  s.own.leases.find? fun l => decide (l.slotFirst ≤ n ∧ n < l.slotFirst + l.slots)

/-- SLOT_QUERY (R388). -/
def execSlotQuery (c : Cmd) (s : State) : Host.Outcome State Fault Refusal :=
  .next (mailRow 0x0007 .tenant (fun _ => 4) (fun x b s =>
    let first := fld b 0 2
    let n := fld b 2 2
    if n < 1 || n > 1000 then .reply s stMALFORMED []
    else
      let slots := (List.range n).map (first + ·)
      if slots.all fun i => match slotLease s i with | some l => l.tenant == x.tenant && l.service.isNone | none => false then
        .reply s stOK (slots.flatMap fun i =>
          u32 (lastOf s (.net i) + (if (reqOf s (.net i)).isSome then 65536 else 0)))
      else .reply s stUNKNOWN []) c s)

/-- The eight counters of R389. -/
def statsOf (t : Tenant) : List Nat :=
  [t.stale, t.ignored, t.noRecord, t.timedOut, t.fenced, t.cancelled, t.lostCount, t.noNotice]

/-- STATS_GET (R389). -/
def execStatsGet (c : Cmd) (s : State) : Host.Outcome State Fault Refusal :=
  .next (mailRow 0x0008 .tenant (fun _ => 0) (fun x _ s =>
    match tenantOf s x.tenant with
    | some t => .reply s stOK ((statsOf t).flatMap u64)
    | none => .reply s stUNKNOWN []) c s)

/-! ## Node commands -/

/-- NODE_ID_SET (R393). -/
def execNodeIdSet (c : Cmd) (s : State) : Host.Outcome State Fault Refusal :=
  .next (mailRow 0x0200 .control (fun _ => 2) (fun _ b s =>
    if fld b 0 2 = 0 then .reply s stMALFORMED []
    else if !s.own.leases.isEmpty then .reply s stBUSY []
    else .reply (saveCfg (identityChanged { s with pw.node := fld b 0 2 })) stOK []) c s)

/-- EVENT_SUBSCRIBE (R413). -/
def execEventSubscribe (c : Cmd) (s : State) : Host.Outcome State Fault Refusal :=
  .next (mailRow 0x0201 .control (fun _ => 24) (fun x b s =>
    let addr := fld b 0 8
    let rq := fld b 12 4
    let log2 := fld b 16 1
    if !zeroAt b 17 7 || (addr ≠ 0 && (log2 < 6 || 16 < log2)) then .reply s stMALFORMED []
    else
      let s' := { s with nuc.subs := s.nuc.subs.filter fun u => u.box != x.box }
      if addr = 0 then .reply s' stOK []
      else
        let q := if rq = 0 then x.qp else rq
        if (rq = 0 && x.box == .sideband) || !connected s q then .reply s stMALFORMED []
        else .reply { s' with nuc.subs := s'.nuc.subs ++ [⟨x.box, addr, fld b 8 4, q, log2⟩] } stOK []) c s)

end Sys2Proof.Machine
end

