-- ==== Sys2Proof/Machine/Link.lean ====
section
/-! DEFINITION. The link, the PTP clock, addressing, connection management and congestion control (chapter 16). -/

namespace Sys2Proof.Machine

open Sys2Proof

/-! ## The PTP clock and the leases (R426, R471) -/

/-- Margin of R426: 50 ppm of an interval, rounded up. -/
def driftMargin (ns : Nat) : Nat := ceilDiv (50 * ns) 1000000

/-- The clock leaves LOCKED: FENCE_AT of every ACTIVE ordinary lease moves earlier and CLOCK becomes 1 (R419, R426). -/
def leaveLocked (s : State) : State :=
  if s.clock.ptp == .locked then
    { s with clock.ptp := .holdover, clock.th := s.now, port.ptp.good := 0, port.ptp.bad := 0,
             own.leases := s.own.leases.map fun l =>
               if l.state == .active then
                 if l.service.isSome then { l with holdover := true }
                 else { l with holdover := true, fenceAt := l.expiry - driftMargin (l.expiry - s.now) }
               else l }
  else s

/-- A return to LOCKED clears CLOCK in every ACTIVE cell (R426). -/
def enterLocked (s : State) : State :=
  { s with clock.ptp := .locked, port.ptp.good := 0, port.ptp.bad := 0,
           own.leases := s.own.leases.map fun l => if l.state == .active then { l with holdover := false } else l }

/-- An ordinary lease is ACTIVE. -/
def ordinaryActive (s : State) : Bool := s.own.leases.any fun l => l.state == .active && l.service.isNone

/-- SYNC_RECEIVED (R471, R472): the offset is the node clock less the grandmaster's. The clock steps only outside LOCKED with
no ordinary lease ACTIVE. -/
def execSyncReceived (domain : Nat) (offset : Int) (intervalNs : Nat) (s : State) : Host.Outcome State Fault Refusal :=
  if !s.port.link || domain ≠ s.port.ptp.domain then .next s
  else
    let inside := decide (offset.natAbs ≤ s.port.ptp.lockNs)
    let step := !inside && s.clock.ptp != .locked && !ordinaryActive s
    let s := if step then { s with clock.now := ((s.clock.now : Int) - offset).toNat } else s
    let s := { s with port.ptp.lastSync := some s.now, port.ptp.interval := intervalNs,
                      port.ptp.offset := if step then 0 else offset,
                      port.ptp.good := if inside then s.port.ptp.good + 1 else 0,
                      port.ptp.bad := if inside then 0 else s.port.ptp.bad + 1 }
    if s.clock.ptp == .locked then
      .next (if s.port.ptp.bad ≥ 4 then leaveLocked s else s)
    else .next (if s.port.ptp.good ≥ 8 then enterLocked s else s)

/-- SYNC_TIMEOUT (R471): four Sync intervals pass with no valid Sync. -/
def execSyncTimeout (s : State) : Host.Outcome State Fault Refusal :=
  match s.clock.ptp, s.port.ptp.lastSync with
  | .locked, some t => .next (leaveLocked (s.at (t + 4 * s.port.ptp.interval)))
  | _, _ => .next s

/-- PTP frames are counted without a VLAN tag or MACsec (R469, R474). -/
def postPtp (s : State) (k : FrameKind) : State := toQueue s s.port.ptp.queue { kind := k, count := 72 }

/-- A timestamp taken at the PCS of a frame received, and of a frame sent, corrected for the asymmetry (R469; log entry 121). -/
def rxStamp (s : State) (t : Nat) : Int := (t : Int) - s.port.ptp.rxAsym
def txStamp (s : State) (t : Nat) : Int := (t : Int) + s.port.ptp.txAsym

/-- PDELAY_REQ_RECEIVED (R469). -/
def execPdelayReqReceived (seq rxTime : Nat) (s : State) : Host.Outcome State Fault Refusal :=
  if !s.port.link then .next s
  else
    let tx := (txStamp s s.now).toNat
    let s := postPtp s (.pdelayResp seq (rxStamp s rxTime).toNat tx s.port.ptp.oneStep)
    .next (if s.port.ptp.oneStep then s else postPtp s (.pdelayFollowUp seq tx))

/-- PDELAY_TIMER (R469). -/
def execPdelayTimer (s : State) : Host.Outcome State Fault Refusal :=
  if !s.port.link then .next s
  else
    let n := (s.port.ptp.pdelaySeq + 1) % 65536
    .next (postPtp { s with port.ptp.pdelaySeq := n } (.pdelayReq n (txStamp s s.now).toNat))

/-- PDELAY_RESP_RECEIVED (R469): the mean link delay from the four timestamps, the node's own corrected. -/
def execPdelayRespReceived (seq t1 t2 t3 t4 : Nat) (s : State) : Host.Outcome State Fault Refusal :=
  if s.port.link && seq = s.port.ptp.pdelaySeq then
    .next { s with port.ptp.linkDelay := some (((rxStamp s t4 - txStamp s t1) - ((t3 : Int) - t2)) / 2) }
  else .next s

/-- PPS_OUT (R473): at the next whole second PTP_PPS_OUT rises and stays high for PPS_WIDTH_US. -/
def execPpsOut (s : State) : Host.Outcome State Fault Refusal :=
  let t := roundUp s.now (10 ^ 9)
  .next { s.at t with port.ptp.ppsHigh := some (t + 1000 * s.port.ptp.ppsUs) }

/-- PPS_IN (R473). -/
def execPpsIn (ts : Nat) (s : State) : Host.Outcome State Fault Refusal :=
  .next { s with port.ptp.ppsIn := s.port.ptp.ppsIn ++ [ts] }

/-! ## The link (R446, R447, R593) -/

/-- What the link needs to come up (R446, R557, R593). -/
def linkReady (s : State) : Bool :=
  serves s && !s.port.held && s.port.netclk &&
  (match s.port.cfg with
   | none => false
   | some c => !c.macsecEn || (!s.port.txSas.isEmpty && s.port.rxScs.any fun r => !r.sas.isEmpty))

/-- The link goes down: frames and QPs are held, PTP leaves LOCKED (R447, R471). -/
def dropLink (s : State) : State := if s.port.link then leaveLocked { s with port.link := false } else s

def execLinkDown (s : State) : Host.Outcome State Fault Refusal := .next (dropLink s)

/-- LINK_UP (R447): every QP retransmits from its oldest unacknowledged PSN. -/
def execLinkUp (s : State) : Host.Outcome State Fault Refusal :=
  if s.port.link || !linkReady s then .next s
  else .next ((s.nuc.qps.filter fun q => q.state == .connected).foldl (fun s q => retransmit s q.num)
    { s with port.link := true })

/-- NETCLK_LOSS (R593): the PTP clock keeps counting. -/
def execNetclkLoss (s : State) : Host.Outcome State Fault Refusal := .next { dropLink s with port.netclk := false }

/-- NETCLK_RETURN (R593). -/
def execNetclkReturn (s : State) : Host.Outcome State Fault Refusal := .next { s with port.netclk := true }

/-! ## Addressing (R450) -/

/-- The link-local address formed from MAC by modified EUI-64, as 16 network-order bytes. -/
def linkLocal (mac : Nat) : Bytes :=
  let m := leBytes 6 mac
  [0xFE, 0x80] ++ zeros 6 ++ [(m.getD 0 0) ^^^ 2, m.getD 1 0, m.getD 2 0, 0xFF, 0xFE, m.getD 3 0, m.getD 4 0, m.getD 5 0]

def execArpRequest (target sender senderMac : Nat) (s : State) : Host.Outcome State Fault Refusal :=
  match s.port.cfg with
  | some c => if s.port.link && c.ipv4 ≠ 0 && target = c.ipv4 then .next (postCtl s 46 (.arpReply sender senderMac)) else .next s
  | none => .next s

def execNeighborSolicitation (target sender senderMac : Nat) (s : State) : Host.Outcome State Fault Refusal :=
  match s.port.cfg with
  | some c =>
    if s.port.link && c.ipv6 ≠ 0 && (target = c.ipv6 || target = leNat (linkLocal c.mac)) then
      .next (postCtl s 72 (.neighborAdvert sender senderMac))
    else .next s
  | none => .next s

def execIcmpEcho (v6 : Bool) (src : Nat) (data : Bytes) (s : State) : Host.Outcome State Fault Refusal :=
  match s.port.cfg with
  | some c =>
    if s.port.link && (if v6 then c.ipv6 ≠ 0 else c.ipv4 ≠ 0) then
      .next (postCtl s ((if v6 then 40 else 20) + 8 + data.length) (.echoReply v6 src data))
    else .next s
  | none => .next s

/-- A resolved next hop lets the REQs that wait for it go (R450). -/
def resolved (s : State) (ip mac : Nat) : State :=
  if s.port.link && s.port.neighbors.any fun n => n.ip == ip then
    let s := { s with port.neighbors := putBy (fun n => n.ip == ip) ⟨ip, some mac⟩ s.port.neighbors }
    (s.nuc.qps.filter Qp.unsent).foldl (fun s q => startConnect s q.num) s
  else s

def execArpReply (ip mac : Nat) (s : State) : Host.Outcome State Fault Refusal := .next (resolved s ip mac)
def execNeighborAdvertisement (ip mac : Nat) (s : State) : Host.Outcome State Fault Refusal := .next (resolved s ip mac)

/-! ## Connection management (R452) -/

/-- REJ reasons (log entry 9): no resources, invalid transport service type, invalid partition key. -/
def rejResources : Nat := 3
def rejTransport : Nat := 9
def rejPkey : Nat := 28

/-- CM_REQ (R452): a QP number is taken and REP is sent, or REJ. -/
def execCmReq (q : CmReq) (s : State) : Host.Outcome State Fault Refusal :=
  if !serves s || !s.port.link then .next s
  else if !q.rc then .next (postCm s (.cmRej q.peerQpn rejTransport))
  else if q.pkey ≠ 0xFFFF then .next (postCm s (.cmRej q.peerQpn rejPkey))
  else match freeQpn s with
    | none => .next (postCm s (.cmRej q.peerQpn rejResources))
    | some (n, s) =>
      let (k, s) := s.draw
      let mtu := min q.mtu (cfgNat s PortCfg.mtu)
      let depth := min 64 q.depth
      let psn := (Config.psn k).toNat
      let qp : Qp := { num := n, state := .setup, peer := q.peer, peerQpn := q.peerQpn, depth := depth, mtu := mtu,
                       tclass := q.tclass / 4, pcp := q.pcp.getD 0, rxPsn := psn, txPsn := q.psn }
      .next (postCm { s with nuc.qps := s.nuc.qps ++ [qp] } (.cmRep n q.peerQpn depth 0 psn mtu))

/-- CM_RTU (R452): the QP is connected; LAST of its session mailbox is 0xFFFF (R380). -/
def execCmRtu (qpn : Nat) (s : State) : Host.Outcome State Fault Refusal :=
  match qpOf s qpn with
  | some q =>
    if serves s && s.port.link && q.state == .setup && q.use == .host then
      .next (mapQp s qpn fun q => { q with state := .connected, mbox := {}, cc := { q.cc with alphaAt := s.now, incAt := s.now } })
    else .next s
  | none => .next s

/-- CM_DREQ (R452): the QP is closed and DREP sent. -/
def execCmDreq (qpn : Nat) (s : State) : Host.Outcome State Fault Refusal :=
  match qpOf s qpn with
  | some q =>
    if serves s && s.port.link then
      let s := leaveConnected s qpn .closing
      .next (postCm { s with nuc.qps := s.nuc.qps.filter fun x => x.num != qpn } (.cmDrep q.peerQpn))
    else .next s
  | none => .next s

/-- CM_DREP (R452): a disconnection the node began is complete. -/
def execCmDrep (qpn : Nat) (s : State) : Host.Outcome State Fault Refusal :=
  match qpOf s qpn with
  | some q =>
    if q.state == .closing then .next { s with nuc.qps := s.nuc.qps.filter fun x => x.num != qpn } else .next s
  | none => .next s

/-! ## The requester's side (R455) -/

/-- ACK_TIMEOUT (R455): held while the link is down (R447). -/
def retryQp (s : State) (q : Qp) : State :=
  if q.retries ≥ cfgNat s PortCfg.retryCnt then leaveConnected s q.num .error
  else retransmit (mapQp s q.num fun q => { q with retries := q.retries + 1 }) q.num

def execAckTimeout (qpn : Nat) (s : State) : Host.Outcome State Fault Refusal :=
  match qpOf s qpn with
  | some q => if serves s && s.port.link && q.state == .connected && !q.unacked.isEmpty then .next (retryQp s q) else .next s
  | none => .next s

/-! ## DCQCN (R457) -/

def gOf (c : PortCfg) : Rat := (c.g : Rat) / 65536

/-- CNP_RECEIVED: the rate is cut at most once per CNP_GAP_US. -/
def execCnpReceived (qpn : Nat) (s : State) : Host.Outcome State Fault Refusal :=
  match qpOf s qpn, s.port.cfg with
  | some _, some c =>
    if !s.port.link then .next s
    else
      let s := { s with port.cnpReceived := (s.port.cnpReceived + 1) % 2 ^ 64 }
      .next (mapQp s qpn fun q =>
        let k := q.cc
        let due := match k.cutAt with | some t => decide (t + 1000 * c.cnpGap ≤ s.now) | none => true
        if due then
          { q with cc := { k with rt := k.rc, rc := max (c.minRate : Rat) (k.rc * (1 - k.alpha / 2)),
                                  alpha := (1 - gOf c) * k.alpha + gOf c, timeStage := 0, byteStage := 0, sent := 0,
                                  cutAt := some s.now, alphaAt := s.now, incAt := s.now } }
        else { q with cc := { k with alphaAt := s.now } })
  | _, _ => .next s

/-- ALPHA_TIMER: ALPHA_US has passed with no CNP. -/
def execAlphaTimer (qpn : Nat) (s : State) : Host.Outcome State Fault Refusal :=
  match qpOf s qpn, s.port.cfg with
  | some q, some c =>
    let t := q.cc.alphaAt + 1000 * c.alphaUs
    let s := s.at t
    .next (mapQp s qpn fun q => { q with cc := { q.cc with alpha := (1 - gOf c) * q.cc.alpha, alphaAt := s.now } })
  | _, _ => .next s

/-- on_increase of R457 once the stage counters have moved. -/
def increase (c : PortCfg) (k : Cc) : Cc :=
  let s := max k.timeStage k.byteStage
  let rt := if s > c.fast then
      (if min k.timeStage k.byteStage > c.fast then k.rt + (c.rhai : Rat) else k.rt + (c.rai : Rat))
    else k.rt
  let rt := min rt 1600000
  { k with rt := rt, rc := (rt + k.rc) / 2 }

def execIncreaseTimer (qpn : Nat) (s : State) : Host.Outcome State Fault Refusal :=
  match qpOf s qpn, s.port.cfg with
  | some q, some c =>
    let s := s.at (q.cc.incAt + 1000 * c.incUs)
    .next (mapQp s qpn fun q => { q with cc := increase c { q.cc with timeStage := q.cc.timeStage + 1, incAt := s.now } })
  | _, _ => .next s

/-- INCREASE_BYTES: applies once INC_BYTES have been sent. -/
def execIncreaseBytes (qpn : Nat) (s : State) : Host.Outcome State Fault Refusal :=
  match qpOf s qpn, s.port.cfg with
  | some q, some c =>
    if q.cc.sent ≥ c.incBytes then
      .next (mapQp s qpn fun q =>
        { q with cc := increase c { q.cc with byteStage := q.cc.byteStage + 1, sent := q.cc.sent - c.incBytes } })
    else .next s
  | _, _ => .next s

/-! ## PFC (R458) -/

def setQueue (s : State) (i : Nat) (f : Queue → Queue) : State :=
  { s with port.queues := s.port.queues.mapIdx fun j q => if j = i then f q else q }

/-- PFC is enabled on a priority. -/
def pfcOn (s : State) (p : Nat) : Bool := decide (p < 8) && (cfgNat s PortCfg.pfcMask).testBit p

/-- PFC_RECEIVED: the queue is paused for the time the frame gives; time 0 resumes it. -/
def execPfcReceived (prio pauseNs : Nat) (s : State) : Host.Outcome State Fault Refusal :=
  if s.port.link && pfcOn s prio then
    let s := { s with port.pfcReceived := s.port.pfcReceived.mapIdx fun i n => if i = prio then (n + 1) % 2 ^ 64 else n }
    .next (setQueue s prio fun q => { q with paused := if pauseNs = 0 then none else some (s.now + pauseNs) })
  else .next s

def execPfcPauseExpiry (prio : Nat) (s : State) : Host.Outcome State Fault Refusal :=
  match (s.port.queues[prio]?).map Queue.paused with
  | some (some t) => .next (setQueue (s.at t) prio fun q => { q with paused := none })
  | _ => .next s

end Sys2Proof.Machine
end

