-- ==== Sys2Proof/Machine/Egress.lean ====
section
/-! DEFINITION. The egress scheduler: gates, buckets, strict priority and deficit-weighted round robin, MACsec on
transmission (R460 to R464, R474, R476). -/

namespace Sys2Proof.Machine

open Sys2Proof

/-- The running schedule: its list, cycle and first cycle start (R463). -/
def schedule (s : State) : Option (List Gate × Nat × Nat) :=
  match s.port.start with
  | some t => if s.port.gclOn && s.port.schedOn && s.port.cycle ≠ 0 then some (s.port.gcl, s.port.cycle, t) else none
  | none => none

/-- The entry in force `pos` ns into a cycle, as the entries from it on and the time left in it. -/
def entryAt : List Gate → Nat → List Gate × Nat
  | [], _ => ([], 0)
  | g :: gs, pos => if pos < g.dur then (g :: gs, g.dur - pos) else entryAt gs (pos - g.dur)

/-- The gate mask at a time. -/
def maskAt (s : State) (t : Nat) : Nat :=
  match schedule s with
  | none => 255
  | some (gcl, cyc, st) =>
    if t < st then 255
    else match entryAt gcl ((t - st) % cyc) with
      | (g :: _, _) => g.mask
      | _ => 255

/-- Next gate boundary after `t`. -/
def nextBoundary (gcl : List Gate) (cyc st t : Nat) : Nat :=
  if t < st then st else t + (entryAt gcl ((t - st) % cyc)).2

/-- ns left until the scheduled end of the open interval of queue `q`; none where it has no end (R464). -/
def openLeft (s : State) (q t : Nat) : Option Nat :=
  match schedule s with
  | none => none
  | some (gcl, cyc, st) =>
    if gcl.all fun g => g.mask.testBit q then none
    else
      let run := fun (gs : List Gate) => sumBy Gate.dur (gs.takeWhile fun g => g.mask.testBit q)
      if t < st then some (st - t + run (gcl ++ gcl))
      else match entryAt gcl ((t - st) % cyc) with
        | (_ :: gs, left) => some (left + run (gs ++ gcl ++ gcl))
        | _ => none

/-- GATE_CHANGE (R463, R464): the clock reaches the next entry boundary. -/
def execGateChange (s : State) : Host.Outcome State Fault Refusal :=
  match schedule s with
  | none => .next s
  | some (gcl, cyc, st) =>
    let s := s.at (nextBoundary gcl cyc st s.now)
    .next { s with port.gates := maskAt s s.now }

/-- Bucket credit at a time (R461): RATE in Mb/s is RATE / 8000 bytes per ns. -/
def bucketAt (rate burst : Nat) (credit : Rat) (since t : Nat) : Rat :=
  min (burst : Rat) (credit + (rate : Rat) * ((t - since : Nat) : Rat) / 8000)

/-- Frames that MACsec never protects (R474). -/
def plainFrame (f : Frame) : Bool :=
  match f.kind with
  | .pdelayReq _ _ | .pdelayResp _ _ _ _ | .pdelayFollowUp _ _ | .pfc _ _ => true
  | _ => false

def macsecOn (s : State) : Bool := match s.port.cfg with | some c => c.macsecEn | none => false

/-- The SA in use can protect one more frame (R476). -/
def txSaReady (s : State) : Bool :=
  match s.port.txAn with
  | some an => s.port.txSas.any fun a => a.an == an && decide (a.pn < 2 ^ 64 - 1)
  | none => false

/-- A queue is eligible (R460): open gate, positive credit, not paused, a frame that passes the gate-close check and that
MACsec lets go. -/
def eligible (s : State) (i : Nat) (q : Queue) : Option Frame :=
  match q.frames with
  | [] => none
  | f :: _ =>
    let fits : Bool := match openLeft s i s.now with | some left => decide (f.count * 5 ≤ left * 1000) | none => true
    let credit := q.rate = 0 || decide (0 < bucketAt q.rate q.burst q.credit q.creditAt s.now)
    let sec := !macsecOn s || plainFrame f || txSaReady s
    if (maskAt s s.now).testBit i && credit && q.paused.isNone && fits && sec then some f else none

/-- One turn of the DWRR set after another, from `turn` (R460): the queue that sends, with the deficits after the additions.
`fresh` says that `turn` has not had its quantum in this turn. -/
def dwrr (s : State) : Nat → Nat → Bool → List Queue → Option (Nat × Bool × List Queue)
  | 0, _, _, _ => none
  | fuel + 1, turn, fresh, qs =>
    let q := qs.getD turn {}
    let next := (turn + 1) % 6
    match eligible s turn q with
    | none => dwrr s fuel next true qs
    | some f =>
      let d := if fresh then q.deficit + q.quantum else q.deficit
      let qs := qs.set turn { q with deficit := d }
      if f.count ≤ d then some (turn, false, qs) else dwrr s fuel next true qs

/-- Put the head frame of a queue on the wire. -/
def transmit (s : State) (i : Nat) (top : Bool) : State :=
  match s.port.queues[i]? with
  | none => s
  | some q => match q.frames with
    | [] => s
    | f :: rest =>
      let s := setQueue s i fun q =>
        { q with frames := rest,
                 deficit := if rest.isEmpty then 0 else if top then q.deficit else q.deficit - f.count,
                 credit := if q.rate = 0 then q.credit else bucketAt q.rate q.burst q.credit q.creditAt s.now - (f.count : Rat),
                 creditAt := s.now,
                 txFrames := (q.txFrames + 1) % 2 ^ 64, txBytes := (q.txBytes + f.count) % 2 ^ 64 }
      let guarded : Bool := macsecOn s && !plainFrame f
      let sas := s.port.txSas.map fun a => if some a.an == s.port.txAn then { a with pn := a.pn + 1 } else a
      let s := if guarded then { s with port.txSas := sas } else s
      let s := match f.kind with
        | .request qp _ _ => mapQp s qp fun q => { q with cc := { q.cc with sent := q.cc.sent + f.count } }
        | _ => s
      { s with port.wire := s.port.wire ++ [{ f with sec := if guarded then s.port.txAn else none }] }

/-- EGRESS_FRAME_BOUNDARY (R460): a waiting SA switch takes effect (R476), then the scheduler takes the next frame. -/
def egressNext (s : State) : State :=
  if !s.port.link then s
  else
    let s := match s.port.txSwitch with
      | some an => { s with port.txAn := some an, port.txSwitch := none }
      | none => s
    let s := { s with port.gates := maskAt s s.now }
    let can := fun i => match s.port.queues[i]? with | some q => (eligible s i q).isSome | none => false
    if can 7 then transmit s 7 true
    else if can 6 then transmit s 6 true
    else match dwrr s 600 s.port.turn (!s.port.served) s.port.queues with
      | none => s
      | some (i, _, qs) => transmit { s with port.queues := qs, port.turn := i, port.served := true } i false

def execEgressFrameBoundary (s : State) : Host.Outcome State Fault Refusal := .next (egressNext s)

/-! ## Scheduler functions and records -/

/-- Waiting frames that no open interval of the list can hold are dropped and counted (R462). -/
def dropLong (s : State) : State :=
  { s with port.queues := s.port.queues.mapIdx fun i q =>
      let keep := q.frames.filter fun f => decide (f.count * 5 ≤ 1000 * longestOpen s.port.gcl i)
      { q with frames := keep, deficit := if keep.isEmpty then 0 else q.deficit, txDrops := (q.txDrops + (q.frames.length - keep.length)) % 2 ^ 64 } }

/-- The list begins with the first cycle that starts at or after now (R463). -/
def beginList (s : State) : State :=
  if s.port.gclOn && s.port.cycle ≠ 0 then
    let s := dropLong s
    let n := ceilDiv (s.now - s.port.base) s.port.cycle
    { s with port.start := some (s.port.base + n * s.port.cycle) }
  else { s with port.start := none }

/-- FUNC of FUNC_STOP and FUNC_START: this row's function, or one Table 19-6 does not have, which completes MALFORMED. -/
def funcIs (f : Nat) (b : Bytes) : Bool := fld b 0 1 == f || decide (fld b 0 1 > 4)

def funcRow (code f : Nat) (g : State → State) (c : Cmd) (s : State) : State :=
  mailRowIf (funcIs f) code .control (fun _ => 8)
    (fun _ b s => if fld b 0 1 > 4 || !zeroAt b 1 7 then .reply s stMALFORMED [] else .reply (g s) stOK []) c s

def execFuncStopEgressSched (c : Cmd) (s : State) : Host.Outcome State Fault Refusal :=
  .next (funcRow 0x0253 0 (fun s => { s with port.schedOn := false, port.start := none }) c s)
def execFuncStartEgressSched (c : Cmd) (s : State) : Host.Outcome State Fault Refusal :=
  .next (funcRow 0x0254 0 (fun s => if s.port.schedOn then s else beginList { s with port.schedOn := true }) c s)
def execFuncStopIngressPolice (c : Cmd) (s : State) : Host.Outcome State Fault Refusal :=
  .next (funcRow 0x0253 1 (fun s => { s with port.policeOn := false }) c s)
/-- Every policer's credit is set to its BURST (Table 19-6). -/
def execFuncStartIngressPolice (c : Cmd) (s : State) : Host.Outcome State Fault Refusal :=
  .next (funcRow 0x0254 1 (fun s =>
    if s.port.policeOn then s
    else { s with port.policeOn := true,
                  port.policers := s.port.policers.map fun p => { p with credit := (p.burst : Rat), creditAt := s.now } }) c s)
def execFuncStopMaceT1 (c : Cmd) (s : State) : Host.Outcome State Fault Refusal :=
  .next (funcRow 0x0253 2 (fun s => { s with hl.maceT1 := false }) c s)
def execFuncStartMaceT1 (c : Cmd) (s : State) : Host.Outcome State Fault Refusal :=
  .next (funcRow 0x0254 2 (fun s => { s with hl.maceT1 := true }) c s)
def execFuncStopMaceT2 (c : Cmd) (s : State) : Host.Outcome State Fault Refusal :=
  .next (funcRow 0x0253 3 (fun s => { s with hl.maceT2 := false }) c s)
def execFuncStartMaceT2 (c : Cmd) (s : State) : Host.Outcome State Fault Refusal :=
  .next (funcRow 0x0254 3 (fun s => { s with hl.maceT2 := true }) c s)
def execFuncStopLink (c : Cmd) (s : State) : Host.Outcome State Fault Refusal :=
  .next (funcRow 0x0253 4 (fun s => { dropLink s with port.held := true }) c s)
def execFuncStartLink (c : Cmd) (s : State) : Host.Outcome State Fault Refusal :=
  .next (funcRow 0x0254 4 (fun s => { s with port.held := false }) c s)

/-! ## PORT_CONFIG -/

def inRange (v lo hi : Nat) : Bool := decide (lo ≤ v ∧ v ≤ hi)

/-- The settings a PORT_CONFIG body spells (Table 16-2). -/
def portCfgOf (b : Bytes) : PortCfg :=
  { mac := fld b 0 6, vlan := fld b 6 2, ipv4 := fld b 8 4, prefix4 := fld b 0xC 1, prefix6 := fld b 0xD 1,
    mtu := bfld b 0xE 1 2 0, macsecEn := flagAt b 0xE 3, pfcMask := fld b 0xF 1, gw4 := fld b 0x10 4,
    ipv6 := fld b 0x18 16, gw6 := fld b 0x28 16, peerDscp := fld b 0x38 1, peerPcp := fld b 0x39 1,
    cnpDscp := fld b 0x3A 1, cnpPcp := fld b 0x3B 1, ctlPcp := fld b 0x3C 1, ackTimeout := fld b 0x3D 1,
    retryCnt := fld b 0x3E 1, txPol := fld b 0x3F 1, rxPol := fld b 0x40 1, xoff := fld b 0x44 4, xon := fld b 0x48 4,
    cnpGap := fld b 0x4C 2, g := fld b 0x4E 2, alphaUs := fld b 0x50 4, incUs := fld b 0x54 4, incBytes := fld b 0x58 4,
    rai := fld b 0x5C 4, rhai := fld b 0x60 4, minRate := fld b 0x64 4, fast := fld b 0x68 1 }

/-- Table 16-2's ranges and reserved fields (R449). -/
def portCfgOk (b : Bytes) : Bool :=
  let c := portCfgOf b
  decide (c.vlan ≤ 4094) && decide (c.prefix4 ≤ 32) && decide (c.prefix6 ≤ 128) && inRange c.mtu 3 5 &&
  bfld b 0xE 1 7 4 == 0 && decide (popcount 8 c.pfcMask ≤ 2) && zeroAt b 0x14 4 && decide (c.peerDscp < 64) &&
  decide (c.peerPcp < 8) && decide (c.cnpDscp < 64) && decide (c.cnpPcp < 8) && decide (c.ctlPcp < 8) &&
  inRange c.ackTimeout 8 20 && decide (c.retryCnt < 8) && zeroAt b 0x41 3 && inRange c.xoff 65536 3145728 &&
  decide (c.xon < c.xoff) && inRange c.cnpGap 1 1000 && inRange c.g 1 65535 && inRange c.alphaUs 1 10000 &&
  inRange c.incUs 1 100000 && inRange c.incBytes 65536 (2 ^ 31) && inRange c.rai 1 100000 && inRange c.rhai 1 400000 &&
  inRange c.minRate 100 1600000 && inRange c.fast 1 15 && zeroAt b 0x69 23 &&
  !(flagAt b 0 0) && !(c.ipv4 = 0 && c.ipv6 = 0)

/-- The fields that may not change while a QP is connected are equal (R449). -/
def portFixed (a b : PortCfg) : Bool :=
  a.mac == b.mac && a.vlan == b.vlan && a.ipv4 == b.ipv4 && a.ipv6 == b.ipv6 && a.prefix4 == b.prefix4 &&
  a.prefix6 == b.prefix6 && a.gw4 == b.gw4 && a.gw6 == b.gw6 && a.mtu == b.mtu && a.macsecEn == b.macsecEn &&
  a.pfcMask == b.pfcMask && a.txPol == b.txPol && a.rxPol == b.rxPol

/-- PORT_CONFIG (R449, R574). -/
def execPortConfig (c : Cmd) (s : State) : Host.Outcome State Fault Refusal :=
  .next (mailRow 0x0260 .control (fun _ => 128) (fun _ b s =>
    if !portCfgOk b then .reply s stMALFORMED []
    else
      let n := portCfgOf b
      let busy := s.nuc.qps.any (fun q => q.state == .connected) &&
        (match s.port.cfg with | some o => !portFixed o n | none => true)
      if busy then .reply s stBUSY []
      else
        let same := match s.port.cfg with
          | some o => o.mac == n.mac && o.ipv4 == n.ipv4 && o.ipv6 == n.ipv6
          | none => false
        let s := { s with port.cfg := some n }
        let s := if s.port.link && !linkReady s then dropLink s else s
        .reply (if same then s else identityChanged s) stOK []) c s)

/-! ## SCHED_CONFIG, POLICER_CONFIG, PTP_CONFIG -/

/-- KIND of SCHED_CONFIG: this row's, or an undefined one, which completes MALFORMED. -/
def schedIs (k : Nat) (b : Bytes) : Bool := fld b 0 1 == k || decide (fld b 0 1 > 1)

def execSchedConfigQueue (c : Cmd) (s : State) : Host.Outcome State Fault Refusal :=
  .next (mailRowIf (schedIs 0) 0x0261 .control (fun _ => 32) (fun _ b s =>
    let q := fld b 1 1
    let quantum := fld b 4 4
    let rate := fld b 8 4
    let burst := fld b 0xC 4
    if fld b 0 1 ≠ 0 || q > 7 || !zeroAt b 2 2 || !zeroAt b 0x10 16 || rate > 1600000 ||
        !inRange burst 1024 16777216 || (if q < 6 then !inRange quantum 256 65536 else quantum ≠ 0) then
      .reply s stMALFORMED []
    else
      .reply (setQueue s q fun k =>
        { k with quantum := quantum, rate := rate, burst := burst,
                 credit := min (burst : Rat) (bucketAt k.rate k.burst k.credit k.creditAt s.now), creditAt := s.now })
        stOK []) c s)

def execSchedConfigGcl (c : Cmd) (s : State) : Host.Outcome State Fault Refusal :=
  .next (mailRowIf (schedIs 1) 0x0261 .control (fun b => 0x20 + 8 * (fld b 0x10 2 % 512)) (fun _ b s =>
    let n := fld b 0x10 2
    let cyc := fld b 0x14 4
    let gs := (List.range n).map fun i => (⟨fld b (0x20 + 8 * i) 1, fld b (0x24 + 8 * i) 4⟩ : Gate)
    if fld b 0 1 ≠ 1 || fld b 1 1 ≠ 0 || fld b 2 1 > 1 || fld b 3 1 ≠ 0 || !zeroAt b 4 12 || !inRange n 1 256 ||
        !zeroAt b 0x12 2 || !inRange cyc 1 1000000000 ||
        (List.range n).any (fun i => !zeroAt b (0x21 + 8 * i) 3) || gs.any (fun g => g.dur = 0) ||
        sumBy Gate.dur gs ≠ cyc then .reply s stMALFORMED []
    else if s.port.schedOn then .reply s stBUSY []
    else .reply { s with port.gclOn := fld b 2 1 == 1, port.gcl := gs, port.cycle := cyc, port.base := fld b 0x18 8 } stOK []) c s)

/-- POLICER_CONFIG (R467). -/
def execPolicerConfig (c : Cmd) (s : State) : Host.Outcome State Fault Refusal :=
  .next (mailRow 0x0262 .control (fun _ => 16) (fun _ b s =>
    let i := fld b 0 2
    let sc := fld b 2 1
    let id := fld b 4 2
    let rate := fld b 8 4
    let burst := fld b 0xC 4
    if i > 1023 || sc > 2 || fld b 3 1 ≠ 0 || !zeroAt b 6 2 || !inRange rate 1 1600000 ||
        !inRange burst 1024 16777216 ||
        (sc ≠ 0 && s.port.policers.any fun p => p.index != i && p.scope == sc && p.id == id) then .reply s stMALFORMED []
    else
      .reply { s with port.policers :=
        (s.port.policers.filter fun p => p.index != i) ++ [⟨i, sc, id, rate, burst, (burst : Rat), s.now⟩] } stOK []) c s)

/-- PTP_CONFIG (R470). -/
def execPtpConfig (c : Cmd) (s : State) : Host.Outcome State Fault Refusal :=
  .next (mailRow 0x0264 .control (fun _ => 32) (fun _ b s =>
    let lp := signed 8 (fld b 3 1)
    if fld b 0 1 > 127 || fld b 1 1 > 1 || fld b 2 1 > 7 || lp < -3 || 3 < lp || !inRange (fld b 4 4) 100 1000000 ||
        !inRange (fld b 0x10 4) 1 500000 || !zeroAt b 0x14 12 then .reply s stMALFORMED []
    else
      .reply { s with port.ptp.set := true, port.ptp.domain := fld b 0 1, port.ptp.oneStep := fld b 1 1 == 1, port.ptp.queue := fld b 2 1,
                      port.ptp.logPdelay := lp, port.ptp.lockNs := fld b 4 4,
                      port.ptp.txAsym := signed 32 (fld b 8 4), port.ptp.rxAsym := signed 32 (fld b 0xC 4),
                      port.ptp.ppsUs := fld b 0x10 4 } stOK []) c s)

end Sys2Proof.Machine
end

