-- ==== Sys2Proof/Machine/Keys.lean ====
section
/-! DEFINITION. Wrapped keys, MACsec keys, the life cycle and ownership, evidence (chapters 16 and 17). -/

namespace Sys2Proof.Machine

open Sys2Proof

/-! ## Key-wrap records (R496, R497) -/

def wrapLen : Nat := 0x480 + sigLen

/-- Status an open of a wrap record fails with, or the key. `key` is what decapsulation and AES-GCM give. -/
def openWrap (s : State) (kind : Nat) (w : Bytes) (sig : Option Signed) (key : Option Bytes) : Nat × Bytes :=
  if fld w 0 4 ≠ 0x5052574B || fld w 4 1 ≠ kind || (kind = 2 && !(fld w 5 1 = 0 && fld w 6 2 = 0)) ||
      (kind = 1 && fld w 6 2 = 0) then (stMALFORMED, [])
  else if !ownerVerified s wrapKeyOff (sha3 (cut w 0 0x480)) sig || fld w 8 8 ≤ s.now then (stFENCED, [])
  else match key with
    | some k => (stOK, cut k 0 32)
    | none => (stFENCED, [])

/-! ## MACsec keys (R475, R476) -/

/-- OP of MACSEC_KEY_INSTALL: this row's, or an undefined one, which completes MALFORMED. -/
def opIs (k top : Nat) (b : Bytes) : Bool := fld b 0 1 == k || decide (fld b 0 1 > top)

/-- An operation of MACSEC_KEY_INSTALL, with its common checks. MARK DESIGN CHOICE (log entry 110): FENCED of R481 before MALFORMED
(R12). -/
def macsecRow (op : Nat) (h : Bytes → State → MailRes) (c : Cmd) (s : State) : State :=
  mailRowIf (opIs op 3) 0x0263 .control (fun b => 0x30 + (if fld b 0 1 ≤ 1 then fld b 0x2C 4 else 0)) (fun _ b s =>
    if s.sec.record.isNone then .reply s stFENCED []
    else if fld b 0 1 > 3 || fld b 1 1 > 3 || fld b 2 1 > 3 || fld b 3 1 ≠ 0 || !zeroAt b 0x1C 4 ||
        !macsecOn s then .reply s stMALFORMED []
    else if op ≥ 2 && !zeroAt b 4 0x2C then .reply s stMALFORMED []
    else h b s) c s

/-- The SA a body installs. -/
def saOf (b key : Bytes) : Sa :=
  { an := fld b 1 1, key := key, ssci := fld b 4 4, salt := cut b 0x10 12, pn := fld b 0x20 8, window := fld b 0x28 4 }

/-- The wrap of an install: WRAP_LEN and REPLAY_WIN in range, the record opens. -/
def macsecKey (s : State) (b : Bytes) (sig : Option Signed) (key : Option Bytes) : Nat × Bytes :=
  if fld b 0x2C 4 ≠ wrapLen || fld b 0x28 4 > 2 ^ 30 then (stMALFORMED, [])
  else openWrap s 2 (cut b 0x30 wrapLen) sig key

/-- INSTALL_TRANSMIT_SA: BUSY for the SA in use; the first SA installed comes into use (log entry 10). -/
def execInstallTransmitSa (c : Cmd) (sig : Option Signed) (key : Option Bytes) (s : State) : Host.Outcome State Fault Refusal :=
  .next (macsecRow 0 (fun b s =>
    let an := fld b 1 1
    if s.port.txAn = some an then .reply s stBUSY []
    else
      let (st, k) := macsecKey s b sig key
      if st ≠ stOK then .reply s st []
      else .reply { s with port.txSci := cut b 8 8, port.txSas := putBy (fun a => a.an == an) (saOf b k) s.port.txSas,
                           port.txAn := some (s.port.txAn.getD an) } stOK []) c s)

/-- INSTALL_RECEIVE_SA: frames are accepted under it at once. -/
def execInstallReceiveSa (c : Cmd) (sig : Option Signed) (key : Option Bytes) (s : State) : Host.Outcome State Fault Refusal :=
  .next (macsecRow 1 (fun b s =>
    let (st, k) := macsecKey s b sig key
    if st ≠ stOK then .reply s st []
    else
      let id := fld b 2 1
      let old := ((s.port.rxScs.find? fun r => r.id == id).map RxSc.sas).getD []
      let sc : RxSc := ⟨id, cut b 8 8, putBy (fun a => a.an == fld b 1 1) (saOf b k) old⟩
      .reply { s with port.rxScs := putBy (fun r => r.id == id) sc s.port.rxScs } stOK []) c s)

/-- SWITCH_TRANSMIT_SA: takes effect at the next frame boundary. -/
def execSwitchTransmitSa (c : Cmd) (s : State) : Host.Outcome State Fault Refusal :=
  .next (macsecRow 2 (fun b s =>
    if s.port.txSas.any fun a => a.an == fld b 1 1 then .reply { s with port.txSwitch := some (fld b 1 1) } stOK []
    else .reply s stUNKNOWN []) c s)

/-- DELETE_RECEIVE_SA. -/
def execDeleteReceiveSa (c : Cmd) (s : State) : Host.Outcome State Fault Refusal :=
  .next (macsecRow 3 (fun b s =>
    let id := fld b 2 1
    let an := fld b 1 1
    if s.port.rxScs.any fun r => r.id == id && r.sas.any fun a => a.an == an then
      .reply { s with port.rxScs := mapIf (fun r => r.id == id)
                        (fun r => { r with sas := r.sas.filter fun a => a.an != an }) s.port.rxScs } stOK []
    else .reply s stUNKNOWN []) c s)

/-! ## Tenant keys (R498, R499) -/

/-- KEY_INSTALL: two live generations start the re-key walk (R500). The key journal is part of the configuration copy. -/
def keyInstall (sig : Option Signed) (key : Option Bytes) (b : Bytes) (s : State) : MailRes :=
  if s.sec.record.isNone then .reply s stFENCED []
  else withTenant s (fld b 5 1) fun t =>
    let g := fld b 6 2
    if g ≤ t.keyTop then .reply s stMALFORMED []
    else if t.keys.length ≥ 2 then .reply s stBUSY []
    else
      let (st, k) := openWrap s 1 b sig key
      if st ≠ stOK then .reply s st []
      else
        let new : KeyGen := { gen := g, key := k, ctr := 0, snode := s.pw.node }
        .reply (setTenant s { t with keys := t.keys ++ [new], keyTop := g, rekey := !t.keys.isEmpty, rekeyPos := 0,
                                     hold := if t.hold = some 3 || t.hold = some 2 then none else t.hold }) stOK []

def execKeyInstall (c : Cmd) (sig : Option Signed) (key : Option Bytes) (s : State) : Host.Outcome State Fault Refusal :=
  .next (mailRow 0x0220 .control (fun _ => wrapLen) (fun _ b s => keyInstall sig key b s) c s)

/-! ## The life cycle (R478 to R482) -/

def labelLcs : Bytes := ascii [90, 76, 75, 45, 76, 67, 83]

/-- The digest that VSIG, OSIG and SIG cover (R480). -/
def lcsDigest (op : Nat) (nonce : Bytes) : Bytes := sha3 (labelLcs ++ ident ++ u8 op ++ nonce)

/-- LIFECYCLE_NONCE: a nonce valid for 60 s and one request, replacing the previous one. -/
def execLifecycleNonce (c : Cmd) (s : State) : Host.Outcome State Fault Refusal :=
  .next (mailRowIf (opIs 0 5) 0x0222 .control (fun _ => 0x28) (fun _ b s =>
    if fld b 0 1 ≠ 0 || !zeroAt b 1 7 then .reply s stMALFORMED []
    else
      let (n, s) := s.draw
      let nonce := cut (Config.nonce n) 0 32
      .reply { s with sec.lcsNonce := some (nonce, s.now + 60 * 10 ^ 9) } stOK nonce) c s)

/-- A life-cycle operation: allowed from this state, then its nonce, which it uses up. -/
def lcsRow (op need : Nat) (allow : MailCtx → Bytes → State → Bool) (h : Bytes → Bytes → State → MailRes) (c : Cmd) (s : State) :
    State :=
  mailRowIf (opIs op 5) 0x0222 .control (fun b => if fld b 0 1 = op then 0x28 + need else 0x28) (fun x b s =>
    if fld b 0 1 ≠ op || !zeroAt b 1 7 || !allow x b s then .reply s stMALFORMED []
    else
      let nonce := cut b 8 32
      match s.sec.lcsNonce with
      | some (n, e) =>
        if n == nonce && s.now < e then h nonce b { s with sec.lcsNonce := none } else .reply s stFENCED []
      | none => .reply s stFENCED []) c s

/-- The owner root key of the record in force, over a digest. -/
def ownerRootVerified (s : State) (msg : Bytes) (sig : Option Signed) : Bool := ownerVerified s rootKeyOff msg sig

/-- LIFECYCLE_FIELD. -/
def execLifecycleField (c : Cmd) (sig : Option Signed) (s : State) : Host.Outcome State Fault Refusal :=
  .next (lcsRow 1 sigLen (fun _ _ s => s.sec.lcs == .test) (fun nonce _ s =>
    if verified Config.vendorKey (lcsDigest 1 nonce) sig then .reply { s with sec.lcs := .field } stOK []
    else .reply s stFENCED []) c s)

/-- OWNER_CLAIM, over the sideband mailbox only. -/
def execOwnerClaim (c : Cmd) (s : State) : Host.Outcome State Fault Refusal :=
  .next (lcsRow 2 (8 + 1312)
    (fun x b s => (s.sec.lcs == .test || s.sec.lcs == .field) && s.sec.ownerRoot.isNone && x.box == .sideband && zeroAt b 0x29 7)
    (fun _ b s => .reply { s with sec.ownerRoot := some (sha3 (cut b 0x30 1312)), sec.ownerFlags := fld b 0x28 1 } stOK []) c s)

/-- Offset of the owner area in the boot flash (Table 17-5), and the bytes of an owner record. -/
def ownerArea : Nat := 0x3100000
def recordLen : Nat := 0x14A0 + sigLen

/-- OWNER_RECORD (R481). -/
def execOwnerRecord (c : Cmd) (sig : Option Signed) (s : State) : Host.Outcome State Fault Refusal :=
  .next (lcsRow 3 recordLen (fun _ b s => (s.sec.lcs == .test || s.sec.lcs == .field) && zeroAt (cut b 0x28 recordLen) 8 24) (fun _ b s =>
    let r := cut b 0x28 recordLen
    let root := cut r rootKeyOff 1312
    let seq := (s.sec.record.map fun o => fld o 4 4).getD 0
    if fld r 0 4 ≠ 0x524E574F || fld r 4 4 ≤ seq then .reply s stMALFORMED []
    else if s.sec.ownerRoot ≠ some (sha3 root) || !verified root (sha3 (cut r 0 0x14A0)) sig then .reply s stFENCED []
    else .reply (norWrite { s with sec.record := some r } ownerArea r) stOK []) c s)

/-- LIFECYCLE_VOID: by the owner root key, or by the vendor key in TEST or RETURN. ROM halts at the next reset. -/
def execLifecycleVoid (c : Cmd) (sig : Option Signed) (s : State) : Host.Outcome State Fault Refusal :=
  .next (lcsRow 5 sigLen (fun _ _ s => s.sec.lcs != .void) (fun nonce _ s =>
    let d := lcsDigest 5 nonce
    if ownerRootVerified s d sig ||
        ((s.sec.lcs == .test || s.sec.lcs == .return_) && verified Config.vendorKey d sig) then
      .reply { s with sec.lcs := .void } stOK []
    else .reply s stFENCED []) c s)

/-- JTAG_VENDOR_TOKEN (Table 17-2): vendor debug opens in RETURN only. -/
def execJtagVendorToken (v : JtagToken) (s : State) : Host.Outcome State Fault Refusal :=
  match v.sig with
  | some g =>
    if s.sec.lcs == .return_ && g.key == Config.vendorKey then .next { s with sec.debug := true } else .next s
  | none => .next s

/-! ## Evidence (R491 to R495) -/

/-- The body of the PORT_CONFIG last accepted. -/
def portCfgBytes (c : PortCfg) : Bytes :=
  leBytes 6 c.mac ++ u16 c.vlan ++ u32 c.ipv4 ++ u8 c.prefix4 ++ u8 c.prefix6 ++
  u8 (c.mtu + (if c.macsecEn then 8 else 0)) ++ u8 c.pfcMask ++ u32 c.gw4 ++ zeros 4 ++ leBytes 16 c.ipv6 ++
  leBytes 16 c.gw6 ++ u8 c.peerDscp ++ u8 c.peerPcp ++ u8 c.cnpDscp ++ u8 c.cnpPcp ++ u8 c.ctlPcp ++ u8 c.ackTimeout ++
  u8 c.retryCnt ++ u8 c.txPol ++ u8 c.rxPol ++ zeros 3 ++ u32 c.xoff ++ u32 c.xon ++ u16 c.cnpGap ++ u16 c.g ++
  u32 c.alphaUs ++ u32 c.incUs ++ u32 c.incBytes ++ u32 c.rai ++ u32 c.rhai ++ u32 c.minRate ++ u8 c.fast ++ zeros 23

def ptpCfgBytes (p : PtpSt) : Bytes :=
  if p.set then
    u8 p.domain ++ u8 (if p.oneStep then 1 else 0) ++ u8 p.queue ++ u8 (unsigned 8 p.logPdelay) ++ u32 p.lockNs ++
    u32 (unsigned 32 p.txAsym) ++ u32 (unsigned 32 p.rxAsym) ++ u32 p.ppsUs ++ zeros 12
  else zeros 32

/-- CFG_DIG (R494). -/
def cfgDigest (s : State) : Bytes :=
  sha3 (u16 s.pw.node ++ zeros 6 ++ (match s.port.cfg with | some c => portCfgBytes c | none => zeros 128) ++
    ptpCfgBytes s.port.ptp ++
    (s.port.queues.mapIdx fun i q => u8 0 ++ u8 i ++ zeros 2 ++ u32 q.quantum ++ u32 q.rate ++ u32 q.burst ++ zeros 16).flatten ++
    (if s.port.gcl.isEmpty then zeros 32
     else u8 1 ++ u8 0 ++ u8 (if s.port.gclOn then 1 else 0) ++ zeros 13 ++ u16 s.port.gcl.length ++ zeros 2 ++
       u32 s.port.cycle ++ u64 s.port.base ++ s.port.gcl.flatMap fun g => u8 g.mask ++ zeros 3 ++ u32 g.dur) ++
    (List.range 1024).flatMap fun i => match s.port.policers.find? fun p => p.index == i with
      | some p => u16 i ++ u8 p.scope ++ u8 0 ++ u16 p.id ++ zeros 2 ++ u32 p.rate ++ u32 p.burst
      | none => zeros 16)

/-- KIND of a digest entry (Table 17-10). -/
def kindCode : ObjKind → Nat
  | .plan => 1
  | .weight => 2
  | .table => 3
  | .image => 4
  | .rope => 5

/-- A tenant section (R493). -/
def tenantSection (s : State) (t : Tenant) : Bytes :=
  let objs := sortBy (fun a b => decide (kindCode a.kind < kindCode b.kind) ||
      (kindCode a.kind == kindCode b.kind && decide (a.id < b.id)))
    (s.sq.objs.filter fun o => o.tenant == t.id && !o.gone)
  let old := if t.keys.length ≥ 2 then ((t.keys.head?).map KeyGen.gen).getD 0 else 0
  let new := ((t.keys.getLast?).map KeyGen.gen).getD 0
  u8 t.id ++ u8 t.kvClass ++ u8 t.domain ++ u8 t.bound ++ u16 old ++ u16 new ++ u16 objs.length ++
  u8 (sumBy (fun g => 2 ^ g) t.groups) ++ u8 (if t.rekey then 1 else 0) ++ u32 t.epoch ++ zeros 16 ++
  objs.flatMap fun o => u8 (kindCode o.kind) ++ u8 o.store ++ zeros 2 ++ u32 o.id ++ cut o.digest 0 32

/-- An evidence record over the given tenants, signed by `asig` (R492, R495). -/
def evidenceRecord (s : State) (nonce : Bytes) (ts : List Tenant) (asig : Bytes) : Bytes :=
  let body := (sortBy (fun a b => decide (a.id < b.id)) ts).flatMap (tenantSection s)
  let total := 0x120 + body.length + sigLen
  u32 0x5645584B ++ u16 1 ++ u8 (lcsCode s.sec.lcs) ++ u8 s.sec.ownerFlags ++ u16 s.pw.node ++ u16 siRev ++
  u32 s.sec.fwRev ++ u64 s.now ++ u32 total ++ u16 ts.length ++ u8 s.sec.svn ++ u8 s.sec.svnCount ++ cut nonce 0 32 ++
  ident ++ cut Config.romDigest 0 32 ++ cut s.sec.fwDig 0 32 ++ cfgDigest s ++ rootBytes s ++
  u32 ((s.sec.record.map fun r => fld r 4 4).getD 0) ++ zeros 28 ++ sha3 (kemKey s) ++ body ++ cut asig 0 sigLen

/-- Bytes of a DER object at the start of a run (its tag, length and contents). -/
def derLen (b : Bytes) : Nat :=
  let l := fld b 1 1
  if l < 128 then 2 + l else 2 + (l - 128) + beVal (cut b 2 (l - 128))

def certArea : Nat := 0x3000000

/-- EVIDENCE_GET (R491). -/
def evidenceGet (asig : Bytes) (x : MailCtx) (b : Bytes) (s : State) : MailRes :=
  let part := fld b 0x20 1
  let scope := fld b 0x21 1
  let tid := fld b 0x22 1
  let off := fld b 0x24 4
  let nonce := cut b 0 32
  let own := match x.role with | some (.tenant t) => scope == 1 && tid == t | _ => true
  if part > 3 || scope > 2 || fld b 0x23 1 ≠ 0 || !own then .reply s stMALFORMED []
  else
    let go := fun (s : State) (v : Bytes) =>
      if off ≥ v.length then MailRes.reply s stMALFORMED []
      else
        let d := (v.drop off).take 4000
        MailRes.reply s stOK (u32 v.length ++ u32 d.length ++ d)
    let run := fun (ts : List Tenant) =>
      if part = 0 then
        if off = 0 then
          let v := evidenceRecord s nonce ts asig
          go { s with sec.evidence := putBy (fun e => e.box == x.box) ⟨x.box, nonce, v⟩ s.sec.evidence } v
        else match s.sec.evidence.find? fun e => e.box == x.box with
          | some e => if e.nonce == nonce then go s e.bytes else .reply s stMALFORMED []
          | none => .reply s stMALFORMED []
      else if part = 1 then go s (Config.aliasCert s.sec.cdi1)
      else if part = 2 then go s (norRead s certArea (derLen (norRead s certArea 8)))
      else go s (cut (kemKey s) 0 1184)
    if scope = 1 then withTenant s tid fun t => run [t]
    else run (if scope = 2 then s.own.tenants else [])

def execEvidenceGet (c : Cmd) (asig : Bytes) (s : State) : Host.Outcome State Fault Refusal :=
  .next (mailRow 0x0140 .both (fun _ => 0x28) (evidenceGet asig) c s)

end Sys2Proof.Machine
end

