-- ==== Sys2Proof/Machine/Sideband.lean ====
section
/-! DEFINITION. The sideband: registers and counters, the sideband mailbox, events, MCTP control, PLDM, I3C addressing
(chapter 20, R598). -/

namespace Sys2Proof.Machine

open Sys2Proof

/-- The sideband answers: STBY_3V3 is within its range (R28). -/
def standby (s : State) : Bool := s.pw.boot != .off

def sbSend (s : State) (m : SbMsg) : State := { s with pw.sent := s.pw.sent ++ [m] }

/-- A vendor reply (Table 20-2). -/
def vendorReply (s : State) (cmd tag status addr : Nat) (data : Bytes) : State :=
  sbSend s (.vendor cmd tag status addr data.length data)

/-! ## Registers (Tables 20-6 to 20-14) -/

/-- STATE of SB.STATUS. -/
def bootCode : Boot → Nat
  | .off | .rom => 0
  | .recovery => 1
  | .booting => 2
  | .running => 3
  | .warmReset => 4
  | .saving => 5
  | .saved => 6
  | .failStop => 7
  | .void => 8

def ptpCode : Ptp → Nat
  | .unlocked => 0
  | .locked => 1
  | .holdover => 2

def bit (b : Bool) (i : Nat) : Nat := if b then 2 ^ i else 0

/-- ALERT_N is low: the queue holds a record (R582). -/
def alertLow (s : State) : Bool := !s.nuc.sbEvents.isEmpty

def sbStatus (s : State) : Nat :=
  bootCode s.pw.boot + bit s.port.link 4 + ptpCode s.clock.ptp * 2 ^ 5 + s.pw.pstate * 2 ^ 7 + bit s.pw.saveAct 10 +
  bit (alertLow s) 11 + s.nuc.sbEvents.length * 2 ^ 12 + bit s.nuc.evLost 21

def retiredCount (s : State) : Nat := (s.mem.banks.filter Bank.retired).length

/-- Rb: the banks that are retired or retiring (R532). -/
def retiredOrRetiring (s : State) : Nat := retiredCount s + s.hl.retiring.length

def sbHealth (s : State) : Nat := s.hl.score + s.hl.band * 2 ^ 16 + retiredOrRetiring s * 2 ^ 32

def sbLcs (s : State) : Nat :=
  lcsCode s.sec.lcs + bit s.sec.ownerRoot.isSome 4 + s.sec.ownerFlags * 2 ^ 8 + s.sec.svnCount * 2 ^ 16

def sbFailcause (s : State) : Nat :=
  let f := s.pw.fail
  f.code + f.site * 2 ^ 8 + f.stack * 2 ^ 16 + unsigned 16 f.temp * 2 ^ 32

def sbSave (s : State) : Nat :=
  let v := s.pw.save
  v.last + v.area * 4 + bit s.fl.areaA.erased 3 + bit s.fl.areaB.erased 4 + v.restore * 2 ^ 5 + v.time * 2 ^ 16 + v.kib * 2 ^ 32

def sbPower (s : State) : Nat := s.pw.pkgDw + s.pw.stacksDw * 2 ^ 16 + s.pw.dieDw * 2 ^ 32

def tempCode (t : Option Int) : Nat := match t with | some t => unsigned 16 t | none => 0x8000

def sbThermStack (s : State) (i : Nat) : Nat :=
  let k := stackOf s i
  tempCode k.temp + k.step * 2 ^ 16 + bit (!k.hot.isEmpty) 18

def sbThermDie (s : State) : Nat := tempCode s.pw.dieTemp + s.pw.dieStep * 2 ^ 16

/-- The register at an offset of Table 20-4; an address of the range that no register has reads 0. -/
def sbReg (s : State) (o : Nat) : Nat :=
  if o = 0 then sbStatus s
  else if o = 0x08 then sbHealth s
  else if o = 0x10 then sbLcs s
  else if o = 0x18 then sbFailcause s
  else if o = 0x20 then s.pw.fail.npa
  else if o = 0x28 then sbSave s
  else if o = 0x30 then sbPower s
  else if 0x100 ≤ o ∧ o < 0x190 then sbThermStack s ((o - 0x100) / 8)
  else if o = 0x190 then sbThermDie s
  else 0

/-- The port counter at an offset (R585). -/
def sbCounter (s : State) (o : Nat) : Nat :=
  let p := s.port
  let q := fun (i : Nat) (f : Queue → Nat) => ((p.queues[i]?).map f).getD 0
  let i := o / 8
  if i < 8 then q i Queue.txFrames
  else if i < 16 then q (i - 8) Queue.txBytes
  else if i < 24 then q (i - 16) Queue.txDrops
  else if i < 1048 then ((p.policeDrops.find? fun d => d.1 == i - 24).map Prod.snd).getD 0
  else if i < 1056 then
    [p.rxUnsupported, p.rxBufferDrops, p.icrcErrors, p.icvFail, p.replay, p.unprotected, p.cnpSent, p.cnpReceived].getD (i - 1048) 0
  else if i < 1064 then p.pfcSent.getD (i - 1056) 0
  else if i < 1072 then p.pfcReceived.getD (i - 1064) 0
  else if i = 1072 then p.fecCorrected
  else p.fecUncorrected

/-- A range of R579: start, and bytes. -/
def sbRanges : List (Nat × Nat) := [(0, 0x1000), (0x10000, 0x198), (0x20000, 0x2190)]

/-- The bytes of a sideband range: the identity block, registers, counters. -/
def sbBytes (s : State) (addr len : Nat) : Bytes :=
  if addr < 0x1000 then cut (identityBlock s) addr len
  else if addr < 0x20000 then (List.range (len / 8)).flatMap fun i => u64 (sbReg s (addr - 0x10000 + 8 * i))
  else (List.range (len / 8)).flatMap fun i => u64 (sbCounter s (addr - 0x20000 + 8 * i))

def sbOk (addr len : Nat) : Bool :=
  addr % 8 == 0 && len % 8 == 0 && decide (len ≤ 1024) &&
  sbRanges.any fun r => decide (r.1 ≤ addr ∧ addr + len ≤ r.1 + r.2)

/-- REG_READ (R579). -/
def execRegRead (tag addr len : Nat) (s : State) : Host.Outcome State Fault Refusal :=
  if !standby s then .next s
  else if sbOk addr len then .next (vendorReply s 0x10 tag stOK addr (sbBytes s addr len))
  else .next (vendorReply s 0x10 tag stMALFORMED addr [])

/-! ## Register writes (R579, R537, R582) -/

/-- SB_STATUS_EVLOST: writing 1 clears EVLOST. -/
def clearEvlost (s : State) : State := { s with nuc.evLost := false }
/-- SB_CTRL_EVFLUSH: every queued sideband event is discarded. -/
def flushEvents (s : State) : State := { s with nuc.sbEvents := [] }
/-- SB_FAILCAUSE_ACK: clears SB.FAILCAUSE and SB.FAILLOC, ignored in FAIL_STOP. -/
def ackFail (s : State) : State := if s.pw.boot == .failStop then s else { s with pw.fail := {} }

def execSbStatusEvlost (s : State) : Host.Outcome State Fault Refusal := if standby s then .next (clearEvlost s) else .next s
def execSbCtrlEvflush (s : State) : Host.Outcome State Fault Refusal := if standby s then .next (flushEvents s) else .next s
def execSbFailcauseAck (s : State) : Host.Outcome State Fault Refusal := if standby s then .next (ackFail s) else .next s

/-! ## The sideband mailbox and events -/

/-- MBOX_WRITE (R578, R581): the inbound half; a write of exactly the command word arms. -/
def execMboxWrite (tag addr : Nat) (data : Bytes) (s : State) : Host.Outcome State Fault Refusal :=
  if !standby s then .next s
  else if s.pw.boot != .running then .next (vendorReply s 0x12 tag stBUSY addr [])
  else if addr + data.length > 8192 || data.length > 1024 then .next (vendorReply s 0x12 tag stMALFORMED addr [])
  else
    let b := s.nuc.sideband
    let s := { s with nuc.sideband := { b with mem := memWrite b.mem addr data } }
    let s := if addr = 0x1FF8 && data.length = 8 then boxWord s .sideband (leNat data) else s
    .next (vendorReply s 0x12 tag stOK addr [])

/-- MBOX_READ (R578): the outbound half. -/
def execMboxRead (tag addr len : Nat) (s : State) : Host.Outcome State Fault Refusal :=
  if !standby s then .next s
  else if s.pw.boot != .running then .next (vendorReply s 0x13 tag stBUSY addr [])
  else if addr + len > 8192 || len > 1024 then .next (vendorReply s 0x13 tag stMALFORMED addr [])
  else .next (vendorReply s 0x13 tag stOK addr (memRead s.nuc.sideband.mem (8192 + addr) len))

/-- EVENT_READ (R578, R582): returns and removes the oldest records. -/
def execEventRead (tag len : Nat) (s : State) : Host.Outcome State Fault Refusal :=
  if !standby s then .next s
  else if len % 32 ≠ 0 || len > 1024 then .next (vendorReply s 0x14 tag stMALFORMED 0 [])
  else
    let n := len / 32
    let d := (s.nuc.sbEvents.take n).flatMap eventBytes
    .next (vendorReply { s with nuc.sbEvents := s.nuc.sbEvents.drop n } 0x14 tag stOK 0 d)

/-! ## MCTP control, PLDM and I3C (R576, R577, R598; log entry 11 for the DMTF formats) -/

/-- Set Endpoint ID, command 0x01: completion code, assignment accepted, the endpoint id, no pool. -/
def execSetEndpointId (eid : Nat) (s : State) : Host.Outcome State Fault Refusal :=
  if !standby s then .next s
  else if eid = 0 || eid ≥ 255 then .next (sbSend s (.control 1 [2]))
  else .next (sbSend { s with pw.eid := eid } (.control 1 ([0, 0] ++ u8 eid ++ [0])))

/-- Get Endpoint ID, command 0x02. -/
def execGetEndpointId (s : State) : Host.Outcome State Fault Refusal :=
  if standby s then .next (sbSend s (.control 2 ([0] ++ u8 s.pw.eid ++ [0, 0]))) else .next s

/-- Get MCTP Version Support, command 0x04: one entry, version 1.0. -/
def execGetMctpVersionSupport (s : State) : Host.Outcome State Fault Refusal :=
  if standby s then .next (sbSend s (.control 4 [0, 1, 0xF1, 0xF0, 0xFF, 0x00])) else .next s

/-- Get Message Type Support, command 0x05: PLDM and vendor-defined IANA beside MCTP control. -/
def execGetMessageTypeSupport (s : State) : Host.Outcome State Fault Refusal :=
  if standby s then .next (sbSend s (.control 5 [0, 3, 0x00, 0x01, 0x7F])) else .next s

/-- The register value a PLDM sensor reports: temperatures in units of 0.125 °C, powers in 0.1 W (R577). -/
def sensorValue (s : State) (id : Nat) : Option (Option Int) :=
  if 1 ≤ id ∧ id ≤ 18 then some (stackOf s (id - 1)).temp
  else if id = 19 then some s.pw.dieTemp
  else if id = 20 then some (some s.pw.pkgDw)
  else if id = 21 then some (some s.pw.stacksDw)
  else if id = 22 then some (some s.pw.dieDw)
  else none

/-- PLDM_SENSOR_READING (R577): completion code, then unavailable or available with the reading. -/
def execPldmSensorReading (id : Nat) (s : State) : Host.Outcome State Fault Refusal :=
  if !standby s then .next s
  else match sensorValue s id with
    | none => .next (sbSend s (.pldm [0x80]))
    | some none => .next (sbSend s (.pldm [0, 1]))
    | some (some v) => .next (sbSend s (.pldm ([0, 0] ++ u32 (unsigned 32 v))))

/-- PLDM_BASE (R576): the answer follows the request's header; GetPLDMTypes and GetPLDMVersion and the terminus commands of
DSP0240 are answered with their completion code (log entry 11). -/
def execPldmBase (req : Bytes) (s : State) : Host.Outcome State Fault Refusal :=
  if !standby s then .next s
  else
    let cmd := fld req 2 1
    let data : Bytes :=
      if cmd = 2 then [0] ++ u8 s.pw.eid
      else if cmd = 4 then [0, 0x05] ++ zeros 7
      else if cmd = 3 then [0] ++ u32 0 ++ [5] ++ [0, 0xF0, 0xF0, 0xF1]
      else if cmd = 5 then [0] ++ zeros 32
      else if cmd = 1 then [0]
      else [5]
    .next (sbSend s (.pldm (u8 (fld req 0 1 % 128) ++ cut req 1 2 ++ data)))

/-- SETDASA (R598): answered at the static address 0x4E while no dynamic address is held. -/
def execSetdasa (static addr : Nat) (s : State) : Host.Outcome State Fault Refusal :=
  if standby s && static = 0x4E && s.pw.dynAddr.isNone then .next { s with pw.dynAddr := some addr } else .next s

/-- ENTDAA (R598). -/
def execEntdaa (addr : Nat) (s : State) : Host.Outcome State Fault Refusal :=
  if standby s && s.pw.dynAddr.isNone then .next { s with pw.dynAddr := some addr } else .next s

end Sys2Proof.Machine
end

