-- ==== Sys2Proof/Machine/Health.lean ====
section
/-! DEFINITION. Health and governors: the error log and health record, buckets, thermal steps, power settings
(chapters 4, 9, 18 and 19). -/

namespace Sys2Proof.Machine

open Sys2Proof

/-! ## The error log and the health record -/

/-- Bytes of an error record (Table 18-4). -/
def errBytes (e : ErrRec) : Bytes :=
  u64 e.recno ++ u64 e.time ++ u8 e.cls ++ u8 e.source ++ u8 e.code ++ u8 (e.requester + e.loctype * 16) ++
  u8 (e.tenant.getD 0) ++ u8 (bit e.tenant.isSome 0 + bit e.repaired 1 + bit e.reported 2 + bit e.lossmark 3) ++
  u16 e.symbols ++ u64 e.loc ++ u64 e.object ++ u8 e.opcode ++ u8 e.bankop ++ u16 e.slot ++ u16 e.lease ++ u16 0 ++
  u64 e.aux ++ u64 0

/-- ERROR_LOG_READ (R526). -/
def execErrorLogRead (c : Cmd) (s : State) : Host.Outcome State Fault Refusal :=
  .next (mailRow 0x0270 .control (fun _ => 8) (fun _ b s =>
    let first := fld b 0 8
    let oldest := ((s.hl.errs.head?).map ErrRec.recno).getD s.hl.nextRec
    let rs := (s.hl.errs.filter fun e => decide (first ≤ e.recno)).take 126
    .reply s stOK (u64 oldest ++ u32 rs.length ++ zeros 4 ++ rs.flatMap errBytes)) c s)

/-- Channels all of whose banks are retired. -/
def retiredChannels (s : State) : Nat :=
  ((List.range 576).filter fun c => (List.range 16).all fun i => (bankOf s (16 * c + i)).retired).length

/-- HEALTH_GET (R535). -/
def execHealthGet (c : Cmd) (s : State) : Host.Outcome State Fault Refusal :=
  .next (mailRow 0x0271 .control (fun _ => 0) (fun _ _ s =>
    let h := s.hl
    .reply s stOK (u16 h.score ++ u8 h.band ++ u8 h.pbad ++ u16 (retiredOrRetiring s) ++
      u16 (retiredChannels s) ++ u16 h.hb ++ u16 h.hu ++ u16 h.hc ++ u16 h.hf ++ u16 h.hs ++ u16 0 ++ u32 h.u24 ++
      u32 h.v24 ++ u32 0 ++ u64 h.ceTotal ++ u64 h.sramCe ++ u64 h.passEnd ++ u64 h.bandSince)) c s)

/-- MACE_RATE_SET (R529). -/
def execMaceRateSet (c : Cmd) (s : State) : Host.Outcome State Fault Refusal :=
  .next (mailRow 0x0272 .control (fun _ => 8) (fun _ b s =>
    if !inRange (fld b 0 4) 60 10080 || fld b 4 1 > 90 || !zeroAt b 5 3 then .reply s stMALFORMED []
    else .reply { s with hl.passMin := fld b 0 4, hl.t2Days := fld b 4 1 } stOK []) c s)

/-! ## The health score (R532, R533) -/

/-! ## Segments of the NAND -/

/-- Segment id of a LUN's block. -/
def segId (ch tg lun blk : Nat) : Nat := ch * 2 ^ 28 + tg * 2 ^ 25 + lun * 2 ^ 23 + blk

def lunCount (g : FlashGeom) : Nat := 16 * g.targets * g.luns

/-- LUN number `i` of the turn across channels, then targets, then LUNs (R363), and its segment for a block. -/
def lunSeg (g : FlashGeom) (i blk : Nat) : Nat := segId (i % 16) (i / 16 % g.targets) (i / 16 / g.targets) blk

/-- The LUN of a segment id. -/
def segLun (id : Nat) : Nat := id / 2 ^ 23

/-- Blocks of each LUN that the save areas take: two areas of 12 MiB on each channel, spread evenly over its LUNs (R367). -/
def saveBlocks (g : FlashGeom) : Nat :=
  2 * ceilDiv (12 * 2 ^ 20) (max 1 (g.targets * g.luns * g.pageMain * g.planes * g.pages))

/-- Blocks of a LUN that the log uses. -/
def logBlocks (g : FlashGeom) : Nat := g.blocks - saveBlocks g

/-- Planes of a segment whose block was factory-marked bad. -/
def factoryBad (g : FlashGeom) (id : Nat) : List Nat := (List.range g.planes).filter fun p => g.bad.contains (4 * id + p)

/-- Log segments of the formatted NAND, and those that cannot be used. -/
def segTotal (s : State) : Nat :=
  match s.fl.geom with
  | some g => lunCount g * logBlocks g
  | none => 0

def segBad (s : State) : Nat :=
  let retired := s.fl.segs.filter fun x => x.use == .retired
  match s.fl.geom with
  | none => retired.length
  | some g =>
    let bad := (distinct (g.bad.map (· / 4))).filter fun id =>
      decide (id % 2 ^ 23 < logBlocks g) && decide ((factoryBad g id).length ≥ g.planes) && !(retired.any fun x => x.id == id)
    retired.length + bad.length

/-- Neither save area is wholly erased since when (Table 18-7). -/
def noteSave (s : State) : State :=
  { s with hl.noSave := if s.fl.areaA.erased || s.fl.areaB.erased then none else some (s.hl.noSave.getD s.now) }

/-- The band that a score gives (Table 18-8). -/
def bandOf (h : Nat) : Nat := if h ≥ 500 then 2 else if h ≥ 100 then 1 else 0

def bandThreshold (b : Nat) : Nat := if b = 2 then 500 else if b = 1 then 100 else 0

/-- Move to a band, with the HEALTH event of a change. -/
def setBand (s : State) (b : Nat) : State :=
  if b = s.hl.band then s
  else raise { s with hl.band := b, hl.bandSince := s.now, hl.better := none } 8 (u8 s.hl.band ++ u8 b)

/-- HEALTH_SAMPLE. -/
def healthSample (s : State) : State :=
  let s := noteSave s
  let rb := retiredOrRetiring s
  let u := (distinct ((s.hl.bad.filter fun x => !x.repaired && recent s x.time).map fun x => npa x.bank x.frame 0)).length
  let v := (s.hl.overflows.filter fun o => recent s o.time).length
  let p := if segTotal s = 0 then 0 else 100 * segBad s / segTotal s
  let hb := 10 * (rb - 460)
  let hu := 40 * u
  let hc := min 200 (3 * v)
  let hf := 10 * (p - 5)
  let hs := match s.hl.noSave with | some t => if s.now > t + 60 * 10 ^ 9 then 500 else 0 | none => 0
  let h := min 1000 (hb + hu + hc + hf + hs)
  let s : State :=
    { s with hl.score := h, hl.hb := hb, hl.hu := hu, hl.hc := hc, hl.hf := hf, hl.hs := hs, hl.u24 := u, hl.v24 := v,
             hl.pbad := p }
  if s.hl.band = 3 then s
  else if bandOf h > s.hl.band then setBand s (bandOf h)
  else if s.hl.band = 0 || h + 50 > bandThreshold s.hl.band then { s with hl.better := none }
  else
    let since := s.hl.better.getD s.now
    if s.now ≥ since + 3600 * 10 ^ 9 then setBand s (bandOf h) else { s with hl.better := some since }

def execHealthSample (s : State) : Host.Outcome State Fault Refusal :=
  if serves s then .next (healthSample s) else .next s

/-- BUCKET_LEAK (R521): a leak tick takes 1 from a bucket that is not empty. -/
def execBucketLeak (channel : Bool) (n : Nat) (s : State) : Host.Outcome State Fault Refusal :=
  if channel then
    if n < 576 then .next (setChannelLevel s n (channelLevel s n - 1)) else .fault .noSuchBank
  else if n < bankCount then
    let k := bankOf s n
    .next (setBank s { k with bucket := k.bucket - 1 })
  else .fault .noSuchBank

/-! ## Temperatures (R132, R137, R268, R547, R548) -/

/-- The step of a derating table: down at the first reading that reaches a threshold, up only at a reading at least 2 °C
below it. Readings are in units of 0.125 °C. -/
def thermalStep (thr : List Int) (old : Nat) (t : Int) : Nat :=
  let reach := (thr.filter fun x => decide (x ≤ t)).length
  let keep := (thr.filter fun x => decide (x - 16 < t)).length
  max reach (min old keep)

/-- The hottest of a list of readings. -/
def hottest : List Int → Option Int
  | [] => none
  | t :: ts => some (ts.foldl max t)

/-- The credit settled at `now` under the old allowance and cut to the new depth (R134). -/
def resettle (s : State) (old new : Stack) : Stack :=
  { new with credit := min (creditDepth new) (creditAtTime old s.now), creditAt := s.now }

/-- STACK_TEMPERATURE_READING: one reading for each die of the stack, lowest die first. -/
def stackReading (s : State) (i : Nat) (temps : List Int) : State :=
  match hottest temps with
  | none => s
  | some t =>
    let k := stackOf s i
    let hot := (List.range temps.length).filter fun d =>
      let x := temps.getD d 0
      decide (x > 664) || (k.hot.contains d && decide (x > 648))
    let n := { k with temp := some t, hot := hot, step := thermalStep [704, 736, 760] k.step t }
    let s := setStack s (resettle s k n)
    if n.step = 3 && k.step ≠ 3 then raise s 5 (u8 i) else s

def execStackTemperatureReading (stack : Nat) (temps : List Int) (s : State) : Host.Outcome State Fault Refusal :=
  if stack < 18 then
    if s.pw.boot == .off then .next s else .next (stackReading s stack temps)
  else .fault .noSuchBank

/-- Array allowance of a group in pJ per ns, after the die's step (R266 to R268). -/
def groupAllowance (s : State) (g : Group) : Nat :=
  let full := g.allowance * 500
  if s.pw.dieStep = 0 then full else if s.pw.dieStep = 1 then full * 3 / 4 else if s.pw.dieStep = 2 then full / 2 else 0

def groupDepth (s : State) (g : Group) : Nat := groupAllowance s g * 10000

/-- A group's credit at `now`. -/
def groupCredit (s : State) (g : Group) : Nat :=
  min (groupDepth s g) (g.credit + groupAllowance s g * (s.now - g.creditAt))

/-- DIE_TEMPERATURE_READING: at the bottom step every cluster runs at 1.0 GHz (R547). -/
def dieReading (s : State) (t : Int) : State :=
  let step := thermalStep [760, 800, 840] s.pw.dieStep t
  let credits := s.arr.groups.map fun g => groupCredit s g
  let s' := { s with pw.dieTemp := some t, pw.dieStep := step,
                     pw.clusters := if step = 3 then s.pw.clusters.map fun _ => 10 else s.pw.clusters }
  { s' with arr.groups := (s.arr.groups.zip credits).map fun p =>
      { p.1 with credit := min (groupDepth s' p.1) p.2, creditAt := s.now } }

def execDieTemperatureReading (temp : Int) (s : State) : Host.Outcome State Fault Refusal :=
  if s.pw.boot == .off then .next s else .next (dieReading s temp)

/-! ## The APP governor (R546, R547, R589) -/

/-- The APP envelope at the die's step, in W. -/
def appEnvelope (s : State) : Nat :=
  if s.pw.dieStep = 0 then s.pw.appW else if s.pw.dieStep = 1 then s.pw.appW * 3 / 4
  else if s.pw.dieStep = 2 then s.pw.appW / 2 else 0

/-- The APP_VID code for a fastest clock, within the DVFS range of 5 to 35. -/
def vidCode (clock : Nat) : Nat := max 5 (min 35 (Config.vidFor clock))

def maxNat (xs : List Nat) : Nat := xs.foldl max 0

/-- The fastest cluster above 1.0 GHz, the higher number on a tie; the slowest below 2.8 GHz, the lower number on a tie. -/
def fastestCluster (cs : List Nat) : Option Nat :=
  let m := maxNat cs
  if m ≤ 10 then none else ((List.range cs.length).filter fun i => cs.getD i 0 == m).getLast?

def slowestCluster (cs : List Nat) : Option Nat :=
  let m := cs.foldl min 28
  if m ≥ 28 then none else ((List.range cs.length).filter fun i => cs.getD i 0 == m).head?

/-- APP_GOVERNOR_STEP with the estimate of each cluster in W. A clock rises only once the code has been raised a step
before; the code falls after the clock. -/
def appStep (s : State) (watts : List Nat) : State :=
  let sum := watts.foldl (· + ·) 0
  let env := appEnvelope s
  if s.pw.dieStep = 3 then
    { s with pw.clusters := s.pw.clusters.map fun _ => 10, pw.appVid := min s.pw.appVid (vidCode 10) }
  else if sum > env then
    match fastestCluster s.pw.clusters with
    | none => s
    | some i =>
      let cs := s.pw.clusters.set i (s.pw.clusters.getD i 10 - 1)
      { s with pw.clusters := cs, pw.appVid := min s.pw.appVid (vidCode (maxNat cs)) }
  else if sum * 100 ≤ env * 95 then
    match slowestCluster s.pw.clusters with
    | none => s
    | some i =>
      let cs := s.pw.clusters.set i (s.pw.clusters.getD i 10 + 1)
      if vidCode (maxNat cs) ≤ s.pw.appVid then { s with pw.clusters := cs }
      else { s with pw.appVid := vidCode (maxNat cs) }
  else s

def execAppGovernorStep (watts : List Nat) (s : State) : Host.Outcome State Fault Refusal :=
  if serves s then .next (appStep s watts) else .next s

/-- POWER_ESTIMATE_UPDATE (R583). -/
def execPowerEstimateUpdate (dieDw stacksDw pkgDw : Nat) (s : State) : Host.Outcome State Fault Refusal :=
  if serves s then .next { s with pw.dieDw := dieDw % 65536, pw.stacksDw := stacksDw % 65536, pw.pkgDw := pkgDw % 65536 }
  else .next s

/-! ## Settings (R544, R545, R550) -/

/-- POWER_LIMIT_SET. -/
def powerLimit (b : Bytes) (s : State) : MailRes :=
  let st := (List.range 18).map fun i => fld b (2 * i) 2
  let gs := (List.range 8).map fun i => fld b (0x24 + i) 1
  let app := fld b 0x2C 2
  if st.any (fun v => !inRange v 120 340) || gs.any (fun v => !inRange v 20 140) || !inRange app 40 200 ||
      !zeroAt b 0x2E 2 || sumBy id st > 6200 || sumBy id gs * 5 + app * 10 + 800 > 8200 then .reply s stMALFORMED []
  else
    let s := (List.range 18).foldl (fun s i =>
      let k := stackOf s i
      setStack s (resettle s k { k with envelope := st.getD i 340 })) s
    let old := s.arr.groups
    .reply { s with pw.appW := app, arr.groups := (List.range 8).map fun i =>
      let g := old.getD i { id := i }
      let n := { g with allowance := gs.getD i 140 }
      { n with credit := min (groupDepth s n) (groupCredit s g), creditAt := s.now } } stOK []

def execPowerLimitSet (c : Cmd) (s : State) : Host.Outcome State Fault Refusal :=
  .next (mailRow 0x0250 .control (fun _ => 0x30) (fun _ b s => powerLimit b s) c s)

end Sys2Proof.Machine
end

