-- ==== Sys2Proof/Machine/Tiers.lean ====
section
/-! DEFINITION. T1 allocation (R48, R49, R139), use and quotas (R320, R321), eviction (R325), page states (R327 to R329). -/

namespace Sys2Proof.Machine

open Sys2Proof

/-! ## Placement -/

/-- The bank that `u` of R48 maps to. -/
def bankOfU (u : Nat) : Nat :=
  let q2 := (u / 18 * 37) % 512
  u % 18 * 512 + q2 / 32 * 32 + q2 / 16 % 2 * 16 + q2 % 16

/-- h0 of R48. -/
def homeBase (a l h : Nat) : Nat := (a * 40503 + l * 7919 + h * 1031) % 9216

/-- Home bank of span index `i` (R48). -/
def homeBank (a l h i : Nat) : Nat := bankOfU ((homeBase a l h + i) % 9216)

/-- Banks to try from `u`, in the order of R49: the home bank, 31 more of its stack, every other in ascending number. -/
def bankOrder (u : Nat) : List Nat :=
  let first := (List.range 32).map fun k => bankOfU ((u + 18 * k) % 9216)
  first ++ (List.range bankCount).filter fun b => !first.contains b

/-! ## Frames in use -/

/-- Runs (first, frames, sealed) that stand in a bank, freed ones that are not yet zero included. -/
def bankRuns (s : State) (b : Nat) : List (Nat × Nat × Bool) :=
  (s.mem.regions.filter fun r => r.bank == b).map (fun r => (r.first, r.frames, r.strength != 0)) ++
  (s.mem.freed.filter fun r => r.bank == b).map (fun r => (r.first, r.frames, r.strength != 0))

def clash (runs : List (Nat × Nat × Bool)) (f n : Nat) : Bool :=
  runs.any fun r => decide (f < r.1 + r.2.1 ∧ r.1 < f + n)

/-- Lowest SEALED frame and the end of the highest OPEN run of a bank. -/
def sealLow (runs : List (Nat × Nat × Bool)) : Nat :=
  (runs.filter fun r => r.2.2).foldl (fun m r => min m r.1) frameCount
def openHigh (b : Nat) (runs : List (Nat × Nat × Bool)) : Nat :=
  (runs.filter fun r => !r.2.2).foldl (fun m r => max m (r.1 + r.2.1)) (openBase b)

/-- First frame of a free run of `n` frames in a bank: OPEN upward from OPEN_BASE, SEALED downward from the last frame
(R139). While an operation runs in the bank, SEAL_BASE stays where it is (R141). -/
def freeRun (s : State) (b n strength : Nat) : Option Nat :=
  let k := bankOf s b
  if k.retired || s.hl.retiring.any (fun r => r.bank == b) then none
  else
    let runs := bankRuns s b
    if strength = 0 then
      let hi := if k.running.isNone then sealLow runs else k.sealBase
      let cs := (openBase b :: runs.map fun r => r.1 + r.2.1).filter fun f =>
        decide (openBase b ≤ f ∧ f + n ≤ hi) && !clash runs f n
      match cs with | [] => none | c :: cs => some (cs.foldl min c)
    else
      let lo := if k.running.isNone then openHigh b runs else k.sealBase
      let cs := (frameCount :: runs.map fun r => r.1).filterMap fun e =>
        if n ≤ e && lo ≤ e - n && !clash runs (e - n) n then some (e - n) else none
      match cs with | [] => none | c :: cs => some (cs.foldl max c)

/-- At a break, SEAL_BASE moves to the lowest SEALED frame (R139, R141). -/
def setSealBase (s : State) (b : Nat) : State :=
  let k := bankOf s b
  if k.running.isNone then setBank s { k with sealBase := sealLow (bankRuns s b) } else s

/-! ## Use and quotas -/

/-- T1 use of a tenant (R320). -/
def t1Use (s : State) (t : Nat) : Nat :=
  sumBy (fun r => if r.tenant = t then r.frames else 0) s.mem.regions

/-- An allocation of `n` frames stays within the tenant's quota. -/
def t1Fits (s : State) (t n : Nat) : Bool :=
  match tenantOf s t with
  | some k => decide (t1Use s t + n ≤ k.t1Frames)
  | none => false

/-- Allocatable T1 with the banks now retired (Table 2-9). -/
def allocatable (s : State) : Nat := 369803264 - 40240 * retiredCount s

/-- Span frames of Table 2-4, check area included. -/
def spanRun (fmt dim strength : Nat) : Nat := withCheck (spanFrames fmt dim) strength

/-! ## Freeing and eviction -/

/-- A region goes back: its frames wait for older requests (R25) and for zeroing (R504). -/
def freeRegion (s : State) (r : Region) : State :=
  { s with mem.regions := s.mem.regions.erase r,
           mem.freed := s.mem.freed ++ [⟨r.tenant, r.bank, r.first, r.frames, r.strength, s.sq.gen, r.use, r.owner⟩] }

def spanRegion (s : State) (x : Span) : Option Region :=
  s.mem.regions.find? fun r => r.bank == x.bank && r.first == x.frame && r.use == .span

def freeSpanFrames (s : State) (x : Span) : State :=
  match spanRegion s x with
  | some r => freeRegion s r
  | none => s

/-- A page is dirty if WR > DROWS (R327). -/
def dirty (p : PageSt) : Bool := decide (p.wr > p.drows)

def seqByAlias (s : State) (a : Nat) : Option Seq := s.sq.seqs.find? fun q => q.als == a

/-- A migration that is not yet over names the sequence's handle. -/
def migOf (s : State) (h : Nat) : Option Mig :=
  s.fl.migs.find? fun m => m.seqs.contains h && m.state != .installed && m.state != .stubbed

/-- R325: RESIDENT, wholly below C, every page clean, not the target of a migration. -/
def evictable (s : State) (x : Span) : Bool :=
  match seqByAlias s x.als with
  | some q => x.state == .resident && decide ((x.idx + 1) * 1024 ≤ q.len) && x.pages.all (fun p => !dirty p) &&
      x.flash.isSome && (migOf s q.handle).isNone
  | none => false

/-- Publish FLASH_ONLY and free the frames (R325). -/
def evict (s : State) (x : Span) : State :=
  publish (freeSpanFrames s x) { x with state := .flashOnly, bank := 0, frame := 0 }

/-- Evictable spans of a tenant in the order of R325. -/
def evictList (s : State) (t : Nat) : List Span :=
  sortBy (fun a b => decide (a.lastRead < b.lastRead) ||
      (a.lastRead == b.lastRead && decide (spanId a.als a.layer a.head a.idx < spanId b.als b.layer b.head b.idx)))
    (s.sq.spans.filter fun x => x.tenant == t && evictable s x)

/-- Evict until `ok` holds or none is left (Table 12-3). -/
def evictUntil (ok : State → Bool) : List Span → State → State
  | [], s => s
  | x :: xs, s => if ok s then s else evictUntil ok xs (evict s x)

/-! ## Zeroing of freed frames (R25, R42, R504) -/

/-- No request armed under the freed frames' generation is still to complete (R25). -/
def genOver (s : State) (g : Nat) : Bool := !(s.eng.reqs.any fun r => decide (r.snapGen ≤ g))

/-- Freed frames can be zeroed now: FILL_ZERO of OPEN ones is a bank operation (R137), SEALED ones are written over the pins. -/
def canZero (s : State) (x : Freed) : Bool :=
  genOver s x.gen && atBreak s x.bank && (x.strength != 0 || (stackOf s (x.bank / 512)).step != 3)

/-- Zero the frames of one freed run; OPEN ones by FILL_ZERO at its charge, SEALED ones with their check records over the pins. -/
def zeroRun (s : State) (x : Freed) : State :=
  let gone := fun (a : Nat) => decide (npa x.bank x.first 0 ≤ a ∧ a < npa x.bank (x.first + x.frames) 0)
  let st := stackOf s (x.bank / 512)
  let s := if x.strength = 0 then
      setStack s { st with credit := creditAtTime st s.now - 90 * 256 * x.frames, creditAt := s.now } else s
  setSealBase { s with mem.t1 := memZero s.mem.t1 (npa x.bank x.first 0) (4096 * x.frames), mem.freed := s.mem.freed.erase x,
                       mem.ue := s.mem.ue.filter fun a => !gone a, hl.events := s.hl.events.filter fun a => !gone a } x.bank

/-- Zero every freed run that can be zeroed now. -/
def zeroAll (s : State) : State := (s.mem.freed.filter (canZero s)).foldl zeroRun s

/-! ## Allocation -/

/-- Take a run in the first bank of a list that can hold it. -/
def placeIn (s : State) (t n strength : Nat) (use : Use) (owner : Nat) (banks : List Nat) : Option (Region × State) :=
  banks.findSome? fun b => match freeRun s b n strength with
    | some f =>
      let r : Region := ⟨t, b, f, n, strength, use, owner⟩
      some (r, setSealBase { s with mem.regions := s.mem.regions ++ [r] } b)
    | none => none

/-- Take frames within the quota (R320); where no frame is free, freed ones are zeroed first. -/
def tryPlace {α : Type} (t n : Nat) (go : State → Option α) (s : State) : Option α :=
  if t1Fits s t n then
    match go s with
    | some r => some r
    | none => if s.mem.freed.any (canZero s) then go (zeroAll s) else none
  else none

/-- Evict the tenant's evictable spans one by one until an allocation fits (Table 12-3). -/
def evictFor {α : Type} (go : State → Option α) : List Span → State → Option α
  | [], _ => none
  | x :: xs, s => match go (evict s x) with
    | some r => some r
    | none => evictFor go xs (evict s x)

def fit {α : Type} (s : State) (t n : Nat) (go : State → Option α) : Option α :=
  match tryPlace t n go s with
  | some r => some r
  | none => evictFor (tryPlace t n go) (evictList s t) s

/-- Allocate frames in the first bank of a list that can hold them (Table 12-3, R68). -/
def allocate (s : State) (t n strength : Nat) (use : Use) (owner : Nat) (banks : List Nat) : Option (Region × State) :=
  fit s t n fun s => placeIn s t n strength use owner banks

/-- Data frames of the regions that an object of `n` data frames is cut into: 512 and a rest (log entry 15). -/
def pieces (n : Nat) : List Nat := (List.range (ceilDiv n 512)).map fun i => min 512 (n - 512 * i)

/-- Banks for a tenant's next region, one u of R48 after another (log entry 15). -/
def pieceBanks (s : State) (t : Nat) : List Nat := bankOrder ((t * 40503 + s.mem.regions.length) % 9216)

/-- Allocate the regions of an object of `n` data frames (R261, R284, R302; log entry 15). -/
def allocatePool (s : State) (t n strength : Nat) (use : Use) (owner : Nat) : Option State :=
  fit s t (sumBy (fun k => withCheck k strength) (pieces n)) fun s =>
    (pieces n).foldl (fun (a : Option State) k =>
      a.bind fun s => (placeIn s t (withCheck k strength) strength use owner (pieceBanks s t)).map Prod.snd) (some s)

/-- Frames that an object of `n` data frames takes, check frames included. -/
def poolFrames (n strength : Nat) : Nat := sumBy (fun k => withCheck k strength) (pieces n)

/-- An allocation that still does not fit leaves every evictable span of the tenant evicted (Table 12-3). -/
def starved (s : State) (t : Nat) : State := evictUntil (fun _ => false) (evictList s t) s

/-- Free every region of an owner. -/
def freeOwned (s : State) (use : Use) (t owner : Nat) : State :=
  (poolOf s use t owner).foldl freeRegion s

/-! ## Writing pages with their checks -/

/-- The frames of page `p` of a span, as data-frame numbers of its region. -/
def pageFrames (x : Span) (p : Nat) : List Nat :=
  let pb := pageBytes x.fmt x.dim
  let lo := p * pb / 4096
  (List.range ((p * pb + pb - 1) / 4096 + 1 - lo)).map (lo + ·)

/-- What a reader of a page over the pins gets: its bytes, or the SOURCE of the error it met (Table 18-5). -/
structure PageRead where
  bytes  : Option Bytes
  source : Nat
  deriving DecidableEq, Repr

/-- Read a page over the pins: an OPEN one against on-die ECC and its tag (R56), a SEALED one through the decoder (R55). -/
def readPage (s : State) (x : Span) (p : Nat) (e : FrameEnv) (requester : Nat) : PageRead × State :=
  let pb := pageBytes x.fmt x.dim
  let a := x.frame * 4096 + p * pb
  if x.strength = 0 then
    let f := a / 4096
    let s := applyFlips s x.bank f e
    let s := if e.ue then ueMark s x.bank f else s
    let s := if e.ondie then correctionEvent s x.bank f 1 1 requester else s
    let v := t1Read s x.bank a pb
    if ueIn s x.bank a pb then (⟨none, 1⟩, s)
    else if leNat (t1Read s x.bank (tagAddr a) 4) = crc32c v then (⟨some v, 0⟩, s) else (⟨none, 4⟩, s)
  else
    let fs := pageFrames x p
    let base := fs.headD 0
    let (v, s) := readRun s x.bank (x.frame + base) fs.length e requester
    (⟨v.map fun v => cut v (p * pb - base * 4096) pb, if v.isSome then 0 else 2⟩, s)

/-- Write a whole page with its tag, or the frames it touches through the encoder (R47, R55, R192); a frame it shares keeps the rest. -/
def writePage (s : State) (x : Span) (p : Nat) (v : Bytes) : State :=
  let pb := pageBytes x.fmt x.dim
  let a := x.frame * 4096 + p * pb
  if x.strength = 0 then t1Write (pinWrite s x.bank a v) x.bank (tagAddr a) (u32 (crc32c v))
  else if pb % 4096 = 0 then (pageFrames x p).foldl (fun s f => writeFrame s x.bank (x.frame + f) (cut v (f * 4096 - p * pb) 4096)) s
  else
    let f := x.frame + p * pb / 4096
    match readFrame s x.bank f cleanFrame 0 with
    | (rd, s) => writeFrame s x.bank f (patch (rd.bytes.getD (t1Read s x.bank (f * 4096) 4096)) (p * pb % 4096) v)

/-- The sketch array entry of a page, of either class (R40, R58). -/
def sketchPlace (x : Span) (p : Nat) : Nat := sketchAddr (x.frame * 4096 + p * pageBytes x.fmt x.dim)
def storeSk (s : State) (x : Span) (p sk : Nat) : State := pinWrite s x.bank (sketchPlace x p) (leBytes 32 sk)

/-- The stored sketch of a page; none where its word is uncorrectable (R205, R216). -/
def loadSk (s : State) (x : Span) (p : Nat) : Option Nat :=
  if ueIn s x.bank (sketchPlace x p) 32 then none else some (leNat (t1Read s x.bank (sketchPlace x p) 32))

/-- Every page tag of a new OPEN span is that of an all-zero page (R42). -/
def tagNew (s : State) (x : Span) : State :=
  if x.strength = 0 then
    let tag := u32 (crc32c (zeros (pageBytes x.fmt x.dim)))
    (List.range 64).foldl (fun s p => t1Write s x.bank (tagAddr (x.frame * 4096 + p * pageBytes x.fmt x.dim)) tag) s
  else s

/-! ## Durable length -/

/-- Leading durable rows of a list of page states. -/
def durablePrefix : List PageSt → Nat
  | [] => 0
  | p :: ps => if p.drows ≥ 16 then 16 + durablePrefix ps else p.drows

/-- The page states of a layer and KV head in ascending position, up to the first span it does not hold. -/
def headPages (s : State) (a l h : Nat) : Nat → Nat → List PageSt
  | 0, _ => []
  | n + 1, i => match spanOf s a l h i with
    | some x => x.pages ++ headPages s a l h n (i + 1)
    | none => []

/-- Dl (R329). -/
def durable (s : State) (q : Seq) : Nat :=
  (List.range q.layers).foldl (fun m l => (List.range q.kvh).foldl (fun m h =>
    min m (durablePrefix (headPages s q.als l h (ceilDiv q.len 1024) 0))) m) q.len

/-- R330's bound for a length under a loss bound. -/
def boundOf (l c : Nat) : Nat := 16 * l + c % 16

/-! ## Page states under writes (R328) -/

/-- A write of rows `r` and above of a page. -/
def pageWritten (r : Nat) (p : PageSt) : PageSt :=
  { p with drows := min p.drows r, lw := if p.snap.isSome then min p.lw r else p.lw }

def mapPage (x : Span) (p : Nat) (f : PageSt → PageSt) : Span := { x with pages := x.pages.mapIdx fun i y => if i = p then f y else y }

/-- SHAPE byte (Table 2-5, byte 0x0B). -/
def shapeOf (x : Span) : Nat := x.dim + x.fmt * 4 + (if x.strength = 0 then 0 else 16) + x.strength * 32

/-- A span-table entry (Table 2-5). -/
def spanBytes (x : Span) : Bytes :=
  let here := x.state == .resident || x.state == .moving
  u64 (spanId x.als x.layer x.head x.idx + x.tenant * 2 ^ 48) ++ u16 x.gen ++
  u8 (match x.state with | .resident => 1 | .flashOnly => 2 | .moving => 3 | .stub => 4) ++ u8 (shapeOf x) ++
  u8 (pagesUsed x) ++ zeros 3 ++ u16 (if here then x.bank else 0) ++ u16 (if here then x.frame else 0) ++
  u32 (x.flash.getD 0xFFFFFFFF) ++ zeros 8

end Sys2Proof.Machine
end

