-- ==== Sys2Proof/Machine/T2.lean ====
section
/-! DEFINITION. T2: the segments and records of the log (R361 to R365), the sealed block (R345, R352, R354, R355), reading and
loss (R356, R357), versions, quotas and installs (R321, R326, R346). -/

namespace Sys2Proof.Machine

open Sys2Proof

/-! ## Segments -/

def segOf (s : State) (id : Nat) : Seg :=
  match s.fl.segs.find? fun x => x.id == id with
  | some x => x
  | none => { id := id, bad := match s.fl.geom with | some g => factoryBad g id | none => [] }
def setSeg (s : State) (x : Seg) : State := { s with fl.segs := putBy (fun y => y.id == x.id) x s.fl.segs }

/-- Main bytes of a segment on its good planes. -/
def segCap (g : FlashGeom) (x : Seg) : Nat := (g.planes - x.bad.length) * g.pages * g.pageMain

def segUsable (g : FlashGeom) (x : Seg) : Bool := decide (0 < segCap g x) && x.use != .retired

/-- The free segment of a LUN with the lowest erase count, the lower id on a tie (R363). -/
def freeSeg (s : State) (g : FlashGeom) (i : Nat) : Option Seg :=
  ((List.range (logBlocks g)).filterMap fun b =>
    let x := segOf s (lunSeg g i b)
    if x.use == .free && segUsable g x then some x else none).foldl (fun m x =>
      match m with | none => some x | some y => if x.erases < y.erases then some x else some y) none

/-- Free segments of the log. -/
def freeCount (s : State) (g : FlashGeom) : Nat :=
  sumBy (fun i => ((List.range (logBlocks g)).filter fun b =>
    let x := segOf s (lunSeg g i b)
    x.use == .free && segUsable g x).length) (List.range (lunCount g))

/-- Usable T2 in 64 KiB units: 90 % of the main bytes of the good log segments (R365). -/
def usableT2 (s : State) : Nat :=
  match s.fl.geom with
  | none => 0
  | some g => sumBy (fun i => sumBy (fun b =>
      let x := segOf s (lunSeg g i b)
      if x.use == .retired then 0 else segCap g x) (List.range (logBlocks g))) (List.range (lunCount g)) * 9 / 10 / 65536

/-! ## Records -/

/-- Bytes a record takes: header and payload, padded to 64 (R361). -/
def recBytes (n : Nat) : Nat := roundUp (32 + n) 64

/-- A place of `n` bytes on a LUN's open segment, closing a full one and opening the next. -/
def placeOn (s : State) (g : FlashGeom) (use : SegUse) (i n : Nat) : Option (Nat × Nat × State) :=
  let cur := s.fl.segs.find? fun x => x.use == use && segLun x.id == segLun (lunSeg g i 0)
  let fits := match cur with | some x => decide (x.fill + n ≤ segCap g x) | none => false
  if fits then
    match cur with
    | some x => some (x.id, x.fill, setSeg s { x with fill := x.fill + n })
    | none => none
  else
    match freeSeg s g i with
    | none => none
    | some y =>
      let s := match cur with | some x => setSeg s { x with use := .closed } | none => s
      if n ≤ segCap g y then some (y.id, 0, setSeg s { y with use := use, fill := n }) else none

/-- A place for a record, in turn over the LUNs (R363). -/
def place (s : State) (reloc : Bool) (n : Nat) : Option (Nat × Nat × State) :=
  match s.fl.geom with
  | none => none
  | some g =>
    (List.range (lunCount g)).findSome? fun k =>
      let i := (s.fl.turn + k) % lunCount g
      match placeOn s g (if reloc then .reloc else .flush) i n with
      | some (seg, off, s) =>
        let t := (i + 1) % lunCount g
        some (seg, off, { s with fl.turn := t })
      | none => none

/-- Append a record with the next LSN; none where no segment can hold it. -/
def logAppend (s : State) (reloc : Bool) (typ block obj gen : Nat) (payload : Bytes) (ver : Option FObj) :
    Option (LogRec × State) :=
  match place s reloc (recBytes payload.length) with
  | none => none
  | some (seg, off, s) =>
    let r : LogRec := ⟨s.fl.lsn + 1, seg, off, typ, block, obj, gen, payload, ver⟩
    some (r, { s with fl.lsn := r.lsn, fl.log := s.fl.log ++ [r] })

def recOf (s : State) (lsn : Nat) : Option LogRec := s.fl.log.find? fun r => r.lsn == lsn

/-- Log address of a record. -/
def locOf (r : LogRec) : Nat := r.seg * 2 ^ 32 + r.off

/-! ## Versions -/

def objOf (s : State) (idx : Nat) : Option FObj := s.fl.objs.find? fun v => v.idx == idx
def setObj (s : State) (v : FObj) : State := { s with fl.objs := putBy (fun x => x.idx == v.idx) v s.fl.objs }

def blkLsns (v : FObj) : List Nat := v.blocks.filterMap fun b => match b with | .at l => some l | _ => none

/-- LSNs of a version's current records. -/
def objLsns (v : FObj) : List Nat := v.index :: blkLsns v

def lsnBytes (s : State) (l : Nat) : Nat := match recOf s l with | some r => recBytes r.payload.length | none => 0

/-- Stored bytes in units of 65,536 (R321). -/
def objUnits (s : State) (v : FObj) : Nat := ceilDiv (sumBy (lsnBytes s) (objLsns v)) 65536

/-- T2 use of a tenant (R321). -/
def t2Use (s : State) (t : Nat) : Nat := sumBy (fun v => if v.tenant = t then objUnits s v else 0) s.fl.objs

/-- OBJECT field of a version's records: Table 13-1 offset 0x08, or R352's for a stored object. -/
def objField (v : FObj) : Nat :=
  match v.kind with
  | .stored k i => i % 2 ^ 32 + kindCode k * 2 ^ 32 + 255 * 2 ^ 40 + v.tenant * 2 ^ 48
  | _ => v.spanId + v.tenant * 2 ^ 48

/-- The span-object header (Table 13-1). -/
def spanHeader (v : FObj) : Bytes :=
  u32 0x4F534B5A ++ u8 1 ++ u8 v.shape ++ u8 v.blocks.length ++ u8 v.table ++ u64 (v.spanId + v.tenant * 2 ^ 48) ++
  u64 v.seq ++ u16 v.gen ++ zeros 6 ++ u32 v.committed ++ u32 0 ++ cut v.tdig 0 8 ++ zeros 16

/-- LOC and LEN of an index entry (R344); LEN counts the record's padding (DEDUCED, log entry 119). -/
def entryBytesOf (s : State) (b : BlkRef) : Bytes :=
  match b with
  | .unwritten => u64 (2 ^ 64 - 1) ++ u32 0xFFFFFFFF ++ u32 0
  | .lost => u64 (2 ^ 64 - 1) ++ u32 0 ++ u32 0
  | .at l => match recOf s l with
    | some r => u64 (locOf r) ++ u32 (recBytes r.payload.length) ++ u32 0
    | none => u64 (2 ^ 64 - 1) ++ u32 0 ++ u32 0

/-- Payload of an INDEX record: header and index table, or R352's fields for a stored object. -/
def indexPayload (s : State) (v : FObj) : Bytes :=
  match v.kind with
  | .stored _ i => v.meta_ ++ u32 i ++ v.tdig ++ v.blocks.flatMap (fun b => (entryBytesOf s b).take 12)
  | _ => spanHeader v ++ v.blocks.flatMap (entryBytesOf s)

/-- Append a version's INDEX record and publish it (R362). -/
def publishVer (s : State) (v : FObj) : Option State :=
  match logAppend s false 1 0 (objField v) v.gen (indexPayload s v) (some v) with
  | none => none
  | some (r, s) => some (setObj s { v with index := r.lsn })

/-- Delete an object: a DELETE record, then its map entry goes (R362). -/
def deleteObj (s : State) (idx : Nat) : State :=
  match objOf s idx with
  | none => s
  | some v =>
    let s := match logAppend s false 4 0 (objField v) v.gen [] (some v) with | some (_, s) => s | none => s
    { s with fl.objs := s.fl.objs.filter fun x => x.idx != idx }

/-- Free a span's T2 copy. -/
def freeFlash (s : State) (x : Span) : State := match x.flash with | some i => deleteObj s i | none => s

/-! ## Holds (Table 12-3) -/

/-- A flush of the tenant is held: one T2_HOLD event for each hold (R323). -/
def holdT2 (s : State) (t cause : Nat) (blk : Nat × Nat) : State :=
  match tenantOf s t with
  | none => s
  | some k =>
    if k.hold.isSome then s
    else raise (setTenant s { k with hold := some cause, holdOf := blk }) 2 (u8 t ++ u8 cause)

/-! ## Sealing (R345, R354, R355) -/

def labelSeal : Bytes := ascii [90, 76, 75, 45, 83, 69, 65, 76]

def blockKey (key : Bytes) (snode : Nat) : Bytes := sha3 (key ++ labelSeal ++ u16 snode)

/-- The newest key generation of a tenant. -/
def newestKey (t : Tenant) : Option KeyGen :=
  t.keys.foldl (fun m k => match m with | none => some k | some j => if k.gen > j.gen then some k else some j) none

def keyGenOf (t : Tenant) (g : Nat) : Option KeyGen := t.keys.find? fun k => k.gen == g

/-- Take the tenant's next seal counter; none without a generation or at the limit (R355, R414). -/
def takeCtr (s : State) (t : Nat) : Option (KeyGen × State) :=
  match tenantOf s t with
  | none => none
  | some k => match newestKey k with
    | none => none
    | some g =>
      if g.ctr ≥ 0xFFFFFFFF then none
      else
        let s := mapTenant s t fun k => { k with keys := mapIf (fun x => x.gen == g.gen) (fun x =>
          { x with ctr := g.ctr + 1, warned := x.warned || decide (g.ctr + 1 ≥ 0xF0000000) }) k.keys }
        some (g, if g.ctr + 1 ≥ 0xF0000000 && !g.warned then raise s 3 (u8 t ++ u8 0 ++ u16 g.gen) else s)

/-- The cause of the hold that a tenant without a usable counter meets. -/
def keyCause (s : State) (t : Nat) : Nat :=
  match tenantOf s t with
  | some k => if k.keys.isEmpty then 3 else 2
  | none => 3

/-- The first 16 bytes of a sealed block (Table 13-2). -/
def sealHead (ctr bgen bkey snode cap : Nat) (coded : Bool) (block : Nat) : Bytes :=
  u32 ctr ++ u16 bgen ++ u16 bkey ++ u16 snode ++ u16 cap ++ u8 (if coded then 1 else 0) ++ u8 block ++ u16 0

/-- Seal a plaintext; `span` fills the IV's six bytes and `aad` header bytes 0x08 to 0x17 (R354; log entry 17 for a stored
object's `aad`). -/
def sealBlock (key : Bytes) (hd : Bytes) (span : Nat) (aad pt : Bytes) : Bytes :=
  let (ct, tag) := gcmSeal (blockKey key (fld hd 8 2)) (leBytes 6 span ++ cut hd 4 2 ++ cut hd 0 4) (aad ++ hd) pt
  hd ++ ct ++ tag

/-- Open a sealed block under the tenant's key of its BKEY. -/
def openSealed (t : Tenant) (span : Nat) (aad b : Bytes) : Option Bytes :=
  let hd := cut b 0 16
  match keyGenOf t (fld hd 6 2) with
  | none => none
  | some k =>
    if b.length < 32 then none
    else gcmOpen (blockKey k.key (fld hd 8 2)) (leBytes 6 span ++ cut hd 4 2 ++ cut hd 0 4) (aad ++ hd)
      ((b.drop 16).take (b.length - 32)) (b.drop (b.length - 16))

def aadOf (v : FObj) : Bytes := cut (spanHeader v) 8 16

/-! ## Coding (R347 to R349) -/

def tableObj (s : State) (id : Nat) : Option Obj := s.sq.objs.find? fun o => o.kind == .table && o.id == id && !o.gone

def tableLog (b : Bytes) : Nat := fld b 4 1
def tableFreq (b : Bytes) : List Nat := (List.range 256).map fun i => fld b (0x10 + 2 * i) 2

/-- A payload that the encoder offers is taken if R347 allows and R349 reads it back to the raw bytes. -/
def codedOk (tab raw payload : Bytes) : Bool :=
  raw.all (fun x => decide (0 < (tableFreq tab).getD x.toNat 0)) && decide (payload.length < 65536) &&
  tansDecode (tableLog tab) (tableFreq tab) 65536 payload == some raw

/-! ## Reading (R356) -/

/-- The sealed block that a record carries. -/
def sealedOf (r : LogRec) : Bytes := if r.typ = 3 then r.payload.drop 64 else r.payload

/-- Steps 2 to 5 of R356 on a block of a version: the raw bytes. -/
def openBlock (s : State) (v : FObj) (i : Nat) : Option Bytes :=
  match v.blocks[i]? with
  | some .unwritten => some (zeros 65536)
  | some (.at l) =>
    match recOf s l, tenantOf s v.tenant with
    | some r, some t =>
      let b := sealedOf r
      let (span, aad) := if r.typ = 3 then (fld r.payload 8 6, cut r.payload 8 16) else (v.spanId, aadOf v)
      if !((r.typ = 2 || r.typ = 3) && r.block = i && r.obj = objField v) then none
      else match openSealed t span aad b with
        | none => none
        | some pt =>
          let payload := pt.take (pt.length - 8)
          let tr := pt.drop (pt.length - 8)
          let raw : Option Bytes :=
            if flagAt b 12 0 then
              match s.sq.objs.find? fun o => o.kind == .table && !o.gone && o.digest.take 8 == v.tdig.take 8 with
              | some o => tansDecode (tableLog o.bytes) (tableFreq o.bytes) 65536 payload
              | none => none
            else if payload.length = 65536 then some payload else none
          match raw with
          | some x => if pt.length ≥ 8 && fld tr 4 4 = 65536 && fld tr 0 4 = crc32c x then some x else none
          | none => none
    | _, _ => none
  | _ => none

/-- Main pages that reading a record takes, counted for read disturb. -/
def countReads (s : State) (v : FObj) (i : Nat) : State :=
  match v.blocks[i]?, s.fl.geom with
  | some (.at l), some g => match recOf s l with
    | some r => setSeg s { segOf s r.seg with reads := (segOf s r.seg).reads + ceilDiv (recBytes r.payload.length) (max 1 g.pageMain) }
    | none => s
  | _, _ => s

/-- A NAND read of a block: the bytes, or none where the page code or a later step fails. -/
def readBlock (s : State) (v : FObj) (i : Nat) (e : FlashEnv) : Option Bytes × State :=
  (if e.failed then none else openBlock s v i, countReads s v i)

/-- A block's record is coded. -/
def codedBlk (s : State) (b : BlkRef) : Bool :=
  match b with
  | .at l => match recOf s l with | some r => flagAt (sealedOf r) 12 0 | none => false
  | _ => false

/-- TABLE and TDIG are 0 where no block of a version is coded (Table 13-1). -/
def settleTable (s : State) (v : FObj) : FObj := if v.blocks.any (codedBlk s) then v else { v with table := 0, tdig := [] }

/-! ## Loss (R356, R357, R523) -/

def pagesPerBlock (fmt dim : Nat) : Nat := 65536 / pageBytes fmt dim

/-- A page of a block, named by span identity and number, is dirty. -/
def blockDirty (s : State) (blk : Nat × Nat) : Bool :=
  s.sq.spans.any fun x => spanId x.als x.layer x.head x.idx == blk.1 &&
    ((x.pages.drop (blk.2 * pagesPerBlock x.fmt x.dim)).take (pagesPerBlock x.fmt x.dim)).any dirty

/-- A flush of a block has started: the tenant's hold ends with it, or where the held block has no dirty page any more (R323). -/
def releaseHold (s : State) (t : Nat) (blk : Nat × Nat) : State :=
  mapTenant s t fun k => if k.holdOf == blk || !blockDirty s k.holdOf then { k with hold := none } else k

/-- A block is lost: its error record, then Mace's repair or the loss in the index (R357). -/
def blockLost (s : State) (v : FObj) (i level requester opcode slot lease : Nat) : State :=
  let loc := match v.blocks[i]? with
    | some (.at l) => match recOf s l with | some r => locOf r | none => 0
    | _ => 0
  let x := s.sq.spans.find? fun x => x.flash == some v.idx
  let clean := match x with
    | some x => x.state == .resident &&
        ((x.pages.drop (i * pagesPerBlock x.fmt x.dim)).take (pagesPerBlock x.fmt x.dim)).all fun p => !dirty p
    | none => false
  let s := logErr s { recno := 0, time := 0, cls := 1, source := 3, requester := requester, loctype := 1,
                      tenant := some v.tenant, reported := !clean && opcode != 0, lossmark := false, loc := loc,
                      opcode := opcode, slot := slot, lease := lease, aux := level }
  if clean then { s with fl.repair := if s.fl.repair.contains (v.idx, i) then s.fl.repair else s.fl.repair ++ [(v.idx, i)] }
  else match objOf s v.idx with
    | some w => if w.gen = v.gen then setObj s { w with blocks := w.blocks.set i .lost } else s
    | none => s

/-! ## Span bytes -/

/-- A page with every row at or above `n` zero (R346). -/
def keepRows (fmt dim n : Nat) (page : Bytes) : Bytes :=
  let h := 16 * headDim dim * kvSize fmt
  let k := min 16 n * headDim dim * kvSize fmt
  cut page 0 k ++ zeros (h - k) ++ cut page h k ++ zeros (h - k)

/-- The rows of page `p` that lie below position `c`. -/
def rowsBelow (idx p c : Nat) : Nat := min 16 (c - (idx * 1024 + p * 16))

/-- Leading positions of a block that its pages' WR holds (R346, Table 13-2 CAP). -/
def capOf (ps : List PageSt) : Nat :=
  match ps with
  | [] => 0
  | p :: rest => if p.wr ≥ 16 then 16 + capOf rest else p.wr

/-- STRENGTH of a new span under the tenant's KV class (R57). -/
def kvStrength (s : State) (t : Nat) : Nat := match tenantOf s t with | some k => k.kvClass | none => 0

/-- Banks to try for a span (R48, R49). -/
def spanBanks (a l h i : Nat) : List Nat := bankOrder ((homeBase a l h + i) % 9216)

/-- Steps 3 to 6 of R326: rows below C from the blocks' bytes, zeros above, checks and sketches, page states, the RESIDENT entry. -/
def installBytes (s : State) (x : Span) (c : Nat) (blk : Nat → Bytes) : State :=
  let pb := pageBytes x.fmt x.dim
  let n := pagesPerBlock x.fmt x.dim
  let seed := match seqByAlias s x.als with | some q => q.seed | none => 0
  let s := (List.range 64).foldl (fun s p =>
    let k := rowsBelow x.idx p c
    let page := keepRows x.fmt x.dim k (cut (blk (p / n)) (p % n * pb) pb)
    let s := writePage s x p page
    if k = 0 then s else storeSk s x p (pageSketch x.fmt x.dim k seed page)) s
  let ps := (List.range 64).map fun p => { wr := rowsBelow x.idx p c, drows := rowsBelow x.idx p c : PageSt }
  publish s { x with state := .resident, pages := ps, lastRead := s.readTime }

/-- Allocate frames for a FLASH_ONLY span (step 1 of R326); it keeps the class and strength that its entry and its span object's SHAPE
name (DEDUCED, log entry 101). -/
def installPlace (s : State) (x : Span) : Option (Span × State) :=
  match allocate s x.tenant (spanRun x.fmt x.dim x.strength) x.strength .span x.als (spanBanks x.als x.layer x.head x.idx) with
  | some (r, s) => some ({ x with bank := r.bank, frame := r.first }, s)
  | none => none

/-! ## Stored objects (R352) -/

/-- The AES additional data of a stored object's chunks: its OBJECT field and eight zero bytes (log entry 17). -/
def storedAad (v : FObj) : Bytes := u64 (objField v) ++ zeros 8

def noSpan : Nat := 2 ^ 48 - 1

/-- Delete the stored object of a loaded object. -/
def unstore (s : State) (k : ObjKind) (id : Nat) : State :=
  match s.fl.objs.find? fun v => v.kind == .stored k id with
  | some v => deleteObj s v.idx
  | none => s

/-- The digest of a stored object's bytes: a service image's leaves out the trailing signature (R494). -/
def storedDigest (k : FKind) (b : Bytes) : Bytes :=
  match k with
  | .stored .image _ => sha3 (b.take (b.length - sigLen))
  | _ => sha3 b

/-- The bytes of a stored object; none where a chunk is lost or the digest differs (R353). -/
def loadStored (s : State) (v : FObj) : Option Bytes :=
  let cs := v.blocks.mapIdx fun i b => match b with
    | .at l => match recOf s l, tenantOf s v.tenant with
      | some r, some t => match openSealed t noSpan (storedAad v) r.payload with
        | some pt =>
          let c := pt.take (pt.length - 12)
          let tr := pt.drop (pt.length - 12)
          if fld tr 0 4 = i && fld tr 4 4 = crc32c c && fld tr 8 4 = c.length then some c else none
        | none => none
      | _, _ => none
    | _ => none
  if cs.all Option.isSome then
    let b := (cs.map fun c => c.getD []).flatten
    if storedDigest v.kind b == v.tdig then some b else none
  else none

end Sys2Proof.Machine
end

