-- ==== Sys2Proof/Machine/Log.lean ====
section
/-! DEFINITION. The log as it is kept up: checkpoints of the object map (R362), relocation and garbage collection (R366), erases (R364),
and the writing of stored objects (R352). -/

namespace Sys2Proof.Machine

open Sys2Proof

/-! ## Checkpoints of the map (R362) -/

/-- A map entry of an object index (R361). -/
def mapEntry (s : State) (i : Nat) : Bytes :=
  match objOf s i with
  | some v => match recOf s v.index with
    | some r => u64 (locOf r) ++ u32 (recBytes r.payload.length) ++ u16 v.gen ++ u16 0
    | none => u64 (2 ^ 64 - 1) ++ u32 0 ++ u32 0
  | none => u64 (2 ^ 64 - 1) ++ u32 0 ++ u32 0

/-- Records of a checkpoint of `n` entries. -/
def ckRecords (n : Nat) : Nat := ceilDiv n 4096

/-- Append the records of a checkpoint; none where a segment for one is missing. -/
def ckWrite (n : Nat) : Nat → State → Option State
  | 0, s => some s
  | k + 1, s =>
    let i := ckRecords n - (k + 1)
    let es := (List.range (min 4096 (n - 4096 * i))).flatMap fun j => mapEntry s (4096 * i + j)
    match logAppend s false 5 0 0 0 es none with
    | some (_, s) => ckWrite n k s
    | none => none

def mapCheckpoint (s : State) : State :=
  match ckWrite s.fl.nextIdx (ckRecords s.fl.nextIdx) s with
  | some s => { s with fl.ckObjs := s.fl.objs, fl.ckLsn := s.fl.lsn, fl.ckTime := s.now }
  | none => s

/-! ## Failures and erases (R364) -/

/-- A NAND program or erase failure is recorded (Table 18-5). -/
def flashFault (s : State) (loc : Nat) (tenant : Option Nat) : State :=
  logErr s { recno := 0, time := 0, cls := 2, source := 6, loctype := 1, tenant := tenant, loc := loc }

/-- The good planes of a segment, in order. -/
def goodPlanes (g : FlashGeom) (x : Seg) : List Nat := (List.range g.planes).filter fun p => !x.bad.contains p

def eraseDone (s : State) (g : FlashGeom) (x : Seg) (ok : Bool) : State :=
  let bad := x.bad ++ x.failing.filter fun p => !x.bad.contains p
  let settle := fun (s : State) (y : Seg) =>
    let worn := match s.fl.profile with | some p => decide (y.erases ≥ p.endurance) | none => false
    setSeg s { y with use := if worn || y.bad.length ≥ g.planes then .retired else .free }
  let y := { x with erases := x.erases + 1, bad := bad, failing := [], fill := 0, reads := 0 }
  if ok then settle s y
  else
    let s := flashFault s (x.id * 2 ^ 32) none
    match pickOf s (goodPlanes g y) with
    | some (p, s) => settle s { y with bad := y.bad ++ [p] }
    | none => settle s y

/-! ## Relocation (R366) -/

/-- A flush of the object is outstanding. -/
def objFlushing (s : State) (idx : Nat) : Bool :=
  s.fl.jobs.any fun j => j.ver.idx == idx && (match j.kind with | .flush _ _ _ _ _ _ _ => true | _ => false)

/-- Copy the records of a version that `which` holds of, with new LSNs. -/
def relocBlocks (which : LogRec → Bool) : List BlkRef → State → Option (List BlkRef × Bool × State)
  | [], s => some ([], false, s)
  | b :: bs, s =>
    let one : Option (BlkRef × Bool × State) := match b with
      | .at l => match recOf s l with
        | some r =>
          if which r then
            match logAppend s true r.typ r.block r.obj r.gen r.payload none with
            | some (n, s) => some (.at n.lsn, true, s)
            | none => none
          else some (b, false, s)
        | none => some (b, false, s)
      | _ => some (b, false, s)
    match one with
    | none => none
    | some (c, moved, s) => match relocBlocks which bs s with
      | none => none
      | some (cs, more, s) => some (c :: cs, moved || more, s)

/-- Relocate records of one object and publish their new locations. -/
def relocObj (s : State) (v : FObj) (which : LogRec → Bool) : Option State :=
  match relocBlocks which v.blocks s with
  | none => none
  | some (bs, moved, s) =>
    let idx := match recOf s v.index with | some r => which r | none => false
    if !moved && !idx then some s
    else
      let w := { v with blocks := bs }
      match logAppend s true 1 0 (objField w) w.gen (indexPayload s w) (some w) with
      | some (r, s) => some (setObj s { w with index := r.lsn })
      | none => none

/-- Relocate the valid records that `which` holds of; an object with an outstanding flush is left for later. -/
def relocAll (s : State) (which : LogRec → Bool) : State :=
  s.fl.objs.foldl (fun s v => if objFlushing s v.idx then s else (relocObj s v which).getD s) s

/-- A request reads a version of T2 copies as it was armed (R24). -/
def reqNames (s : State) (lsn : Nat) : Bool := s.eng.reqs.any fun r => r.vers.any fun v => (objLsns v).contains lsn

/-- A record is valid: an object's or a job's current version names it, or it belongs to the newest checkpoint, or it is a DELETE that
no checkpoint covers yet. -/
def validRec (s : State) (r : LogRec) : Bool :=
  (s.fl.objs.any fun v => (objLsns v).contains r.lsn) ||
  (s.fl.jobs.any fun j => (objLsns j.ver).contains r.lsn) || reqNames s r.lsn ||
  (r.typ == 5 && decide (r.lsn ≤ s.fl.ckLsn ∧ s.fl.ckLsn < r.lsn + ckRecords s.fl.nextIdx)) ||
  (r.typ == 4 && decide (s.fl.ckLsn < r.lsn))

def validBytes (s : State) (seg : Nat) : Nat :=
  sumBy (fun r => if r.seg = seg && validRec s r then recBytes r.payload.length else 0) s.fl.log

/-- A job reads from, or writes to, the segment, or a request may still read a version armed with it (R339). -/
def segBusy (s : State) (seg : Nat) : Bool :=
  let here := fun (v : FObj) => (objLsns v).any fun l => match recOf s l with | some r => r.seg == seg | none => false
  (s.fl.jobs.any fun j => here j.ver) || s.eng.reqs.any fun r => r.vers.any here

/-- The segment to collect: one with a block to retire, otherwise, below 4 % free, the fewest valid bytes and on a tie the lower erase
count. -/
def victim (s : State) (g : FlashGeom) : Option Seg :=
  let cs := s.fl.segs.filter fun x => x.use == .closed && !segBusy s x.id
  match cs.find? fun x => !x.failing.isEmpty with
  | some x => some x
  | none =>
    if freeCount s g * 100 < 4 * (lunCount g * logBlocks g) then
      (sortBy (fun (a b : Seg) => decide (validBytes s a.id < validBytes s b.id) ||
        (validBytes s a.id == validBytes s b.id && decide (a.erases < b.erases))) cs).head?
    else none

/-- GARBAGE_COLLECTION: one victim is emptied and its erase begins. -/
def collect (s : State) (g : FlashGeom) : State :=
  match victim s g with
  | none => s
  | some x =>
    let here := fun (r : LogRec) => r.seg == x.id
    let s := if s.fl.log.any fun r => here r && (r.typ == 4 || r.typ == 5) && validRec s r then mapCheckpoint s else s
    let s := relocAll s here
    if validBytes s x.id = 0 then
      setSeg { s with fl.log := s.fl.log.filter fun r => !here r } { segOf s x.id with use := .erasing }
    else s

/-- With no free segment left, garbage collection comes first (R323): a segment is being erased, or one that holds less than it could is
emptied now; none where that frees nothing. -/
def reclaim (s : State) : Option State :=
  let erasing := fun (s : State) => s.fl.segs.any fun x => x.use == .erasing
  if erasing s then some s
  else match s.fl.geom with
    | none => none
    | some g => match victim s g with
      | none => none
      | some x => if validBytes s x.id < x.fill && erasing (collect s g) then some (collect s g) else none

/-- With no free segment left, a write that is done within its row has garbage collection make one, erase included (R323, R336, R352;
log entry 70); none where there is nothing to collect. -/
def reclaimNow (s : State) : Option State :=
  match s.fl.geom, reclaim s with
  | some g, some s => (s.fl.segs.find? fun x => x.use == .erasing).map fun x => eraseDone s g x true
  | _, _ => none

/-- A write that finds no segment is tried again after garbage collection, from the state before it; `n` segments are collected at most. -/
def afterCollect {α : Type} (write : State → Option α) : Nat → State → Option α
  | 0, s => write s
  | n + 1, s => match write s with
    | some a => some a
    | none => match reclaimNow s with
      | some s => afterCollect write n s
      | none => none

/-! ## Writing stored objects (R352) -/

/-- Seal and append the chunks of a stored object. -/
def storeChunks (v : FObj) : List (Nat × Bytes) → List BlkRef → State → Option (List BlkRef × State)
  | [], acc, s => some (acc, s)
  | (i, c) :: rest, acc, s =>
    match takeCtr s v.tenant with
    | none => none
    | some (g, s) =>
      let pt := c ++ u32 i ++ u32 (crc32c c) ++ u32 c.length
      let b := sealBlock g.key (sealHead g.ctr 0 g.gen s.pw.node 0 false 0) noSpan (storedAad v) pt
      match logAppend s false 6 0 (objField v) 0 b none with
      | none => none
      | some (r, s) => storeChunks v rest (acc ++ [.at r.lsn]) s

/-- Write a stored object; none where a segment or a seal counter is missing. -/
def writeObject (t : Nat) (k : ObjKind) (id : Nat) (body bytes digest : Bytes) (s : State) : Option State :=
  let v : FObj := { idx := s.fl.nextIdx, tenant := t, kind := .stored k id, spanId := 0, seq := 0, shape := 0, table := 0,
                    tdig := digest, gen := 0, committed := 0, blocks := [], index := 0, meta_ := body }
  let cs := chunks 65536 (bytes.length / 65536 + 1) bytes
  match storeChunks v (cs.mapIdx fun i c => (i, c)) [] { s with fl.nextIdx := s.fl.nextIdx + 1 } with
  | none => none
  | some (bs, s) => publishVer s { v with blocks := bs }

/-- Write a stored object within the tenant's T2 quota; none where it must be refused NO_QUOTA. -/
def storeObject (s : State) (t : Nat) (k : ObjKind) (id : Nat) (body bytes digest : Bytes) : Option State :=
  match afterCollect (writeObject t k id body bytes digest) s.fl.segs.length s, tenantOf s t with
  | some s, some x => if t2Use s t ≤ x.t2Units then some s else none
  | _, _ => none


end Sys2Proof.Machine
end

