-- ==== Sys2Proof/Machine/Reqs.lean ====
section
/-! DEFINITION. What every data-plane request shares: sequence and epoch checks (R151, R433), result destinations (R150, R168,
R307), order of waiting (R412), withdrawal of bank operations and array work (R135, R269, R409), sync cells and the merge
inputs they wake (R155, R168 to R176). -/

namespace Sys2Proof.Machine

open Sys2Proof

/-! ## Checks -/

/-- A body field outside the layout is zero from body offset `o` to slot offset 0xFF7 (R604). -/
def restZero (b : Bytes) (o : Nat) : Bool := (b.drop o).all (· == 0)

/-- A sequence named by a request: found, or the status and REDIRECT of R433. -/
def seqCheck (s : State) (t handle epoch : Nat) : Sum Seq (Nat × Nat) :=
  match (s.sq.seqs.find? fun q => q.handle == handle && q.tenant == t && !q.gone) with
  | some q => match q.stub, q.incoming with
    | some n, _ => .inr (stSTALE, n)
    | none, some n => .inr (stSTALE, n)
    | none, none => .inl q
  | none =>
    let floor := match tenantOf s t with | some k => k.floor | none => 0
    if epoch < floor then .inr (stSTALE, 0) else .inr (stUNKNOWN, 0)

/-- Complete a request with REDIRECT. -/
def completeAt (s : State) (id : Req) (p : Nat × Nat) : State :=
  complete (mapReq s id fun r => { r with redirect := p.2 }) id p.1

/-- The staging window of a request's lease. -/
def stageSize (s : State) (l : Nat) : Nat := match leaseOf s l with | some x => x.stageMib * 2 ^ 20 | none => 0

/-- `n` bytes at a 64-byte aligned offset lie wholly in the arming lease's window (R149). -/
def stageOk (s : State) (l off n : Nat) : Bool := decide (off % 64 = 0) && decide (off + n ≤ stageSize s l)

/-- A sync cell that the lease holds (R405). -/
def cellHeld (s : State) (l c : Nat) : Bool :=
  match leaseOf s l with | some x => decide (x.cellFirst ≤ c ∧ c < x.cellFirst + x.cells) | none => false

/-- A result QP field: a connected QP of a session of the tenant (R150); 0 from an internal slot, whose rkeys are 0 too
(R307). -/
def qpOk (s : State) (r : Rq) (qp rkey : Nat) : Bool :=
  match r.id with
  | .net _ => tenantQp s (r.qp qp) r.tenant
  | .int _ _ => qp == 0 && rkey == 0

/-- A result address range: any for a network slot, guest memory for an internal one (R307). -/
def addrOk (s : State) (r : Rq) (addr n : Nat) : Bool :=
  match r.id with
  | .net _ => true
  | .int l _ => match guestOf s l with | some k => guestOk k addr n | none => false

/-! ## Waiting order -/

/-- Requests that `p` holds of, in the order of R412: by class, then by arm order. -/
def waiting (s : State) (p : Rq → Bool) : List Rq :=
  sortBy (fun a b => decide (a.prio < b.prio) || (a.prio == b.prio && decide (a.order < b.order))) (s.eng.reqs.filter p)

/-- Contexts of a class in use (Table 14-13). -/
def ctxUsed (s : State) (ops : List Nat) : Nat := (s.eng.reqs.filter fun r => r.ctx && ops.contains r.op).length

def attnOps : List Nat := [0x01, 0x02, 0x03]
def scatterOps : List Nat := [0x10, 0x12, 0x21, 0x22, 0x40]

/-! ## Withdrawal (R135, R409) -/

def ownReq : Own → Option Req
  | .pass r _ _ _ => some r
  | .page r _ => some r
  | .dist r _ _ => some r
  | _ => none

/-- A bank operation with START set begins a span pass. -/
def startsPass (o : QOp) : Bool := (o.opc == opSpanAttend || o.opc == opSpanQk) && o.desc.sub % 2 == 1

/-- Unit and pass of a span-pass operation. -/
def passOf : Own → Option (Req × Nat × Nat)
  | .pass r u p _ => some (r, u, p)
  | _ => none

/-- A pass has begun if operations of it wait and the one that starts it no longer does. -/
def passBegun (ops : List QOp) (o : QOp) : Bool :=
  (passOf o.own).isSome && !(ops.any fun x => startsPass x && passOf x.own == passOf o.own)

/-- Withdraw the operations of a request that no die has taken; a pass that has begun runs to its end. -/
def withdraw (s : State) (id : Req) : State :=
  let s := cutOps s (fun k o => ownReq o.own == some id && !passBegun (k.queue ++ k.backlog) o) fun p => ownReq p.own == some id
  { s with arr.jobs := s.arr.jobs.filter fun j => j.req != id || j.ready,
           fl.jobs := s.fl.jobs.filter fun j => match j.kind with
             | .direct r _ _ => r != id
             | _ => true }

/-- Something of the request still runs on a die or an array. -/
def inFlight (s : State) (id : Req) : Bool :=
  s.mem.banks.any (fun k =>
    (match k.running with | some r => ownReq r.op.own == some id | none => false) ||
    (k.queue ++ k.backlog).any (fun o => ownReq o.own == some id) || k.pins.any (fun p => ownReq p.own == some id)) ||
  s.arr.jobs.any fun j => j.req == id

/-! ## Flash-read space (R339) -/

/-- KiB of flash-read space a tenant uses. -/
def spaceUsed (s : State) (t : Nat) : Nat := ((s.fl.space.find? fun p => p.1 == t).map Prod.snd).getD 0
def setSpace (s : State) (t n : Nat) : State :=
  { s with fl.space := (s.fl.space.filter fun p => p.1 != t) ++ (if n = 0 then [] else [(t, n)]) }

/-- Passes of a request that hold a reservation. -/
def spacePasses (r : Rq) : Nat :=
  sumBy (fun u => (u.passes.filter fun p => p.stage == 1 && p.entry.state == .flashOnly).length) r.units

/-- Free the flash-read space of a request that ends. -/
def freeSpace (s : State) (r : Rq) : State := setSpace s r.tenant (spaceUsed s r.tenant - 128 * spacePasses r)

/-! ## Sync cells, local merge inputs and the merges they wake (R168 to R176) -/

/-- Where result bytes at an offset from RES_ADDR go: over RES_QP, into guest memory, or into a parent's input area. -/
def resPut (s : State) (r : Rq) (off : Nat) (v : Bytes) : State :=
  match r.into with
  | some (base, _) => stageWrite s r.lease (base + off) v
  | none => emit s r (fld r.body 0x2C 4) ((fld r.body 0x20 8 + off) % 2 ^ 64) (fld r.body 0x28 4) v

/-- Record bytes (Table 5-3, R154). -/
def recordBytes (d : Nat) (p : Part) : Bytes :=
  let p := if p.absent then absentPart d else p
  u32 p.m.toNat ++ u32 p.l.toNat ++ (List.range d).flatMap fun i => u32 (p.o.getD i 0#32).toNat

def recLen (dim : Nat) : Nat := 8 + 4 * headDim dim

/-- A partial from record bytes. -/
def recordOf (d : Nat) (b : Bytes) : Part :=
  let f := fun o => BitVec.ofNat 32 (fld b o 4)
  ⟨f 0, f 4, (List.range d).map fun i => f (8 + 4 * i)⟩

/-- canon of R158 over a block of 2^k indices from `lo`. -/
def canon (sup : Nat → Nat → Option Part) (leaf : Nat → Part) : Nat → Nat → Part
  | 0, lo => (sup lo 0).getD (leaf lo)
  | k + 1, lo => match sup lo (k + 1) with
    | some p => p
    | none => mergePart (canon sup leaf k lo) (canon sup leaf k (lo + 2 ^ k))

/-- Fields of a MERGE_FORWARD body (Table 5-6). -/
def mfN (b : Bytes) : Nat := bfld b 4 1 6 0
def mfArrival (b : Bytes) : Bool := flagAt b 5 0
def mfNotify (b : Bytes) : Bool := flagAt b 5 1
def mfArrive (b : Bytes) : Bool := flagAt b 5 2
def mfDim (b : Bytes) : Nat := bfld b 6 1 1 0
def mfRecs (b : Bytes) : Nat := fld b 0xA 2
def mfChild (b : Bytes) (i : Nat) : Nat × Nat := (bfld b (0x50 + 4 * i) 4 13 0, bfld b (0x50 + 4 * i) 4 17 14)

/-- Staging offset of input `i` (R169). -/
def mfInput (b : Bytes) (i : Nat) : Nat := fld b 0x10 8 + i * fld b 0x18 4

/-- The arrival word of child `i` is in place (R171). -/
def mfArrived (s : State) (r : Rq) (i : Nat) : Bool :=
  leNat (stageRead s r.lease (mfInput r.body i + mfRecs r.body * recLen (mfDim r.body)) 8) == i * 2 ^ 32 + fld r.body 0xC 4

/-- Examine the arrival words and record the children found arrived, in ascending index (R171, R173). -/
def mfExamine (s : State) (r : Rq) : Rq :=
  { r with kids := r.kids ++ (List.range (mfN r.body)).filter fun i => !r.kids.contains i && mfArrived s r i }

/-- The output records (R173). -/
def mfRecords (s : State) (r : Rq) : Bytes :=
  let b := r.body
  let d := headDim (mfDim b)
  (List.range (mfRecs b)).flatMap fun n =>
    let inp := fun i => recordOf d (stageRead s r.lease (mfInput b i + n * recLen (mfDim b)) (recLen (mfDim b)))
    recordBytes d (
      if mfArrival b then
        match r.kids with
        | [] => absentPart d
        | k :: ks => ks.foldl (fun a i => mergePart a (inp i)) (inp k)
      else canon (fun lo lg => (r.kids.find? fun i => mfChild b i == (lo, lg)).map inp) (fun _ => absentPart d)
        (fld b 7 1) (bfld b 8 2 13 0))

/-- The records and the arrival mask (R174, R175). -/
def mfWrite (s : State) (r : Rq) : State :=
  let out := mfRecords s r
  let mask := r.kids.foldl (fun m i => m + 2 ^ i) 0
  let s := resPut s r 0 out
  let ca := fld r.body 0x30 8
  if ca = 0 || r.into.isSome then s else emit s r (fld r.body 0x2C 4) ca (fld r.body 0x28 4) (u64 mask)

/-- A cell changes or a request with an internal completion cell completes: watching merges examine their inputs, and one that
holds its context and has every child writes its results and completes, which may change a further cell. -/
def wakeN : Nat → State → Nat → State
  | 0, s, _ => s
  | fuel + 1, s, c =>
    let ids := (s.eng.reqs.filter fun r => r.op == 0x03 && r.phase != .finishing && fld r.body 0x1C 4 == c).map Rq.id
    ids.foldl (fun s id => match reqOf s id with
      | none => s
      | some r =>
        let r := mfExamine s r
        let s := mapReq s id fun _ => r
        if r.ctx && decide (r.kids.length = mfN r.body) then
          let s := mapReq (mfWrite s r) id fun x => { x with count := r.kids.length }
          let s := if mfArrive r.body then resPut s r (mfRecs r.body * recLen (mfDim r.body)) (u64 (fld r.body 0x38 8)) else s
          let s := match r.into with
            | some (_, cell) => if mfNotify r.body then wakeN fuel (cellAdd s cell 1) cell else s
            | none => if mfNotify r.body then emitAdd s r (fld r.body 0x2C 4) (fld r.body 0x40 8) (fld r.body 0x28 4) else s
          let s := complete s id stOK
          match id, r.csync with
          | .int _ _, some k => wakeN fuel s k
          | _, _ => s
        else s) s

/-- A sync cell has changed: watching merges look at their inputs (R171). -/
def wake (s : State) (c : Nat) : State := wakeN (s.eng.reqs.length + 1) s c

/-! ## The end of a tenant's destruction (R506) -/

/-- Forget a tenant that is being destroyed once every freed frame is zero (R506 step 9). -/
def dropTenant (s : State) (t : Nat) : State :=
  match tenantOf s t with
  | some k =>
    if !k.dying || k.killBox.isSome || s.mem.freed.any (fun f => f.tenant == t) then s
    else
      let keep := fun (p : Nat × Nat) => p.1 != t
      saveCfg { s with own.tenants := s.own.tenants.filter fun x => x.id != t, fl.withdrawn := s.fl.withdrawn.filter keep }
  | none => s

/-- Every frame of a tenant waits for zeroing. -/
def freeTenantFrames (s : State) (t : Nat) : State := (s.mem.regions.filter fun r => r.tenant == t).foldl freeRegion s

/-- CLEAR in every bank whose last tenant served is this one (R506 step 7). -/
def clearBanks (s : State) (t : Nat) : State :=
  let upd := fun (k : Bank) => if k.last == some t then { bauClear k with last := none } else k
  { s with mem.banks := s.mem.banks.map upd }

/-- Steps 5 to 9 of R506: keys and map entries go, scrubs, the reply; frames are freed and the peers withdrawn in the
background. -/
def destroyDone (s : State) (t : Nat) (box : Option Box) : State :=
  let peers := (s.fl.peers.filter fun p => p.tenant == t && p.mig.isNone).length
  let s := match tenantOf s t with
    | some k =>
      if decide (k.replica ≠ 0) || peers != 0 then
        { s with fl.withdraw := s.fl.withdraw ++ [⟨t, s.now, s.now + 600 * 10 ^ 9, k.replicaAddr, k.replica, k.replicaSig⟩] }
      else s
    | none => s
  let s := mapTenant s t fun k => { k with keys := [], groups := [], killBox := none, rekey := false, hold := none }
  let s : State := { s with fl.destroyed := (s.fl.destroyed.filter fun p => p.1 != t) ++ [(t, s.fl.lsn + 1)],
                            fl.objs := s.fl.objs.filter fun v => v.tenant != t,
                            fl.jobs := s.fl.jobs.filter fun j => j.tenant != t,
                            fl.retries := s.fl.retries.filter fun r => r.tenant != t,
                            fl.space := s.fl.space.filter fun p => p.1 != t,
                            fl.promoted := s.fl.promoted.filter fun p => p.2 / 2 ^ 56 != t }
  let als := (s.sq.seqs.filter fun q => q.tenant == t).map Seq.als
  let mine := fun (a : Nat) => als.contains a
  let s : State := { s with sq.seqs := s.sq.seqs.filter fun q => q.tenant != t,
                            sq.spans := s.sq.spans.filter fun x => x.tenant != t,
                            sq.roots := s.sq.roots.filter fun r => !mine r.als,
                            sq.nodes := s.sq.nodes.filter fun n => !mine n.als,
                            sq.slots := s.sq.slots.filter fun x => x.tenant != t,
                            sq.colls := s.sq.colls.filter fun c => c.tenant != t,
                            sq.objs := s.sq.objs.filter fun o => o.tenant != t,
                            sq.gen := s.sq.gen + 1 }
  let upd := fun (g : Group) => if g.tenant == some t then { g with tenant := none } else g
  let s : State := { s with arr.groups := s.arr.groups.map upd, arr.turns := s.arr.turns.filter fun p => p.1 != t }
  let s := freeTenantFrames (clearBanks s t) t
  let s := match box with | some b => mailReply s b stOK [] | none => s
  dropTenant (saveCfg s) t

/-- Nothing of a tenant is in flight (R506 step 4). -/
def tenantIdle (s : State) (t : Nat) : Bool := !(s.eng.reqs.any fun r => r.tenant == t && r.phase != .finishing)

/-- A destruction that has waited for what was in flight goes on. -/
def settleDestroy (s : State) (t : Nat) : State :=
  match tenantOf s t with
  | some k => if k.killBox.isSome && tenantIdle s t then destroyDone s t k.killBox else s
  | none => s

/-- Complete a request; an internal slot's completion cell changes with it (R401). -/
def finish (s : State) (id : Req) (status : Nat) : State :=
  match reqOf s id with
  | none => s
  | some r =>
    let s := complete (freeSpace s r) id status
    let s := match id, r.csync with
      | .int _ _, some c => wake s c
      | _, _ => s
    settleDestroy s r.tenant

def finishAt (s : State) (id : Req) (p : Nat × Nat) : State :=
  finish (mapReq s id fun r => { r with redirect := p.2 }) id p.1

/-- Notify (R155 step 3, R168): a remote fetch-add, or the parent's cell. -/
def notifyCell (s : State) (r : Rq) (qp addr rkey : Nat) : State :=
  match r.into with
  | some (_, cell) => wake (cellAdd s cell 1) cell
  | none => emitAdd s r qp addr rkey

/-! ## Loss -/

/-- DETAIL of a lost page (Table 14-9). -/
def pageDetail (x : Span) (p : Nat) : Nat := spanId x.als x.layer x.head x.idx + p * 2 ^ 48

/-- The request ends DATA_LOST with a first lost object. -/
def finishLost (s : State) (id : Req) (detail : Nat) : State :=
  finish (mapReq s id fun r => { r with detail := detail }) id stLOST

/-- Set the loss mark of a page (R523). -/
def markLost (s : State) (x : Span) (p : Nat) : State :=
  match spanOf s x.als x.layer x.head x.idx with
  | some y => if y.bank = x.bank && y.frame = x.frame then setSpan s (mapPage y p fun q => { q with lost := true }) else s
  | none => s

/-- A page bears a loss mark. -/
def isLost (s : State) (x : Span) (p : Nat) : Bool :=
  match spanOf s x.als x.layer x.head x.idx with
  | some y => y.bank == x.bank && y.frame == x.frame && ((y.pages[p]?).map PageSt.lost).getD false
  | none => false

/-- The other page of a SEALED frame that holds two, where the frame is uncorrectable: it has no bytes left to write back. -/
def sharedPage (s : State) (x : Span) (p : Nat) : Option Nat :=
  let pb := pageBytes x.fmt x.dim
  if x.strength = 0 || pb % 4096 = 0 then none
  else if (readFrame s x.bank (x.frame + p * pb / 4096) cleanFrame 0).1.bytes.isSome then none
  else some (if p % 2 = 0 then p + 1 else p - 1)

/-- Rewrite a clean page from its T2 copy (R124, Table 18-3). -/
def refetchPage (s : State) (x : Span) (p : Nat) : Option State :=
  match spanOf s x.als x.layer x.head x.idx with
  | none => none
  | some y =>
    let clean := match y.pages[p]? with | some q => !dirty q | none => false
    match y.flash with
    | none => none
    | some i => match objOf s i with
      | none => none
      | some v =>
        let n := pagesPerBlock x.fmt x.dim
        if !clean || y.bank != x.bank || y.frame != x.frame then none
        else match openBlock s v (p / n) with
          | none => none
          | some raw =>
            let pb := pageBytes x.fmt x.dim
            let w := match y.pages[p]? with | some q => q.wr | none => 0
            let page := keepRows x.fmt x.dim w (cut raw (p % n * pb) pb)
            some (writePage (frameWritten s x.bank (x.frame + p * pb / 4096)) x p page)

/-- Rewrite a page from T2, and with it the page that shares its uncorrectable frame, or that page's loss mark (R523). -/
def refetch (s : State) (x : Span) (p : Nat) : Option State :=
  let other := sharedPage s x p
  (refetchPage s x p).map fun s => match other with
    | some o => (refetchPage s x o).getD (markLost s x o)
    | none => s

/-- The error record of an uncorrectable SRAM word that a request meets: an accumulator or activation of an array (R255), or the copy of
its slot's header or body (Table 18-3). Its SRAM word index is free (log entry 123). -/
def sramBad (s : State) (r : Rq) (requester : Nat) : State :=
  let (w, s) := s.word
  logErr s { recno := 0, time := 0, cls := 1, source := 5, requester := requester, loctype := 2, tenant := some r.tenant,
             reported := true, loc := w, opcode := r.op, slot := reqSlot r.id, lease := r.lease }

/-- An uncorrectable page met by a request (R522, R523): repaired from T2, or lost. True where the work is repeated. -/
def pageBad (s : State) (r : Rq) (x : Span) (p source : Nat) : State × Bool :=
  let f := x.frame + p * pageBytes x.fmt x.dim / 4096
  match refetch s x p with
  | some s => (uncorrectable s x.bank f source 1 (some r.tenant) true false (pageDetail x p) r.op (reqSlot r.id) r.lease, true)
  | none =>
    (uncorrectable (markLost s x p) x.bank f source 1 (some r.tenant) false true (pageDetail x p) r.op (reqSlot r.id) r.lease,
     false)

end Sys2Proof.Machine
end

