-- ==== Sys2Proof/Machine/Trees.lean ====
section
/-! DEFINITION. Sequence trees (R208 to R218): node slots, present children, the recomputation of a node, updates, truncation,
rebuild. -/

namespace Sys2Proof.Machine

open Sys2Proof

/-! ## Slots and nodes -/

/-- A slot's number: global bank [17 bits from 17], frame, half (Table 7-2). -/
def slotNo (b f half : Nat) : Nat := b * 2 ^ 17 + f * 2 + half

def treeSlot (s : State) (n : Nat) : Option TreeSlot := s.sq.slots.find? fun x => x.slot == n
def slotGen (s : State) (n : Nat) : Nat := match treeSlot s n with | some x => x.gen | none => 0

/-- The node at a slot; a walk that started before a move still finds the old copy (R229). -/
def nodeAt (s : State) (n : Nat) : Option TreeNode := (s.sq.nodes ++ s.sq.old).find? fun x => x.slot == n

/-- SKETCH of V: bit b is 1 if V_b > 0 (Table 7-2, Table 8-2). -/
def sketchBits (v : List Int) : Nat :=
  ((v.foldl (fun (a : Nat × Nat) x => (if x > 0 then a.1 + 2 ^ a.2 else a.1, a.2 + 1)) (0, 0))).1

/-- An i16. -/
def i16 (x : Int) : Bytes := u16 (x % 65536).toNat

/-- A PTR entry with its PGEN (Table 7-2). -/
def ptrBytes (p : Option Ptr) : Bytes := match p with | some p => u64 (p.slot + p.pgen * 2 ^ 32) | none => zeros 8

/-- A tree node's 2,048 bytes (Table 7-2). -/
def nodeBytes (gen : Nat) (n : TreeNode) : Bytes :=
  let valid := sumBy (fun c => if (n.kids.getD c none).isSome || (n.leaves.getD c none).isSome then 2 ^ c else 0) (List.range 16)
  u16 gen ++ u8 n.level ++ u8 0 ++ u16 valid ++ u16 0 ++ u32 n.first ++ u32 (n.als + n.layer * 2 ^ 16 + n.head * 2 ^ 24) ++
  zeros 16 ++ leBytes 32 (sketchBits n.v) ++ n.v.flatMap i16 ++ n.kids.flatMap ptrBytes ++
  n.leaves.flatMap (fun l => leBytes 32 (l.getD 0)) ++ zeros 832

/-- A collection-tree node's bytes (Table 8-2). -/
def collBytes (gen : Nat) (c : Coll) (n : CollNode) : Bytes :=
  u16 gen ++ u8 n.level ++ u8 0 ++ u8 (n.ents.length + n.kids.length) ++ zeros 3 ++ u64 n.attrOr ++ u64 n.attrAnd ++ u16 c.id ++
  zeros 38 ++ leBytes (c.width / 8) (sketchBits n.v) ++ n.v.flatMap i16 ++
  (if n.level = 1 then n.ents.flatMap fun e =>
      u32 e.vid ++ u32 (if e.live then 1 else 0) ++ u64 e.attr ++ u64 (e.bank * 2 ^ 28 + e.addr) ++ leBytes (c.width / 8) e.sk
   else n.kids.flatMap fun p => ptrBytes (some p))

/-- The bytes of a half-frame slot of a tree region. -/
def slotImage (s : State) (m : Nat) : Bytes :=
  match nodeAt s m with
  | some n => nodeBytes (slotGen s m) n
  | none =>
    let hit := s.sq.slots.find? fun x => decide (x.slot ≤ m ∧ m < x.slot + x.size)
    match hit with
    | none => zeros 2048
    | some x =>
      match s.sq.colls.findSome? fun c => ((c.nodes ++ c.old).find? fun n => n.slot == x.slot).map fun n => collBytes x.gen c n with
      | some b => cut b (2048 * (m - x.slot)) 2048
      | none => if m = x.slot then u16 x.gen ++ zeros 2046 else zeros 2048

/-- Write the frames of a run of slots through the encoder (R55, R213). -/
def writeSlots (s : State) (slot k : Nat) : State :=
  let b := slot / 2 ^ 17
  let f := slot / 2 % 2 ^ 16
  (List.range (ceilDiv (slot % 2 + k) 2)).foldl (fun s i =>
    writeFrame s b (f + i) (slotImage s (slotNo b (f + i) 0) ++ slotImage s (slotNo b (f + i) 1))) s

def setNode (s : State) (n : TreeNode) : State :=
  writeSlots { s with sq.nodes := putBy (fun x => x.slot == n.slot) n s.sq.nodes } n.slot 1

/-- A pointer's PGEN equals the GEN of its slot (R210). -/
def ptrLive (s : State) (p : Ptr) : Bool :=
  match treeSlot s p.slot with | some x => x.used && x.gen == p.pgen | none => false

/-- Pepper met stale edges of a tenant (R210). -/
def addStale (s : State) (t n : Nat) : State := mapTenant s t fun k => { k with stale := (k.stale + n) % 2 ^ 64 }

/-- A tree region of `n` frames, in turn across the stacks (R208). -/
def takeFrames (s : State) (t n owner : Nat) : Option (Region × State) :=
  (allocate s t (withCheck n 2) 2 .tree owner (bankOrder (s.sq.turn % 9216))).map fun p =>
    (p.1, { p.2 with sq.turn := p.2.sq.turn + 1 })

/-- Mark a slot used or free. -/
def setUsed (s : State) (n : Nat) (u : Bool) : State :=
  { s with sq.slots := mapIf (fun x => x.slot == n) (fun x => { x with used := u }) s.sq.slots }

/-- A free half-frame slot of the tenant, not in a bank that is being retired; else a new tree frame (R208). -/
def takeSlot (s : State) (t owner : Nat) : Option (Nat × State) :=
  match s.sq.slots.find? fun x => x.tenant == t && !x.used && x.size == 1 &&
      !(s.hl.retiring.any fun r => r.bank == x.slot / 2 ^ 17) with
  | some x => some (x.slot, setUsed s x.slot true)
  | none =>
    match takeFrames s t 1 owner with
    | none => none
    | some (r, s) =>
      some (slotNo r.bank r.first 0,
        { s with sq.slots := s.sq.slots ++ [{ slot := slotNo r.bank r.first 0, tenant := t, gen := 0, used := true },
                                            { slot := slotNo r.bank r.first 1, tenant := t, gen := 0, used := false }] })

/-- Free a slot: its GEN rises by 1 (R211). -/
def dropSlot (s : State) (n : Nat) : State :=
  let free := fun (x : TreeSlot) => { x with used := false, gen := (x.gen + 1) % 65536, moved := none }
  writeSlots { s with sq.nodes := s.sq.nodes.filter fun x => x.slot != n, sq.old := s.sq.old.filter fun x => x.slot != n,
                      sq.slots := mapIf (fun x => x.slot == n) free s.sq.slots } n 1

/-! ## Values (R212) -/

def clamp16 (x : Int) : Int := max (-32767) (min 32767 x)

def kidPtrs (n : TreeNode) : List Ptr := n.kids.filterMap id

/-- Present children of a node of level 2 or above. -/
def presentKids (s : State) (n : TreeNode) : List Ptr := (kidPtrs n).filter (ptrLive s)

/-- Children whose VALID bit is set and whose PGEN differs. -/
def staleKids (s : State) (n : TreeNode) : Nat := ((kidPtrs n).filter fun p => !ptrLive s p).length

/-- V of a node from its present children. -/
def nodeV (s : State) (n : TreeNode) : List Int :=
  (List.range 256).map fun b =>
    if n.level = 1 then
      (n.leaves.filterMap id).foldl (fun a l => a + (if l.testBit b then 1 else -1)) (0 : Int)
    else
      clamp16 ((presentKids s n).foldl (fun a p => a + (match nodeAt s p.slot with | some k => k.v.getD b 0 | none => 0)) (0 : Int))

/-- Compute a node's values again; a stale edge met on the way is counted (R210). -/
def recompute (s : State) (slot : Nat) : State :=
  match nodeAt s slot, treeSlot s slot with
  | some n, some x => setNode (addStale s x.tenant (staleKids s n)) { n with v := nodeV s n }
  | some n, none => setNode s { n with v := nodeV s n }
  | none, _ => s

/-- Recompute the ancestors of a node. -/
def recomputeUp : Nat → Nat → State → State
  | 0, _, s => s
  | k + 1, slot, s =>
    let up := s.sq.nodes.filter fun n => (kidPtrs n).any fun p => p.slot == slot
    match up with
    | [] => s
    | n :: _ => recomputeUp k n.slot (recompute s n.slot)

/-! ## Paths -/

def rootOf (s : State) (a l h : Nat) : Option Ptr :=
  match s.sq.roots.find? fun r => r.als == a && r.layer == l && r.head == h with
  | some r => if ptrLive s r.ptr then some r.ptr else none
  | none => none

/-- Child index of page `p` in a node of level `k`. -/
def childIdx (k p : Nat) : Nat := p / 16 ^ (k - 1) % 16

def blankNode (slot level first a l h : Nat) : TreeNode :=
  ⟨slot, level, first, a, l, h, List.replicate 16 none, List.replicate 16 none, List.replicate 256 0⟩

/-- The path from a node down to level 1 over a page, allocating what is missing (R213 step 2); slots from level 1 upward. -/
def descend (a l h t page : Nat) : Nat → Nat → List Nat → State → Option (List Nat × State)
  | 0, _, acc, s => some (acc, s)
  | k + 1, slot, acc, s =>
    match nodeAt s slot with
    | none => some (acc, s)
    | some n =>
      if n.level = 1 then some (slot :: acc, s)
      else
        let c := childIdx n.level page
        match n.kids.getD c none with
        | some p =>
          if ptrLive s p then descend a l h t page k p.slot (slot :: acc) s
          else match takeSlot (addStale s t 1) t a with
            | none => none
            | some (m, s) =>
              let first := page / 16 ^ (n.level - 1) * 16 ^ (n.level - 1)
              let s := setNode s (blankNode m (n.level - 1) first a l h)
              let s := setNode s { n with kids := n.kids.set c (some ⟨m, slotGen s m⟩) }
              descend a l h t page k m (slot :: acc) s
        | none => match takeSlot s t a with
          | none => none
          | some (m, s) =>
            let first := page / 16 ^ (n.level - 1) * 16 ^ (n.level - 1)
            let s := setNode s (blankNode m (n.level - 1) first a l h)
            let s := setNode s { n with kids := n.kids.set c (some ⟨m, slotGen s m⟩) }
            descend a l h t page k m (slot :: acc) s

/-- The directory's root pointer is a stale edge (R210). -/
def staleRoot (s : State) (a l h : Nat) : Nat :=
  if (rootOf s a l h).isNone && s.sq.roots.any (fun r => r.als == a && r.layer == l && r.head == h) then 1 else 0

/-- The root, allocated where it is missing. -/
def ensureRoot (s : State) (a l h t : Nat) : Option (Nat × State) :=
  match rootOf s a l h with
  | some p => some (p.slot, s)
  | none => match takeSlot (addStale s t (staleRoot s a l h)) t a with
    | none => none
    | some (m, s) =>
      let s := setNode s (blankNode m 5 0 a l h)
      let r : Root := ⟨a, l, h, ⟨m, slotGen s m⟩⟩
      some (m, { s with sq.roots := putBy (fun x => x.als == a && x.layer == l && x.head == h) r s.sq.roots })

/-- Update the tree of a page with its sketch (R213); none where a node cannot be allocated. -/
def treeUpdate (s : State) (a l h t page sk : Nat) : Option State :=
  match ensureRoot s a l h t with
  | none => none
  | some (root, s) => match descend a l h t page 5 root [] s with
    | none => none
    | some (path, s) => match path with
      | [] => some s
      | leaf :: up => match nodeAt s leaf with
        | none => some s
        | some n =>
          let s := setNode s { n with leaves := n.leaves.set (page % 16) (some sk) }
          some ((leaf :: up).foldl recompute s)

/-! ## Sketches of pages -/

/-- Rows of page `p` of a span that stand written. -/
def writtenRows (x : Span) (p : Nat) : Nat := match x.pages[p]? with | some q => q.wr | none => 0

/-- The sketch of a page with `r` rows, computed over the pins and stored (R122, R192, R205); none where the page is uncorrectable. -/
def pinSketch (s : State) (q : Seq) (x : Span) (p r requester : Nat) : Option Nat × State :=
  match readPage s x p cleanFrame requester with
  | (⟨some v, _⟩, s) =>
    let k := pageSketch x.fmt x.dim r q.seed v
    (some k, storeSk s x p k)
  | (⟨none, _⟩, s) => (none, s)

/-- The sketch of a page: SKETCH_PAGE has left it in the array, or it is computed over the pins (R122, R213 step 1, R216). -/
def fetchSk (s : State) (q : Seq) (x : Span) (p r : Nat) (written : Bool) : Option Nat × State :=
  match (if written then loadSk s x p else none) with
  | some k => (some k, s)
  | none => pinSketch s q x p r 1

/-- Nodes of a tree. -/
def treeNodes (s : State) (a l h : Nat) : List TreeNode :=
  s.sq.nodes.filter fun n => n.als == a && n.layer == l && n.head == h

/-! ## Truncation (R214) -/

/-- Clear the children of a node that lie at or above page `top`. -/
def trimNode (top : Nat) (n : TreeNode) : TreeNode :=
  let w := 16 ^ (n.level - 1)
  let keep := fun i => decide (n.first + i * w < top)
  { n with kids := n.kids.mapIdx fun i k => if keep i then k else none,
           leaves := n.leaves.mapIdx fun i k => if keep i then k else none }

/-- Pages at or above `top` have no written row; page `top − 1` may have changed its sketch, given in `leaf`. -/
def treeTrim (s : State) (a l h top : Nat) (leaf : Option (Nat × Nat)) : State :=
  let dead := (treeNodes s a l h).filter fun n => decide (top ≤ n.first)
  let s := dead.foldl (fun s n => dropSlot s n.slot) s
  let s := if dead.any fun n => n.level == 5 then
      { s with sq.roots := s.sq.roots.filter fun r => !(r.als == a && r.layer == l && r.head == h) } else s
  let s := (treeNodes s a l h).foldl (fun s n => setNode s (trimNode top n)) s
  let s := match leaf with
    | some (p, sk) => (treeNodes s a l h).foldl (fun s n =>
        if n.level = 1 && n.first = p / 16 * 16 then setNode s { n with leaves := n.leaves.set (p % 16) (some sk) } else s) s
    | none => s
  let order := sortBy (fun (a b : TreeNode) => decide (a.level < b.level)) (treeNodes s a l h)
  order.foldl (fun s n => recompute s n.slot) s

/-- Free every tree of a sequence. -/
def freeTrees (s : State) (a : Nat) : State :=
  let s := (s.sq.nodes.filter fun n => n.als == a).foldl (fun s n => dropSlot s n.slot) s
  { s with sq.roots := s.sq.roots.filter fun r => r.als != a }

/-! ## Rebuild (R216, R218) -/

/-- Bytes of page `p` of a span, from T1 or from its T2 object. -/
def spanPage (s : State) (x : Span) (p : Nat) : Option Bytes × State :=
  let pb := pageBytes x.fmt x.dim
  if x.state == .resident || x.state == .moving then
    let (rd, s) := readPage s x p cleanFrame 1
    (rd.bytes, s)
  else match x.flash.bind (objOf s) with
    | none => (none, s)
    | some v => ((openBlock s v (p / pagesPerBlock x.fmt x.dim)).map fun b => cut b (p % pagesPerBlock x.fmt x.dim * pb) pb, s)

/-- The sketch of a page of a span, of either state; that of a page whose bytes are lost is a free value (log entry 102). -/
def sketchFor (s : State) (q : Seq) (x : Span) (p rows : Nat) (array : Bool) : Nat × State :=
  let here := x.state == .resident || x.state == .moving
  match (if here && array then loadSk s x p else none) with
  | some k => (k, s)
  | none =>
    match spanPage s x p with
    | (some b, s) =>
      let k := pageSketch x.fmt x.dim rows q.seed b
      (k, if here then storeSk s x p k else s)
    | (none, s) =>
      let (n, s) := s.draw
      ((Config.freeWord n).toNat, s)

/-- Compute every page sketch of a sequence and build its paths (R218); a path that finds no frame is left for a later try. -/
def rebuildTree (s : State) (q : Seq) : State :=
  let (s, ok) := (s.sq.spans.filter fun x => x.als == q.als).foldl (fun a x =>
    (List.range 64).foldl (fun (a : State × Bool) p =>
      let rows := rowsBelow x.idx p (q.front x.layer x.head)
      if rows = 0 then a
      else
        let (k, s) := sketchFor a.1 q x p rows false
        match treeUpdate s q.als x.layer x.head q.tenant (x.idx * 64 + p) k with
        | some s => (s, a.2)
        | none => (s, false)) a) (s, true)
  if ok then mapSeq s q.als fun q => { q with rebuild := false } else s

/-- An uncorrectable node is rebuilt in a new slot and relinked (R216): a leaf node from the sketch array, a higher one from its children;
the new slot. -/
def rebuildNode (s : State) (slot requester : Nat) : Nat × State :=
  match nodeAt s slot, treeSlot s slot with
  | some n, some ts =>
    let s := uncorrectable s (slot / 2 ^ 17) (slot / 2 % 2 ^ 16) 2 requester (some ts.tenant) true false 0 0 0 0
    match takeSlot s ts.tenant n.als with
    | none => (slot, s)
    | some (m, s) =>
      let leaf := fun (a : List (Option Nat) × State) (i : Nat × Option Nat) =>
        match i.2, seqByAlias a.2 n.als, spanOf a.2 n.als n.layer n.head ((n.first + i.1) / 64) with
        | some _, some q, some x =>
          let p := (n.first + i.1) % 64
          let (k, s) := sketchFor a.2 q x p (max 1 (writtenRows x p)) true
          (a.1 ++ [some k], s)
        | l, _, _ => (a.1 ++ [l], a.2)
      let (leaves, s) := if n.level = 1 then (n.leaves.mapIdx fun i l => (i, l)).foldl leaf ([], s) else (n.leaves, s)
      let s := recompute (setNode s { n with slot := m, leaves := leaves }) m
      let old : Ptr := ⟨slot, ts.gen⟩
      let new : Ptr := ⟨m, slotGen s m⟩
      let swap := fun (p : Ptr) => if p == old then new else p
      let ups := s.sq.nodes.filter fun k => (kidPtrs k).contains old
      let walk := fun (w : Walk) => { w with todo := w.todo.map swap, seen := w.seen.map swap }
      let s : State := { s with sq.roots := s.sq.roots.map fun r => { r with ptr := swap r.ptr }, eng.walks := s.eng.walks.map walk }
      let s := ups.foldl (fun s k => setNode s { k with kids := k.kids.map (Option.map swap) }) s
      (m, recomputeUp 5 m (dropSlot s slot))
  | _, _ => (slot, s)

/-- A node is read over the pins; an uncorrectable one is rebuilt in a new slot (R216). -/
def fetchNode (s : State) (slot requester : Nat) : Option TreeNode × State :=
  match readRun s (slot / 2 ^ 17) (slot / 2 % 2 ^ 16) 1 cleanFrame requester with
  | (some _, s) => (nodeAt s slot, s)
  | (none, s) =>
    let (m, s) := rebuildNode s slot requester
    (nodeAt s m, s)

end Sys2Proof.Machine
end

