-- ==== Sys2Proof/Machine/Attend.lean ====
section
/-! DEFINITION. The attention engine (chapter 5) and Pepper's page walks (chapter 7): units, span passes in banks and on arrays,
records, selections. -/

namespace Sys2Proof.Machine

open Sys2Proof

/-! ## The body (Table 5-2, Table 7-3) -/

def atSeq (b : Bytes) : Nat := fld b 0 8
def atEpoch (b : Bytes) : Nat := fld b 8 4
def atLayer (b : Bytes) : Nat := fld b 0xC 1
def atKv0 (b : Bytes) : Nat := bfld b 0xD 1 5 0
def atKvN (b : Bytes) : Nat := bfld b 0xE 1 6 0
def atG (b : Bytes) : Nat := bfld b 0xF 1 4 0
def atNq (b : Bytes) : Nat := bfld b 0x10 1 6 0
def atMask (b : Bytes) : Nat := bfld b 0x11 1 1 0
def atArrival (b : Bytes) : Bool := flagAt b 0x11 2
def atFp8 (b : Bytes) : Bool := flagAt b 0x11 3
def atStaged (b : Bytes) : Bool := flagAt b 0x11 4
def atHeld (b : Bytes) : Bool := flagAt b 0x11 5
def atDim (b : Bytes) : Nat := bfld b 0x12 1 1 0
def atParam (b : Bytes) : Nat := fld b 0x14 4
def atLo (b : Bytes) : Nat := bfld b 0x18 2 13 0
def atLog (b : Bytes) : Nat := fld b 0x1A 1
def atPos (b : Bytes) (q : Nat) : Nat := fld b (0x80 + 4 * q) 4
def atHq (b : Bytes) : Nat := atKvN b * atG b

/-- Bytes of a query element, and of the query block (R148). -/
def atElem (b : Bytes) : Nat := if atFp8 b then 1 else 2
def atBlockLen (b : Bytes) : Nat := atNq b * atHq b * headDim (atDim b) * atElem b

def selBeam (b : Bytes) : Nat := bfld b 0x50 1 6 0
def selSink (b : Bytes) : Nat := bfld b 0x51 1 4 0
def selRecent (b : Bytes) : Nat := bfld b 0x52 1 6 0
def selOut (b : Bytes) : Bool := flagAt b 0x53 0
def selTop (b : Bytes) : Nat := bfld b 0x54 2 9 0
def selAddr (b : Bytes) : Nat := fld b 0x58 8

/-- Length of a request body: slot offsets 0x040 to 0xFF7. -/
def bodyLen : Nat := 4024

/-- The query block is kept behind the body once it has been read (R149). -/
def queryAt (b : Bytes) (q k n : Nat) : Bytes :=
  cut b (bodyLen + (q * atHq b + k) * headDim (atDim b) * atElem b) (n * headDim (atDim b) * atElem b)

/-! ## Checks -/

/-- The merge parent that a local input names (R168): its staging offset and cell. -/
def mergeParent (s : State) (r : Rq) : Option (Nat × Nat) :=
  let a := fld r.body 0x20 8
  let child := a / 2 ^ 16 % 64
  if a / 2 ^ 22 ≠ 0 then none
  else match reqOf s (.net (a % 65536)) with
    | some p => if p.op == 0x03 && p.lease == r.lease && decide (child < mfN p.body) && p.id != r.id then
        some (mfInput p.body child, fld p.body 0x1C 4) else none
    | none => none

/-- Bytes written at COVER_ADDR: the coverage map, or the arrival mask of a merge (R156, R174). -/
def coverLen (r : Rq) : Nat := if r.op = 0x03 then 8 else atKvN r.body * ceilDiv (2 ^ atLog r.body) 8

/-- NOTIFY_ADDR of an internal slot's request is a guest address (R307). -/
def noticeOk (s : State) (r : Rq) : Bool :=
  !(if r.op = 0x03 then mfNotify r.body else flagAt r.body 0x11 7) || addrOk s r (fld r.body 0x40 8) 8

/-- Bytes of one selection list (R226). -/
def selLen (b : Bytes) : Nat := roundUp (8 + 4 * (selSink b + selRecent b + selTop b + 1)) 8

/-- SEL_ADDR of an internal slot's request is a guest address (R307). -/
def selOk (s : State) (r : Rq) : Bool :=
  !(r.op == 0x02 && selOut r.body) || addrOk s r (selAddr r.body) (atNq r.body * atKvN r.body * selLen r.body)

/-- The result destination of ATTEND and MERGE_FORWARD (R150, R168, R307): none where it is refused, else the local place. -/
def destination (s : State) (r : Rq) (len : Nat) : Option (Option (Nat × Nat)) :=
  let b := r.body
  match r.id with
  | .net _ =>
    if fld b 0x2C 4 = 0xFFFFFFFF then
      if fld b 0x30 8 ≠ 0 then none else (mergeParent s r).map some
    else if qpOk s r (fld b 0x2C 4) 0 then some none else none
  | .int _ _ =>
    if qpOk s r (fld b 0x2C 4) (fld b 0x28 4) && addrOk s r (fld b 0x20 8) len &&
        (fld b 0x30 8 = 0 || addrOk s r (fld b 0x30 8) (coverLen r)) && noticeOk s r && selOk s r then some none else none

/-- Ranges and reserved bytes of an ATTEND body (R150), and of Table 7-3 (R220). -/
def attendRange (s : State) (r : Rq) : Bool :=
  let b := r.body
  let sel := r.op == 0x02
  bfld b 0xD 1 7 6 = 0 && bfld b 0xE 1 7 7 = 0 && bfld b 0xF 1 7 5 = 0 && bfld b 0x10 1 7 7 = 0 &&
  bfld b 0x12 1 7 2 = 0 && zeroAt b 0x13 1 && bfld b 0x18 2 15 14 = 0 && zeroAt b 0x1B 1 && zeroAt b 0x4C 4 &&
  decide (1 ≤ atKvN b ∧ atKvN b ≤ 64) && decide (1 ≤ atG b ∧ atG b ≤ 16) && decide (1 ≤ atNq b ∧ atNq b ≤ 64) &&
  decide (atMask b ≤ 2) && decide (atDim b ≤ 2) && decide (atLog b ≤ 14) && decide (1 ≤ fld b 0x1C 4) &&
  decide (atNq b * atHq b ≤ 4096) && decide (atLo b % 2 ^ atLog b = 0) && decide (atLo b + 2 ^ atLog b ≤ 16384) &&
  !(atMask b = 0 && atParam b ≠ 0) && !(atMask b = 1 && atParam b = 0) &&
  (if atStaged b then stageOk s r.lease (fld b 0x48 4) (atBlockLen b) && restZero b 0x180
   else decide (atBlockLen b ≤ 3640) && restZero b (0x180 + atBlockLen b)) &&
  zeroAt b (0x80 + 4 * atNq b) (4 * (64 - atNq b)) &&
  (if sel then
     !atHeld b && bfld b 0x50 1 7 7 = 0 && bfld b 0x51 1 7 5 = 0 && bfld b 0x52 1 7 7 = 0 && bfld b 0x53 1 7 1 = 0 &&
     bfld b 0x54 2 15 10 = 0 && zeroAt b 0x56 2 && zeroAt b 0x60 32 &&
     decide (1 ≤ selBeam b ∧ selBeam b ≤ 64) && decide (selSink b ≤ 16) && decide (selRecent b ≤ 64) &&
     decide (1 ≤ selTop b ∧ selTop b ≤ 512) && (selOut b || selAddr b = 0) &&
     !(selOut b && fld b 0x2C 4 = 0xFFFFFFFF)
   else zeroAt b 0x50 48)

/-- Visible interval of query `q` (R144). -/
def atBounds (r : Rq) (q : Nat) : Int × Int := visBounds (atMask r.body) (atPos r.body q) (atParam r.body) r.len

/-- Positions lo to hi touch [a, a + n). -/
def meetsRange (iv : Int × Int) (a n : Nat) : Bool :=
  decide (iv.1 ≤ iv.2) && decide (iv.1 < ((a + n : Nat) : Int)) && decide ((a : Int) ≤ iv.2)

/-- Some query sees a position of span `i`. -/
def spanSeen (r : Rq) (i : Nat) : Bool := (List.range (atNq r.body)).any fun q => meetsRange (atBounds r q) (1024 * i) 1024

def snapSpan (r : Rq) (l h i : Nat) : Option Span := r.snap.find? fun x => x.layer == l && x.head == h && x.idx == i

/-- Spans of the range, each with the KV heads of the request. -/
def atSpans (b : Bytes) : List (Nat × Nat) :=
  (List.range (2 ^ atLog b)).flatMap fun i => (List.range (atKvN b)).map fun h => (atLo b + i, atKv0 b + h)

/-- The status that the spans of a request decide (R152, R165, R433, Table 12-3). -/
def spanStatus (s : State) (r : Rq) : Option (Nat × Nat) :=
  let b := r.body
  let k := tenantOf s r.tenant
  let seen := (atSpans b).filter fun p => spanSeen r p.1
  let held := seen.filterMap fun p => snapSpan r (atLayer b) p.2 p.1
  let array := held.any fun x => x.state == .flashOnly || x.strength != 0
  match held.find? fun x => x.state == .stub with
  | some x => some (stSTALE, x.stubNode)
  | none =>
    if !atHeld b && decide (held.length < seen.length) then
      some (if atEpoch b < (k.map Tenant.floor).getD 0 then (stSTALE, 0) else (stUNKNOWN, 0))
    else if array && ((k.map Tenant.groups).getD []).isEmpty then some (stQUOTA, 0)
    else if held.any (fun x => x.state == .flashOnly) && (k.map Tenant.flashMib).getD 0 = 0 then some (stQUOTA, 0)
    else none

/-! ## Issue of span passes -/

/-- Pages that one SPAN_ATTEND takes (R105, Table 5-4); 0 where a page is split (R115). -/
def pagesPerOp (fmt dim heads : Nat) : Nat :=
  let m := 256 / (headDim dim * kvSize fmt)
  let m := if heads > 8 then m / 2 else m
  if m = 0 then (if fmt ≠ 2 && heads ≤ 8 then 1 else if fmt ≠ 2 && dim = 1 then 1 else 0) else m

/-- Cut runs of pages into the page runs of single operations. -/
def cutRuns (m : Nat) (runs : List (Nat × Nat)) : List (Nat × Nat) :=
  runs.flatMap fun r => (List.range (ceilDiv r.2 m)).map fun i => (r.1 + i * m, min m (r.2 - i * m))

/-- The operations of a span pass but for LOAD_REG and STORE_REG: code, SUB, first page, pages. -/
def passOps (fmt dim heads : Nat) (runs : List (Nat × Nat)) : List (Nat × Nat × Nat × Nat) :=
  let m := pagesPerOp fmt dim heads
  let rs := cutRuns (max 1 m) runs
  let n := rs.length
  (rs.mapIdx fun i r =>
    let start := if i = 0 then 1 else 0
    let fin := if i + 1 = n then 2 else 0
    if m = 0 then [(opSpanQk, start, r.1, r.2), (opSpanPv, fin, r.1, r.2)]
    else [(opSpanAttend, start + fin, r.1, r.2)]).flatten

/-- What a span pass computes: its query heads' bytes and the visibility parameters. -/
structure PassSpec where
  heads : Nat
  fp8   : Bool
  query : Bytes
  mask  : Nat
  pos   : Nat
  param : Nat
  len   : Nat

/-- Send a span pass to its span's bank. -/
def issueBank (s : State) (own : Bool → Own) (t : Nat) (x : Span) (runs : List (Nat × Nat)) (p : PassSpec) : State :=
  let d0 : Desc := { clearDesc with sub := 0, count := ceilDiv p.query.length 64 }
  let s := enqueue s x.bank opLoad t d0 p.query (own false)
  let s := (passOps x.fmt x.dim p.heads runs).foldl (fun s o =>
    let d : Desc := { clearDesc with fmt := x.fmt + (if p.fp8 then 4 else 0), sub := o.2.1, frame := x.frame, first := o.2.2.1,
                                     count := o.2.2.2, heads := p.heads, dim := x.dim, mask := p.mask,
                                     arg0 := x.idx * 1024, arg1 := p.pos, arg2 := p.param, arg3 := p.len }
    enqueue s x.bank o.1 t d [] (own false)) s
  let d9 : Desc := { clearDesc with sub := 2, pent := 7, heads := p.heads, dim := x.dim }
  pump (enqueue s x.bank opStore t d9 [] (own true)) x.bank noEnv

/-- The group that takes a tenant's next span pass (R606). -/
def nextGroup (s : State) (t : Nat) : Option (Nat × State) :=
  match tenantOf s t with
  | none => none
  | some k =>
    let gs := sortBy (fun a b => decide (a < b)) k.groups
    let last := (s.arr.turns.find? fun p => p.1 == t).map Prod.snd
    let g := match last with
      | some l => (gs.find? fun g => decide (l < g)).or gs.head?
      | none => gs.head?
    g.map fun g => (g, { s with arr.turns := putBy (fun p => p.1 == t) (t, g) s.arr.turns })

def groupOf (s : State) (g : Nat) : Group := (s.arr.groups.find? fun x => x.id == g).getD { id := g }

/-- Arrays of a group on which no pass runs, ascending. -/
def freeArrays (s : State) (g : Nat) : List Nat :=
  ((List.range 15).map (15 * g + ·)).filter fun a => !(s.arr.jobs.any fun j => j.arr == some a && j.ready)

/-- The group's governor takes a charge if its credit allows (R267, R268). -/
def groupTake (s : State) (g charge : Nat) : Option State :=
  let k := groupOf s g
  let c := groupCredit s k
  if s.pw.dieStep = 3 || c < charge then none
  else some { s with arr.groups := mapIf (fun x => x.id == g) (fun x => { x with credit := c - charge, creditAt := s.now }) s.arr.groups }

/-- Jobs of a group whose next pass waits in its dispatcher, in arm order within each class (R259). -/
def groupQueue (s : State) (g : Nat) : List ArrJob :=
  sortBy (fun a b => decide (a.prio < b.prio) || (a.prio == b.prio && decide (a.order < b.order)))
    (s.arr.jobs.filter fun j => j.group == g && !j.ready)

def replaceJob (s : State) (old new : ArrJob) : State := { s with arr.jobs := s.arr.jobs.map fun x => if x == old then new else x }

/-- Tenant of the request that a job serves. -/
def jobTenant (s : State) (j : ArrJob) : Option Nat := (reqOf s j.req).map Rq.tenant

/-- No pass of another tenant still runs on the group (R260 steps 2 to 5). -/
def groupClear (s : State) (g : Nat) (t : Option Nat) : Bool :=
  !(s.arr.jobs.any fun x => x.group == g && x.ready && jobTenant s x != t)

/-- The array that takes a job's next pass: the one its column runs on, or the lowest free one (R259). -/
def placeFor (s : State) (j : ArrJob) : Option Nat :=
  let free := freeArrays s j.group
  match j.arr with
  | some a => if free.contains a then some a else none
  | none => free.head?

/-- The group's local stores hold a tenant's work from now on; they were scrubbed before (R260 step 4). -/
def useStore (s : State) (g : Nat) (t : Option Nat) : State :=
  { s with arr.groups := mapIf (fun x => x.id == g) (fun x => { x with store := t }) s.arr.groups }

/-- Issue waiting passes to free arrays while the governor allows; it lets no later pass by (R259, R267). -/
def dispatchN : Nat → State → Nat → State
  | 0, s, _ => s
  | n + 1, s, g =>
    match (groupQueue s g).findSome? fun j => (placeFor s j).map fun a => (j, a) with
    | none => s
    | some (j, a) =>
      let t := jobTenant s j
      if !groupClear s g t then s
      else match groupTake s g j.charge with
        | some s => dispatchN n (useStore (replaceJob s j { j with arr := some a, ready := true }) g t) g
        | none => s

def dispatch (s : State) (g : Nat) : State := dispatchN 16 s g

/-- A tenant holds a group (R257). -/
def holdsGroup (s : State) (t g : Nat) : Bool := match tenantOf s t with | some k => k.groups.contains g | none => false

/-- A job whose group is given up goes back to the dispatcher of another group of its tenant; none where it holds none (R260
step 3). -/
def requeue (s : State) (j : ArrJob) (t : Nat) : Option State :=
  match nextGroup s t with
  | none => none
  | some (g, s) => some (dispatch (dispatch (replaceJob s j { j with group := g, arr := none, ready := false }) g) j.group)

/-- Pages of a run list, ascending. -/
def runPages (runs : List (Nat × Nat)) : List Nat := runs.flatMap fun r => (List.range r.2).map (r.1 + ·)

/-- pJ of a span pass on an array: 2.0 nJ for each ARR cycle of R606. -/
def spanCharge (x : Span) (heads pages : Nat) : Nat :=
  2000 * (pages * (32 + ceilDiv (pageBytes x.fmt x.dim) 256 * ceilDiv heads 8) + (pages - 1) * (4 + headDim x.dim / 32))

/-- Blocks that hold the pages of a pass. -/
def passBlocks (x : Span) (runs : List (Nat × Nat)) : List Nat :=
  distinct ((runPages runs).map fun p => p / pagesPerBlock x.fmt x.dim)

/-- Reserve flash-read space and start the direct read of a pass (R339 steps 1 and 2). -/
def startDirect (s : State) (r : Rq) (u p : Nat) (x : Span) (runs : List (Nat × Nat)) : State :=
  match x.flash with
  | none => s
  | some i => match (r.vers.find? fun v => v.idx == i).or (objOf s i) with
    | none => s
    | some v =>
      let k := match tenantOf s r.tenant with | some k => k.epoch | none => 0
      let s := setSpace s r.tenant (spaceUsed s r.tenant + 128)
      { s with fl.nextJob := s.fl.nextJob + 1,
               fl.jobs := s.fl.jobs ++ [⟨s.fl.nextJob, r.tenant, k, .direct r.id u p, v, passBlocks x runs, [], none⟩] }

def spaceFree (s : State) (t : Nat) : Bool :=
  match tenantOf s t with | some k => decide (spaceUsed s t + 128 ≤ 1024 * k.flashMib) | none => false

/-- A pass of any request of the tenant waits for space. -/
def spaceWaits (s : State) (t : Nat) : Bool :=
  s.eng.reqs.any fun r => r.tenant == t && r.units.any fun u => u.passes.any fun p => p.stage == 4

def setPass (s : State) (id : Req) (u p : Nat) (f : PassWork → PassWork) : State :=
  mapReq s id fun r => { r with units := r.units.mapIdx fun i x =>
    if i = u then { x with passes := x.passes.mapIdx fun j y => if j = p then f y else y } else x }

/-- What the passes of a unit compute. -/
def unitSpec (r : Rq) (u : UnitWork) : PassSpec :=
  ⟨u.n, atFp8 r.body, queryAt r.body u.q (u.kv * atG r.body + u.g0) u.n, atMask r.body, atPos r.body u.q, atParam r.body, r.len⟩

/-- The first page of a pass that bears a loss mark. -/
def lostPage (s : State) (x : Span) (runs : List (Nat × Nat)) : Option Nat := (runPages runs).find? fun p => isLost s x p

/-- End a request early: what no die has taken is withdrawn, and it completes once what runs has ended (R409, Table 5-5). -/
def stopAt (s : State) (id : Req) (status : Nat) : State :=
  let s := withdraw s id
  if inFlight s id then mapReq s id fun r => { r with stop := some (r.stop.getD status) } else finish s id status

def stopLost (s : State) (id : Req) (detail : Nat) : State :=
  stopAt (mapReq s id fun r => { r with detail := if r.stop.isSome then r.detail else detail }) id stLOST

/-- Give a span pass over a SEALED or FLASH_ONLY span to an array group (R165); without one the request
completes NO_QUOTA (R258, R260 step 3). -/
def issueArray (s : State) (r : Rq) (u p heads : Nat) (x : Span) (runs : List (Nat × Nat)) : State :=
  match nextGroup s r.tenant with
  | none => stopAt s r.id stQUOTA
  | some (g, s) =>
    let pages := runPages runs
    let job : ArrJob := { group := g, req := r.id, prio := r.prio, order := r.order, kind := .span u p, todo := pages,
                          charge := spanCharge x heads pages.length }
    dispatch { s with arr.jobs := s.arr.jobs ++ [job] } g

/-- A request that is to stop completes when nothing of it runs any more. -/
def settleStop (s : State) (id : Req) : State :=
  match reqOf s id with
  | some r => match r.stop with
    | some st => if inFlight s id then s else finish s id st
    | none => s
  | none => s

/-- Issue one pass of a unit. -/
def issuePass (s : State) (id : Req) (u p : Nat) : State :=
  match reqOf s id with
  | none => s
  | some r => match r.units[u]? with
    | none => s
    | some w => match w.passes[p]? with
      | none => s
      | some k =>
        if k.stage ≠ 0 || r.stop.isSome then s
        else match lostPage s k.entry k.runs with
          | some pg => stopLost s id (pageDetail k.entry pg)
          | none =>
            let s := match spanOf s k.entry.als k.entry.layer k.entry.head k.entry.idx with
              | some y => if k.entry.state == .flashOnly then s else setSpan s { y with lastRead := s.readTime }
              | none => s
            if k.entry.state == .flashOnly then
              if spaceFree s r.tenant && !spaceWaits s r.tenant then
                issueArray (startDirect (setPass s id u p fun x => { x with stage := 1 }) r u p k.entry k.runs) r u p w.n k.entry k.runs
              else setPass s id u p fun x => { x with stage := 4 }
            else
              let s := setPass s id u p fun x => { x with stage := 1 }
              if k.entry.strength = 0 then issueBank s (fun l => .pass id u p l) r.tenant k.entry k.runs (unitSpec r w)
              else issueArray s r u p w.n k.entry k.runs

/-- An earlier pass of a unit still waits to be issued. -/
def passWaits (s : State) (id : Req) (u p : Nat) : Bool :=
  match (reqOf s id).bind fun r => r.units[u]? with
  | some w => (w.passes.take p).any fun x => x.stage == 0 || x.stage == 4
  | none => true

/-- Issue the passes of a unit that R162's window admits, in ascending span index in DETERMINISTIC mode. -/
def fillWindow (s : State) (id : Req) (u : Nat) : State :=
  match reqOf s id with
  | none => s
  | some r => match r.units[u]? with
    | none => s
    | some w =>
      let f := (w.passes.findIdx fun p => p.stage != 2)
      (List.range w.passes.length).foldl (fun s p =>
        if atArrival r.body || (decide (p < f + 31) && !passWaits s id u p) then issuePass s id u p else s) s

/-! ## Units -/

/-- Head groups of a KV head: first head and heads (R110). -/
def headGroups (b : Bytes) : List (Nat × Nat) :=
  let m := min 16 (2048 / headDim (atDim b))
  (List.range (ceilDiv (atG b) m)).map fun i => (i * m, min m (atG b - i * m))

/-- Merge-pool bytes of a unit (R163). -/
def poolBytes (b : Bytes) (n : Nat) : Nat := (if atArrival b then 1 else atLog b + 32) * n * recLen (atDim b)

def poolUsed (s : State) : Nat :=
  sumBy (fun r => sumBy (fun u => if u.stage = 1 then u.pool else 0) r.units) s.eng.reqs

/-- Pages of span `i` that meet an interval: first and count (R145). -/
def spanRunOf (iv : Int × Int) (i : Nat) : Option (Nat × Nat) :=
  let ps := (List.range 64).filter fun p => meetsRange iv (1024 * i + 16 * p) 16
  match ps with
  | [] => none
  | f :: _ => some (f, ps.length)

/-- Maximal runs of consecutive pages among the pages of a span that `sel` holds (R224). -/
def runsOf (ps : List Nat) : List (Nat × Nat) :=
  (ps.foldl (fun (acc : List (Nat × Nat)) p =>
    match acc with
    | (f, n) :: rest => if f + n = p then (f, n + 1) :: rest else (p, 1) :: acc
    | [] => [(p, 1)]) []).reverse

/-- The passes of one KV head for a query: by the visible interval, or over selected pages. -/
def passesOf (r : Rq) (q kv : Nat) (sel : Option (List Nat)) : List PassWork :=
  let b := r.body
  (List.range (2 ^ atLog b)).filterMap fun i =>
    let i := atLo b + i
    match snapSpan r (atLayer b) (atKv0 b + kv) i with
    | none => none
    | some x =>
      let runs := match sel with
        | none => match spanRunOf (atBounds r q) i with | some rn => [rn] | none => []
        | some ps => runsOf ((List.range 64).filter fun p => ps.contains (64 * i + p))
      if runs.isEmpty then none else some ⟨i, x, runs, 0, 0, none⟩

def unitsOf (r : Rq) (q kv : Nat) (sel : Option (List Nat)) : List UnitWork :=
  (headGroups r.body).map fun g => ⟨q, kv, g.1, g.2, 0, poolBytes r.body g.2, passesOf r q kv sel⟩

/-- Units a request has in all. -/
def unitTotal (b : Bytes) : Nat := atNq b * atKvN b * (headGroups b).length

/-- The records of a unit from its passes' partials (R160, R161). -/
def unitRecords (r : Rq) (u : UnitWork) : Bytes :=
  let d := headDim (atDim r.body)
  (List.range u.n).flatMap fun h =>
    let part := fun (p : PassWork) => match p.parts with | some ps => ps.getD h (absentPart d) | none => absentPart d
    recordBytes d (
      if atArrival r.body then
        match sortBy (fun (a b : PassWork) => decide (a.at_ < b.at_)) (u.passes.filter fun p => p.parts.isSome) with
        | [] => absentPart d
        | p :: ps => ps.foldl (fun a x => mergePart a (part x)) (part p)
      else canon (fun _ _ => none)
        (fun i => match u.passes.find? fun p => p.idx == i with | some p => part p | none => absentPart d)
        (atLog r.body) (atLo r.body))

/-- Coverage map (R156). -/
def coverage (r : Rq) : Bytes :=
  let b := r.body
  (List.range (atKvN b)).flatMap fun kv =>
    let bits := (List.range (2 ^ atLog b)).map fun i =>
      (snapSpan r (atLayer b) (atKv0 b + kv) (atLo b + i)).isSome || !spanSeen r (atLo b + i)
    (List.range (ceilDiv (2 ^ atLog b) 8)).map fun n =>
      BitVec.ofNat 8 (((bits.drop (8 * n)).take 8).foldr (fun x a => 2 * a + (if x then 1 else 0)) 0)

/-- Selection lists (R226). -/
def selLists (r : Rq) : Bytes :=
  let b := r.body
  let z := selLen b
  ((List.range (atNq b)).flatMap fun q => (List.range (atKvN b)).map fun kv => (q, kv)).flatMap fun p =>
    match r.sels.find? fun x => x.q == p.1 && x.kv == p.2 with
    | some x => cut (u16 x.pages.length ++ u16 x.ranked ++ u32 x.stale ++ x.pages.flatMap u32) 0 z
    | none => zeros z

/-- The words after the records (R155, R226) and the completion. -/
def attendEnd (s : State) (id : Req) : State :=
  match reqOf s id with
  | none => s
  | some r =>
    let b := r.body
    let rkey := fld b 0x28 4
    let qp := fld b 0x2C 4
    let s := if r.op == 0x02 && selOut b then emit s r qp (selAddr b) rkey (selLists r) else s
    let s := if fld b 0x30 8 ≠ 0 then emit s r qp (fld b 0x30 8) rkey (coverage r) else s
    let s := if flagAt b 0x11 6 then resPut s r (atNq b * atHq b * recLen (atDim b)) (u64 (fld b 0x38 8)) else s
    let s := if flagAt b 0x11 7 then notifyCell s r qp (fld b 0x40 8) rkey else s
    finish s id stOK

/-- A running unit whose passes have all ended writes its records; its reservation is freed (R163, R167). -/
def closeUnit (s : State) (id : Req) (u : Nat) : State :=
  match reqOf s id with
  | none => s
  | some r => match r.units[u]? with
    | none => s
    | some w =>
      if w.stage = 1 && w.passes.all (fun p => p.stage == 2) && r.stop.isNone then
        let off := (w.q * atHq r.body + w.kv * atG r.body + w.g0) * recLen (atDim r.body)
        let s := resPut s r off (unitRecords r w)
        let shut := fun (i : Nat) (x : UnitWork) => if i = u then { x with stage := 2, passes := [] } else x
        let s := mapReq s id fun r => { r with pnr := true, count := r.count + w.n, units := r.units.mapIdx shut }
        match reqOf s id with
        | some r => if r.units.length = unitTotal r.body && r.units.all (fun x => x.stage == 2) then attendEnd s id else s
        | none => s
      else s

/-- A request whose next unit waits for the merge pool. -/
def poolBlocked (r : Rq) : Bool :=
  r.ctx && r.stop.isNone && r.units.any (fun u => u.stage == 0) && decide ((r.units.filter fun u => u.stage == 1).length < 16)

/-- Start units in record order while 16 units and the pool allow, behind the requests that wait for the pool before it (R164). -/
def startUnitsN : Nat → State → Req → State
  | 0, s, _ => s
  | n + 1, s, id =>
    match reqOf s id with
    | none => s
    | some r =>
      if r.stop.isSome then s
      else
      let u := r.units.findIdx fun u => u.stage == 0
      match r.units[u]? with
      | none => s
      | some w =>
        if (r.units.filter fun u => u.stage == 1).length < 16 && poolUsed s + w.pool ≤ 67108864 &&
            ((waiting s poolBlocked).head?.map Rq.id) == some id then
          let s := mapReq s id fun r => { r with units := r.units.mapIdx fun i x => if i = u then { x with stage := 1 } else x }
          startUnitsN n (closeUnit (fillWindow s id u) id u) id
        else s

def startUnits (s : State) (id : Req) : State :=
  match reqOf s id with | some r => startUnitsN (r.units.length + 1) s id | none => s

/-- A pass of a unit has its span partial. -/
def passDone (s : State) (id : Req) (u p : Nat) (parts : List Part) : State :=
  match reqOf s id with
  | none => s
  | some r => match r.units[u]? with
    | none => s
    | some w => match w.passes[p]? with
      | none => s
      | some k =>
        if r.stop.isSome then settleStop s id
        else if k.stage ≠ 1 then s
        else
          let s := if k.entry.state == .flashOnly then setSpace s r.tenant (spaceUsed s r.tenant - 128) else s
          let n := (w.passes.filter fun x => x.parts.isSome).length
          let s := setPass s id u p fun x => { x with stage := 2, at_ := n, parts := some parts }
          startUnits (closeUnit (fillWindow s id u) id u) id

/-- Parts of a partial-store entry's bytes (Table 4-2). -/
def partsOf (heads d : Nat) (b : Bytes) : List Part :=
  let f := fun o => BitVec.ofNat 32 (fld b o 4)
  (List.range heads).map fun h =>
    ⟨f (8 * h), f (8 * h + 4), (List.range d).map fun k => f (8 * heads + 4 * (h * d + k))⟩

/-- A bank operation of a pass met a fault (R124): the page is repaired and the pass repeated, or the request ends. -/
def passFault (s : State) (id : Req) (u p fault page : Nat) : State :=
  match reqOf s id with
  | none => s
  | some r => match r.units[u]? with
    | none => s
    | some w => match w.passes[p]? with
      | none => s
      | some k =>
        -- the operations of the ended pass that still wait are withdrawn
        let s := cutOps s (fun _ o => passOf o.own == some (id, u, p)) fun _ => false
        if r.stop.isSome then settleStop s id
        else if fault = fTag || fault = fEcc then
          match pageBad s r k.entry page (if fault = fTag then 4 else 1) with
          | (s, true) => issuePass (setPass s id u p fun x => { x with stage := 0 }) id u p
          | (s, false) => stopLost s id (pageDetail k.entry page)
        else stopAt s id stINTERNAL

/-! ## Walks (R219 to R227) -/

def pepperUsed (s : State) : Nat := s.eng.walks.length

/-- First page and pages of the block. -/
def blockPages (b : Bytes) : Nat × Nat := (64 * atLo b, 64 * 2 ^ atLog b)

/-- Query elements of one head widened to FP32. -/
def queryElems (b : Bytes) (q k : Nat) : List F32 :=
  let f : Fmt := if atFp8 b then .e4m3 else .bf16
  (elemCodes f (queryAt b q k 1)).map (widen f)

def walkSketch (s : State) (r : Rq) (q kv : Nat) : Nat :=
  let seed := match seqAny s r.handle with | some x => x.seed | none => 0
  querySketch seed (headDim (atDim r.body)) ((List.range (atG r.body)).map fun g => queryElems r.body q (kv * atG r.body + g))

/-- Signed sum of V under the query sketch (R221). -/
def nodeScore (sk : Nat) (n : TreeNode) : Int :=
  ((n.v.foldl (fun (a : Int × Nat) v => (if sk.testBit a.2 then a.1 + v else a.1 - v, a.2 + 1)) ((0 : Int), 0))).1

def sketchDist (a b : Nat) : Nat := popcount 256 (a ^^^ b)

def nodeMeets (iv : Int × Int) (n : TreeNode) : Bool := meetsRange iv (16 * n.first) (16 * 16 ^ n.level)

/-- Every page of the node is below F and meets the interval (R221). -/
def nodeWhole (iv : Int × Int) (f : Nat) (n : TreeNode) : Bool :=
  let last := n.first + 16 ^ n.level - 1
  decide (last < f) && meetsRange iv (16 * n.first) 16 && meetsRange iv (16 * last) 16

/-- keep and split_nodes of one level (R223). -/
def keepNodes (iv : Int × Int) (f beam sk : Nat) (ns : List TreeNode) : List TreeNode :=
  let ns := ns.filter (nodeMeets iv)
  let split := ns.filter fun n => !nodeWhole iv f n
  let keep := (sortBy (fun (x y : TreeNode) => decide (nodeScore sk x > nodeScore sk y) ||
    (nodeScore sk x == nodeScore sk y && decide (x.first < y.first))) (ns.filter (nodeWhole iv f))).take beam
  sortBy (fun (x y : TreeNode) => decide (x.first < y.first)) (keep ++ split)

/-- The selection from the last level's nodes (R223): pages ascending, and how many were ranked. -/
def selectPages (b : Bytes) (iv : Int × Int) (f sk : Nat) (ns : List TreeNode) : List Nat × Nat :=
  let meets := fun p => meetsRange iv (16 * p) 16
  let (lo, n) := blockPages b
  let inBlk := fun p => decide (lo ≤ p ∧ p < lo + n)
  let ph := iv.2 / 16
  let leaves := (ns.flatMap fun n => n.leaves.mapIdx fun i l => (n.first + i, l)).filterMap fun x =>
    match x.2 with | some l => if meets x.1 then some (x.1, l) else none | none => none
  let tail := (leaves.filter fun x => !decide (x.1 < f)).map Prod.fst
  let sink := (List.range (selSink b)).filter fun p => inBlk p && meets p && decide ((p : Int) ≤ ph)
  let recent := (List.range (selRecent b)).filterMap fun (i : Nat) =>
    let p : Int := ph - (selRecent b : Int) + 1 + (i : Int)
    if p ≥ 0 && inBlk p.toNat && meets p.toNat then some p.toNat else none
  let forced := distinct (tail ++ sink ++ recent)
  let ranked := sortBy (fun (x y : Nat × Nat) => decide (x.2 < y.2) || (x.2 == y.2 && decide (x.1 < y.1)))
    ((leaves.filter fun x => decide (x.1 < f) && !forced.contains x.1).map fun x => (x.1, sketchDist x.2 sk))
  let taken := (ranked.take (selTop b)).map Prod.fst
  (sortBy (fun a b => decide (a < b)) (forced ++ taken), taken.length)

/-- Start level of a walk (R222). -/
def startLevel (b : Bytes) : Nat := (6 + atLog b) / 4

/-- Stale edges of a node to children that touch the block. -/
def staleIn (s : State) (blk : Nat × Nat) (n : TreeNode) : Nat :=
  let w := 16 ^ (n.level - 1)
  ((List.range 16).filter fun i => match n.kids.getD i none with
    | some p => !ptrLive s p && decide (blk.1 < n.first + (i + 1) * w ∧ n.first + i * w < blk.1 + blk.2)
    | none => false).length

/-- A walk has read every node of its level: the next level, or its selection. -/
def walkTurn (s : State) (w : Walk) : State × Option SelWork :=
  match reqOf s w.req, w.kind with
  | some r, .pages q kv =>
    let b := r.body
    let iv := atBounds r q
    let f := r.len / 16
    let ns := sortBy (fun (x y : TreeNode) => decide (x.first < y.first)) (w.seen.filterMap fun p => nodeAt s p.slot)
    let below := startLevel b
    let (lo, n) := blockPages b
    let go := if w.level > below then ns
      else keepNodes iv f (selBeam b) w.sketch (ns.filter fun x => decide (lo < x.first + 16 ^ x.level ∧ x.first < lo + n))
    if w.level ≤ 1 then
      let (ps, k) := selectPages b iv f w.sketch go
      (s, some ⟨q, kv, true, ps, k, w.stale⟩)
    else
      let st := sumBy (staleIn s (lo, n)) go
      let kids := go.flatMap (presentKids s)
      let kids := if w.level > below then kids.filter fun p => match nodeAt s p.slot with
          | some x => decide (lo < x.first + 16 ^ x.level ∧ x.first < lo + n)
          | none => false
        else kids
      let w' := { w with level := w.level - 1, todo := kids, seen := [], stale := w.stale + st }
      (addStale { s with eng.walks := mapIf (fun x => x.ctx == w.ctx) (fun _ => w') s.eng.walks } r.tenant st, none)
  | _, _ => (s, none)

/-- Close a walk with its selection: its context is freed and its units start (R227). -/
def walkEnd (s : State) (w : Walk) (x : SelWork) : State :=
  let s := { s with eng.walks := s.eng.walks.filter fun y => y.ctx != w.ctx }
  match reqOf s w.req with
  | none => s
  | some r =>
    if r.stop.isSome then settleStop s w.req
    else
      let units := unitsOf r x.q x.kv (some x.pages)
      startUnits (mapReq s w.req fun r => { r with sels := r.sels ++ [x], units := r.units ++ units }) w.req

/-- Turn a walk on while it has nothing to read. -/
def walkRun : Nat → State → Nat → State
  | 0, s, _ => s
  | n + 1, s, ctx =>
    match s.eng.walks.find? fun w => w.ctx == ctx with
    | none => s
    | some w =>
      if !w.todo.isEmpty then s
      else match walkTurn s w with
        | (s, some x) => walkEnd s w x
        | (s, none) => walkRun n s ctx

/-- The lowest Pepper context not in use. -/
def freeCtx (s : State) : Option Nat := lowest 8192 fun i => !(s.eng.walks.any fun w => w.ctx == i)

/-- Paths still to be built are built before a walk starts (R218); true where the walk must wait for one. -/
def buildPaths (s : State) (h : Nat) : State × Bool :=
  match seqAny s h with
  | some x =>
    if x.rebuild then
      let s := rebuildTree s x
      (s, ((seqAny s h).map Seq.rebuild).getD false)
    else (s, false)
  | none => (s, false)

/-- Start a page walk in a free context; none where none is free or a path is still to be built. -/
def startWalk (s : State) (r : Rq) (q kv : Nat) : Option State :=
  let (s, wait) := buildPaths s r.handle
  match (if wait then none else freeCtx s) with
  | none => none
  | some c =>
    let a := match seqAny s r.handle with | some x => x.als | none => 0
    let l := atLayer r.body
    let h := atKv0 r.body + kv
    let root := rootOf s a l h
    let st := staleRoot s a l h
    let w : Walk := ⟨c, r.id, .pages q kv, walkSketch s r q kv, 5, root.toList, [], st, s.sq.gen⟩
    some (walkRun 8 (addStale { s with eng.walks := s.eng.walks ++ [w] } r.tenant st) c)

/-- Walks of a request in walk order, each taking a context or waiting for one (R227). -/
def startWalks (s : State) (id : Req) : State :=
  match reqOf s id with
  | none => s
  | some r =>
    ((List.range (atNq r.body)).flatMap fun q => (List.range (atKvN r.body)).map fun kv => (q, kv)).foldl (fun s p =>
      if s.eng.waits.isEmpty then
        match startWalk s r p.1 p.2 with
        | some s => s
        | none => { s with eng.waits := s.eng.waits ++ [⟨id, .pages p.1 p.2⟩] }
      else { s with eng.waits := s.eng.waits ++ [⟨id, .pages p.1 p.2⟩] }) s

/-! ## Start -/

/-- Dispatch a request that has been given its attention context. -/
def attendGo (s : State) (id : Req) : State :=
  match reqOf s id with
  | none => s
  | some r =>
    let s := mapReq s id fun r => { r with ctx := true, phase := .running }
    if r.op == 0x03 then wake s (fld r.body 0x1C 4)
    else if r.op == 0x02 then startWalks s id
    else
      let units := ((List.range (atNq r.body)).flatMap fun q => (List.range (atKvN r.body)).map fun kv => (q, kv)).flatMap
        fun p => unitsOf r p.1 p.2 none
      startUnits (mapReq s id fun r => { r with units := units }) id

/-- A request takes an attention context, or waits behind those that wait already (R164). -/
def attendQueue (s : State) (id : Req) : State :=
  if ctxUsed s attnOps < 4096 && (waiting s fun r => attnOps.contains r.op && r.phase == .context && r.id != id).isEmpty then
    attendGo s id
  else mapReq s id fun r => { r with phase := .context }

/-- ATTEND and ATTEND_SELECT after the slot's checks (R150 to R152, R433). -/
def attendStart (s : State) (id : Req) : State :=
  match reqOf s id with
  | none => s
  | some r =>
    let b := r.body
    let len := atNq b * atHq b * recLen (atDim b) + 8
    if !attendRange s r then finish s id stMALFORMED
    else match destination s r len with
      | none => finish s id stMALFORMED
      | some into =>
        match seqCheck s r.tenant (atSeq b) (atEpoch b) with
        | .inr p => finishAt s id p
        | .inl q =>
          if atLayer b ≥ q.layers then finish s id stUNKNOWN
          else if atDim b ≠ q.dim || atKv0 b + atKvN b > q.kvh then finish s id stMALFORMED
          else if q.len = 0 then finish s id stNOTCOMMITTED
          else
            let block := if atStaged b then stageRead s r.lease (fld b 0x48 4) (atBlockLen b)
              else cut b 0x180 (atBlockLen b)
            let r := { r with handle := q.handle, len := q.len, into := into,
                              vers := s.fl.objs.filter fun v => v.seq == q.handle,
                              snap := s.sq.spans.filter fun x => x.als == q.als && x.layer == atLayer b,
                              body := cut b 0 bodyLen ++ block, deadline := r.armTime + 1000 * fld b 0x1C 4 }
            let s := mapReq s id fun _ => r
            match spanStatus s r with
            | some p => finishAt s id p
            | none => attendQueue s id

/-- Ranges of a MERGE_FORWARD body (R169, R170). -/
def mergeRange (s : State) (r : Rq) : Bool :=
  let b := r.body
  let n := mfN b
  let lg := fld b 7 1
  let lo := bfld b 8 2 13 0
  let blk := fun i => (mfChild b i).1
  let sz := fun i => 2 ^ (mfChild b i).2
  decide (1 ≤ fld b 0 4) && bfld b 4 1 7 7 = 0 && decide (1 ≤ n ∧ n ≤ 64) && bfld b 5 1 7 3 = 0 && bfld b 6 1 7 2 = 0 &&
  decide (mfDim b ≤ 2) && decide (lg ≤ 14) && bfld b 8 2 15 14 = 0 && decide (lo % 2 ^ lg = 0) &&
  decide (lo + 2 ^ lg ≤ 16384) &&
  decide (1 ≤ mfRecs b ∧ mfRecs b ≤ 4096) && decide (fld b 0x18 4 % 64 = 0) &&
  decide (mfRecs b * recLen (mfDim b) + 8 ≤ fld b 0x18 4) && decide (fld b 0x1C 4 < 65536) && zeroAt b 0x48 8 &&
  restZero b (0x50 + 4 * n) &&
  ((List.range n).all fun i => bfld b (0x50 + 4 * i) 4 31 18 = 0 && decide ((mfChild b i).2 ≤ 14) &&
    decide (blk i % sz i = 0) && decide (lo ≤ blk i ∧ blk i + sz i ≤ lo + 2 ^ lg) &&
    (List.range i).all fun j => decide (blk i + sz i ≤ blk j) || decide (blk j + sz j ≤ blk i)) &&
  decide (fld b 0x10 8 + n * fld b 0x18 4 ≤ stageSize s r.lease) && cellHeld s r.lease (fld b 0x1C 4)

/-- MERGE_FORWARD after the slot's checks. -/
def mergeStart (s : State) (id : Req) : State :=
  match reqOf s id with
  | none => s
  | some r =>
    if !mergeRange s r then finish s id stMALFORMED
    else match destination s r (mfRecs r.body * recLen (mfDim r.body) + 8) with
      | none => finish s id stMALFORMED
      | some into =>
        let s := mapReq s id fun r => { r with into := into, deadline := r.armTime + 1000 * fld r.body 0 4 }
        attendQueue s id

/-- A merge's deadline (R175). -/
def mergeTimeout (s : State) (r : Rq) : State :=
  let r := mfExamine s r
  let s := mapReq s r.id fun _ => { r with count := r.kids.length }
  finish (if r.ctx then mfWrite s r else s) r.id stTIMEDOUT

end Sys2Proof.Machine
end

