-- ==== Sys2Proof/Machine/Append.lean ====
section
/-! DEFINITION. The append class (chapter 6): turns, writer bindings, the scatter of a block page by page, COMMIT, TRUNCATE and
the discard of uncommitted rows. -/

namespace Sys2Proof.Machine

open Sys2Proof

/-! ## Bodies (Table 6-1, Table 6-3) -/

def apLayer (b : Bytes) : Nat := fld b 0xC 1
def apKv0 (b : Bytes) : Nat := bfld b 0xD 1 5 0
def apKvN (b : Bytes) : Nat := bfld b 0xE 1 6 0
def apFp8 (b : Bytes) : Bool := flagAt b 0xF 0
def apRope (b : Bytes) : Bool := flagAt b 0xF 1
def apPos (b : Bytes) : Nat := fld b 0x10 4
def apTok (b : Bytes) : Nat := fld b 0x14 2
def apStage (b : Bytes) : Nat := fld b 0x18 8

def cmExpect (b : Bytes) : Nat := fld b 0xC 4
def cmNew (b : Bytes) : Nat := fld b 0x10 4

/-- The append-class opcodes (R181). -/
def appendOps : List Nat := [0x10, 0x11, 0x12]

/-- NOTIFY bit and the offset of NOTIFY_ADDR of an append-class body. -/
def apNotify (r : Rq) : Bool := if r.op = 0x10 then flagAt r.body 0xF 2 else flagAt r.body 0x18 0
def apNotifyOff (r : Rq) : Nat := if r.op = 0x10 then 0x28 else 0x20

/-! ## Writing rows -/

/-- Bytes of a row of D elements in the page format from FP32 values (R77, R117). -/
def rowCode (fmt : Nat) (xs : List F32) : Bytes :=
  elemBytes (kvFmt fmt) (xs.map (narrow (kvFmt fmt)))

/-- A page with rows from `row` upward replaced; each row is its key and value halves. -/
def patchRows (fmt dim : Nat) (page : Bytes) (row : Nat) (rows : List (List F32 × List F32)) : Bytes :=
  let n := headDim dim * kvSize fmt
  (rows.foldl (fun (a : Bytes × Nat) kv =>
    (patch (patch a.1 (a.2 * n) (rowCode fmt kv.1)) (16 * n + a.2 * n) (rowCode fmt kv.2), a.2 + 1)) (page, row)).1

/-- A migration at this source copies a written block again (R436). -/
def touchCopy (s : State) (x : Span) (p : Nat) : State :=
  match seqByAlias s x.als with
  | none => s
  | some q =>
    let c : CopyBlk := ⟨x.als, x.layer, x.head, x.idx, p / pagesPerBlock x.fmt x.dim⟩
    { s with fl.migs := s.fl.migs.map fun m =>
        if m.source && m.seqs.contains q.handle && !m.todo.contains c && m.state != .stubbed then { m with todo := m.todo ++ [c] }
        else m }

/-- A migration at this source copies every block of a span again (Table 15-8). -/
def touchSpan (s : State) (x : Span) : State := (List.range 64).foldl (fun s p => touchCopy s x p) s

/-- Page `p` has been written from row `row`; the frontier being set is `w` (R187 step 6, R327, R328). -/
def pageDirty (s : State) (x : Span) (p row w : Nat) : State :=
  match spanOf s x.als x.layer x.head x.idx with
  | some y =>
    let n := rowsBelow x.idx p w
    touchCopy (setSpan s (mapPage y p fun q => { pageWritten row q with wr := max q.wr n })) x p
  | none => s

/-- WR of every page of a layer and head follows its frontier (R193, R327). -/
def recountRows (s : State) (q : Seq) (l h : Nat) : State :=
  let w := match seqAny s q.handle with | some q => q.front l h | none => 0
  (s.sq.spans.filter fun x => x.als == q.als && x.layer == l && x.head == h).foldl (fun s x =>
    setSpan s { x with pages := x.pages.mapIdx fun p y => { y with wr := rowsBelow x.idx p w } }) s

/-- A new span's entry, its frames zeroed with their tags (R42, R48, R187 step 1). Its SPAN_GEN starts at 0 (DESIGN CHOICE, log entry
103). -/
def newSpan (s : State) (q : Seq) (l h i : Nat) : Option (Span × State) :=
  let st := kvStrength s q.tenant
  match allocate s q.tenant (spanRun q.fmt q.dim st) st .span q.als (spanBanks q.als l h i) with
  | none => none
  | some (r, s) =>
    let x : Span := { als := q.als, layer := l, head := h, idx := i, tenant := q.tenant, gen := 0, state := .resident,
                      dim := q.dim, fmt := q.fmt, strength := st, bank := r.bank, frame := r.first, lastRead := s.readTime }
    some (x, publish (tagNew s x) x)

/-- Rows of one QUANT_STORE: the fewest operations within R105, divided as equally as possible. -/
def storeParts (fmt dim rows : Nat) : List Nat :=
  let fits := fun n => decide (cyclesOf { id := 0 } opQuant { clearDesc with fmt := fmt, dim := dim, count := n } 0 ≤ 800)
  match (List.range rows).find? fun k => fits (ceilDiv rows (k + 1)) with
  | none => [rows]
  | some k => (List.range (k + 1)).map fun i => rows / (k + 1) + (if i < rows % (k + 1) then 1 else 0)

/-! ## Zeroing above a length (R198 steps 3 and 4, R200) -/

/-- A page met uncorrectable while the node zeroes rows: repaired from T2, else marked lost (R522, R523). -/
def zeroFault (s : State) (x : Span) (p source : Nat) : State :=
  let f := x.frame + p * pageBytes x.fmt x.dim / 4096
  match refetch s x p with
  | some s => uncorrectable s x.bank f source 0 (some x.tenant) true false (pageDetail x p) 0 0 0
  | none => uncorrectable (markLost s x p) x.bank f source 0 (some x.tenant) false true (pageDetail x p) 0 0 0

/-- Descriptor of an operation on page `p` of a span. -/
def pageDesc (x : Span) (p : Nat) : Desc := { clearDesc with sub := 0, fmt := x.fmt, dim := x.dim, frame := x.frame, first := p }

/-- Bank operations that store rows of an OPEN page from row `row` upward: QUANT_STORE and PAGE_TAG_WRITE pairs (R187 step 3, R198
step 3). -/
def storeOps (x : Span) (p row : Nat) (rows : List (List F32 × List F32)) : List (Nat × Desc × Bytes) :=
  ((storeParts x.fmt x.dim rows.length).foldl (fun (a : List (Nat × Desc × Bytes) × Nat) n =>
    let chan := ((rows.drop a.2).take n).flatMap fun kv => (kv.1 ++ kv.2).flatMap fun v => u32 v.toNat
    (a.1 ++ [(opQuant, { pageDesc x p with count := n, arg0 := row + a.2 }, chan),
             (opTagWrite, { pageDesc x p with count := 1 }, [])], a.2 + n)) ([], 0)).1

/-- SKETCH_PAGE of a page of an OPEN span below D = 256 (R122). -/
def sketchOps (q : Seq) (x : Span) (p rows : Nat) : List (Nat × Desc × Bytes) :=
  if x.strength = 0 && x.dim ≠ 2 then
    [(opSketch, { pageDesc x p with arg0 := q.seed % 2 ^ 32, arg1 := q.seed / 2 ^ 32, arg2 := rows }, [])]
  else []

/-- Operations on a page within a step; where one meets an error, the page is repaired or marked lost and they are repeated. -/
def pageOps (s : State) (x : Span) (p : Nat) (ops : List (Nat × Desc × Bytes)) : State :=
  match stepOps x.bank x.tenant ops s with
  | (some (f, _), s) =>
    if f = fEcc || f = fTag then (stepOps x.bank x.tenant ops (zeroFault s x p (if f = fTag then 4 else 1))).2 else s
  | (none, s) => s

/-- SKETCH_PAGE of a page, or its sketch over the pins (R122, R205). -/
def sketchPageOf (s : State) (q : Seq) (x : Span) (p rows : Nat) : State :=
  if (sketchOps q x p rows).isEmpty then (pinSketch s q x p rows 0).2 else pageOps s x p (sketchOps q x p rows)

/-- FILL_ZERO with TAGS of the frames of an OPEN span from page `p` on (R198 step 3). -/
def fillFrom (s : State) (x : Span) (p : Nat) : State :=
  let lo := ceilDiv (p * pageBytes x.fmt x.dim) 4096
  let hi := spanFrames x.fmt x.dim
  (List.range (ceilDiv (hi - lo) 2)).foldl (fun s i =>
    let d : Desc := { clearDesc with sub := 1, fmt := x.fmt, dim := x.dim, frame := x.frame + lo + 2 * i, count := min 2 (hi - lo - 2 * i) }
    (stepOp s x.bank opFill x.tenant d []).2) s

/-- Zero the rows of one page at or above row `n`: zero rows stored with their tag and sketch, or a page of a SEALED span rewritten. -/
def zeroPage (s : State) (q : Seq) (x : Span) (p n : Nat) : State :=
  if x.strength = 0 then
    let blank := List.replicate (headDim x.dim) (0#32 : F32)
    let s := pageOps s x p (storeOps x p n (List.replicate (16 - n) (blank, blank)))
    if n = 0 then s else sketchPageOf s q x p n
  else
    let put := fun (s : State) (v : Bytes) => writePage s x p (keepRows x.fmt x.dim n v)
    let s := match readPage s x p cleanFrame 0 with
      | (⟨some v, _⟩, s) => put s v
      | (⟨none, src⟩, s) =>
        let s := if n = 0 then s else zeroFault s x p src
        match readPage s x p cleanFrame 0 with
        | (⟨some v, _⟩, s) => put s v
        | (⟨none, _⟩, s) => if n = 0 then put s [] else s
    if n = 0 then s else (pinSketch s q x p n 0).2

/-- Zero rows of a span at or above position `c` (R198 step 3). -/
def zeroSpan (s : State) (q : Seq) (x : Span) (c : Nat) : State :=
  let pb := pageBytes x.fmt x.dim
  let here := x.state == .resident || x.state == .moving
  -- first page that lies in frames wholly at or above `c`
  let top := ceilDiv (c - x.idx * 1024) 16
  let fill := if top * pb % 4096 = 0 then top else top + 1
  let s := if here && x.strength = 0 && decide (fill < 64) then fillFrom s x fill else s
  let s := (List.range 64).foldl (fun s p =>
    let n := rowsBelow x.idx p c
    if n = 16 then s
    else
      let s := touchCopy s x p
      if !here then s
      else if x.strength = 0 && decide (fill ≤ p) then s else zeroPage s q x p n) s
  match spanOf s x.als x.layer x.head x.idx with
  | some y =>
    let cutPage := fun (p : Nat) (z : PageSt) =>
      let n := rowsBelow x.idx p c
      if n = 16 then z else { pageWritten n z with wr := min z.wr n, lost := z.lost && n != 0 }
    setSpan s { y with pages := y.pages.mapIdx cutPage }
  | none => s

/-- Zeroing above `c` can be carried out now: no span it writes is MOVING (R24, R53), and the banks whose pages it rewrites can take the
operations and pin accesses (R106, R137). -/
def zeroReady (s : State) (q : Seq) (c : Nat) : Bool :=
  (s.sq.spans.filter fun x => x.als == q.als && decide (c < (x.idx + 1) * 1024)).all fun x =>
    x.state != .moving && (x.state != .resident || decide (c ≤ x.idx * 1024) ||
      (calm s x.bank && (x.strength != 0 || opFree s x.bank)))

/-- Free a span: its frames, its T2 copy and its entry. -/
def freeSpan (s : State) (x : Span) : State :=
  let s := freeFlash (freeSpanFrames s x) x
  { s with sq.spans := s.sq.spans.filter fun y => !x.same y, sq.gen := s.sq.gen + 1 }

/-- Zero rows and free spans at or above position `c` in every layer and head, with the trees (R198, R214). -/
def zeroAbove (s : State) (q : Seq) (c : Nat) : State :=
  let s := (s.sq.spans.filter fun x => x.als == q.als).foldl (fun s x =>
    if c ≤ x.idx * 1024 then freeSpan s x else if c < (x.idx + 1) * 1024 then zeroSpan s q x c else s) s
  (List.range q.layers).foldl (fun s l => (List.range q.kvh).foldl (fun s h =>
    let (leaf, s) := if c % 16 = 0 then (none, s)
      else match spanOf s q.als l h (c / 1024) with
        | some x =>
          let (k, s) := sketchFor s q x (c / 16 % 64) (c % 16) true
          (some (c / 16, k), s)
        | none => (none, s)
    treeTrim s q.als l h (ceilDiv c 16) leaf) s) s

/-! ## Bindings (R180) -/

/-- Row table of a RUN_LAYERS, kept behind the body: sequence, position and C at arm of each row (Table 10-6). -/
def rlRows (b : Bytes) : Nat := bfld b 2 2 11 0
def rlSeq (b : Bytes) (i : Nat) : Nat := fld b (bodyLen + 16 * i) 8
def rlPos (b : Bytes) (i : Nat) : Nat := fld b (bodyLen + 16 * i + 8) 4
def rlLen (b : Bytes) (i : Nat) : Nat := fld b (bodyLen + 16 * i + 12) 4
def rlSeqs (b : Bytes) : List Nat := distinct ((List.range (rlRows b)).map (rlSeq b))

/-- Sequences on which a request is of the append class (R181, R290); a RUN_LAYERS that appends lists its rows as page steps. -/
def appendsTo (r : Rq) : List Nat :=
  if appendOps.contains r.op then [r.handle] else if r.op == 0x30 && r.pages.length != 0 then rlSeqs r.body else []

/-- A request of the lease that writes the sequence has started and not completed; a scatter has once its turn has come. -/
def writing (s : State) (handle lease : Nat) : Bool :=
  s.eng.reqs.any fun r => (r.op == 0x10 || r.op == 0x30) && (appendsTo r).contains handle && r.lease == lease &&
    (r.phase == .running || r.phase == .moving || r.phase == .commit || r.phase == .finishing || (r.op == 0x10 && r.phase == .context))

/-- Discard uncommitted rows (R200 step 2), or leave that for when no span is MOVING and the banks are free for it (R24). -/
def discard (s : State) (q : Seq) : State :=
  if zeroReady s q q.len then
    mapSeq (zeroAbove s q q.len) q.als fun q => { q with wBase := q.len, fronts := [], writer := none, discard := false }
  else mapSeq s q.als fun q => { q with discard := true }

/-- Discards that waited are carried out. -/
def settleDiscards (s : State) : State := (s.sq.seqs.filter fun q => q.discard && zeroReady s q q.len).foldl discard s

def leaseEnded (s : State) (l : Nat) : Bool := match leaseOf s l with | some x => x.state != .active | none => true

/-- The binding ends at its first moment, and the rows of a lease that has ended are discarded. -/
def rebind (s : State) (handle : Nat) : State :=
  match seqAny s handle with
  | none => s
  | some q => match q.writer with
    | none => s
    | some l =>
      if writing s handle l then s
      else if leaseEnded s l then discard s q
      else if q.level q.len then mapSeq s q.als fun q => { q with writer := none }
      else s

/-! ## Turns (R181, R438) -/

/-- The bindings whose end a completion has brought (R180). -/
def settleBindings (s : State) : State := (s.sq.seqs.filter fun q => q.writer.isSome).foldl (fun s q => rebind s q.handle) s

/-- An earlier append-class request that has not completed, or a discard, holds this one back (R181, R200). -/
def turnOk (s : State) (r : Rq) : Bool :=
  !(s.sq.seqs.any fun q => q.discard && (appendsTo r).contains q.handle) &&
  !(s.eng.reqs.any fun x => x.id != r.id && decide (x.order < r.order) &&
    (appendsTo x).any (fun h => (appendsTo r).contains h) &&
    (r.op != 0x10 || x.op != 0x10 ||
     (apLayer x.body == apLayer r.body &&
      decide (apKv0 x.body < apKv0 r.body + apKvN r.body ∧ apKv0 r.body < apKv0 x.body + apKvN x.body))))

/-- A migration's gate holds the request: FREEZE before a new binding, FROZEN every append-class request. -/
def gated (s : State) (r : Rq) : Bool :=
  (appendsTo r).any fun h => match migOf s h with
    | none => false
    | some m => m.source && (m.state == .frozen ||
        (m.state == .freezing && (r.op == 0x10 || r.op == 0x30) &&
          (match seqAny s h with | some q => q.writer.isNone | none => false)))

/-! ## APPEND_SCATTER -/

/-- Ranges of Table 6-1 that no sequence decides. -/
def appendRange (s : State) (r : Rq) : Bool :=
  let b := r.body
  bfld b 0xD 1 7 6 = 0 && bfld b 0xE 1 7 7 = 0 && bfld b 0xF 1 7 3 = 0 && zeroAt b 0x16 2 && zeroAt b 0x24 4 &&
  restZero b 0x38 && decide (1 ≤ apKvN b ∧ apKvN b ≤ 64) && decide (1 ≤ apTok b ∧ apTok b ≤ 4096) &&
  decide (1 ≤ fld b 0x20 4) && decide (apStage b % 64 = 0) && decide (apPos b + apTok b ≤ 16777216) &&
  qpOk s r (fld b 0x34 4) (fld b 0x30 4) && (!flagAt b 0xF 2 || addrOk s r (fld b 0x28 8) 8)

/-- The cases of R186 that depend on the sequence's attributes. -/
def appendFits (s : State) (r : Rq) (q : Seq) : Bool :=
  let b := r.body
  let e := if apFp8 b then 1 else 2
  decide (apKv0 b + apKvN b ≤ q.kvh) &&
  decide (apStage b + apTok b * apKvN b * 2 * headDim q.dim * e ≤ stageSize s r.lease) &&
  (!apRope b || (decide (q.rope ≠ 0xFFFFFFFF) && decide (apPos b + apTok b - 1 + q.posOff < 2 ^ 24)))

/-- The page steps of a block (R187): page groups in ascending position, heads within each. -/
def pageSteps (b : Bytes) : List PageWork :=
  let p0 := apPos b / 16
  let p1 := (apPos b + apTok b - 1) / 16
  (List.range (p1 + 1 - p0)).flatMap fun i =>
    let pg := p0 + i
    let lo := max (apPos b) (16 * pg)
    let hi := min (apPos b + apTok b) (16 * pg + 16)
    (List.range (apKvN b)).map fun k => ⟨apKv0 b + k, pg / 64, pg % 64, lo % 16, hi - lo, lo - apPos b, 0⟩

/-- A rotary table of the tenant. -/
def ropeTable (s : State) (id : Nat) : Option Obj := s.sq.objs.find? fun o => o.kind == .rope && o.id == id

/-- Rotate a key row for its position (R188). -/
def ropeKey (table : Bytes) (q : Nat) (row : List F32) : List F32 :=
  ropeRow (bfld table 2 1 0 0) ((List.range (row.length / 2)).map fun i => ropePair table q i) row

/-- Key and value halves of a token of the block, widened, the key rotated where ROPE asks (R187 step 2). -/
def blockRow (s : State) (r : Rq) (q : Seq) (head tok : Nat) : List F32 × List F32 :=
  let b := r.body
  let d := headDim q.dim
  let f : Fmt := if apFp8 b then .e4m3 else .bf16
  let e := if apFp8 b then 1 else 2
  let o := apStage b + (tok * apKvN b + (head - apKv0 b)) * 2 * d * e
  let xs := (elemCodes f (stageRead s r.lease o (2 * d * e))).map (widen f)
  let key := xs.take d
  let key := if apRope b then
      match ropeTable s q.rope with | some t => ropeKey t.bytes (apPos b + tok + q.posOff) key | none => key
    else key
  (key, xs.drop d)

def stepRows (s : State) (r : Rq) (q : Seq) (w : PageWork) : List (List F32 × List F32) :=
  (List.range w.rows).map fun i => blockRow s r q w.head (w.tok + i)

def frontierOf (q : Seq) (r : Rq) (h : Nat) : Nat := max (q.front (apLayer r.body) h) (apPos r.body + apTok r.body)

/-- Bank operations of a page step in an OPEN span: QUANT_STORE and PAGE_TAG_WRITE pairs, then SKETCH_PAGE. The tag of a BF16 page at
D = 256 takes 1,303 cycles by Table 4-6, more than the 800 of R105, and is written all the same (R116; log entry 100). -/
def issueOpen (s : State) (r : Rq) (q : Seq) (x : Span) (k : Nat) (w : PageWork) : State :=
  let ops := storeOps x w.page w.row (stepRows s r q w) ++ sketchOps q x w.page (rowsBelow x.idx w.page (frontierOf q r w.head))
  pump (ops.foldl (fun s o => enqueue s x.bank o.1 r.tenant o.2.1 o.2.2 (.page r.id k)) s) x.bank noEnv

/-- Pin accesses of a page step in a SEALED span (R192). -/
def issueSealed (s : State) (r : Rq) (x : Span) (k : Nat) (w : PageWork) : State :=
  let b := bankOf s x.bank
  setBank s { b with pins := b.pins ++ (pageFrames x w.page).map fun f => ⟨x.frame + f, none, .page r.id k⟩ }

def setStep (s : State) (id : Req) (k : Nat) (f : PageWork → PageWork) : State :=
  mapReq s id fun r => { r with pages := r.pages.mapIdx fun i w => if i = k then f w else w }

/-- Tokens from FIRST_POS whose rows are written in every head (R193). -/
def tokensDone (r : Rq) : Nat :=
  let bad := r.pages.filter fun w => w.stage != 2
  bad.foldl (fun m w => min m w.tok) (apTok r.body)

/-- The scatter ends: the frontiers, WR, the notification and the completion (R187, R193). -/
def appendEnd (s : State) (id : Req) : State :=
  match reqOf s id with
  | none => s
  | some r =>
    let n := tokensDone r
    let b := r.body
    match seqAny s r.handle with
    | none => finish s id (r.stop.getD stOK)
    | some q =>
      let heads := (List.range (apKvN b)).map (apKv0 b + ·)
      let s := mapSeq s q.als fun q => heads.foldl (fun q h =>
        q.setFront (apLayer b) h (max (q.front (apLayer b) h) (apPos b + n))) q
      let s := if r.stop.isSome then heads.foldl (fun s h => recountRows s q (apLayer b) h) s else s
      let s := mapReq s id fun r => { r with count := n }
      let s := if r.stop.isNone && apNotify r then notifyCell s r (fld b 0x34 4) (fld b 0x28 8) (fld b 0x30 4) else s
      let s := finish s id (r.stop.getD stOK)
      rebind s r.handle

/-- No further page is issued; pages in progress run to their end (R193). -/
def appendStop (s : State) (id : Req) (status : Nat) : State :=
  let s := mapReq s id fun r => { r with stop := some (r.stop.getD status),
                                         pages := r.pages.map fun w => if w.stage = 0 then { w with stage := 3 } else w }
  match reqOf s id with
  | some r => if r.pages.any fun w => w.stage == 1 then s else appendEnd s id
  | none => s

/-- Start an install for a page step: its frames are allocated first (R187 step 1, R326). -/
def startInstall (s : State) (r : Rq) (x : Span) : Option State :=
  if s.fl.jobs.any fun j => match j.kind with
      | .install _ a l h i => a == x.als && l == x.layer && h == x.head && i == x.idx
      | _ => false then some s
  else match x.flash.bind (objOf s), tenantOf s x.tenant, installPlace s x with
    | some v, some t, some (y, s) =>
      some { s with fl.nextJob := s.fl.nextJob + 1,
                    fl.jobs := s.fl.jobs ++ [{ id := s.fl.nextJob, tenant := x.tenant, epoch := t.epoch,
                                               kind := .install r.id x.als x.layer x.head x.idx, ver := v,
                                               todo := List.range v.blocks.length, place := some (y.bank, y.frame) }] }
    | _, _, _ => none

/-- Staging bytes of a row of a block (R187 step 2). -/
def rowOff (b : Bytes) (dim head tok : Nat) : Nat × Nat :=
  let n := 2 * headDim dim * (if apFp8 b then 1 else 2)
  (apStage b + (tok * apKvN b + (head - apKv0 b)) * n, n)

/-- A row of a page step lies in an uncorrectable word of the staging window (R193). -/
def blockBad (s : State) (r : Rq) (dim : Nat) (w : PageWork) : Bool :=
  (List.range w.rows).any fun i =>
    let p := rowOff r.body dim w.head (w.tok + i)
    stageBad s r.lease p.1 p.2

/-- The block's own uncorrectable word: its error record, and DATA_LOST with the first page not written (R193, R522). -/
def blockLoss (s : State) (r : Rq) (q : Seq) (w : PageWork) : State :=
  let o := (rowOff r.body q.dim w.head w.tok).1
  let s := match poolFrame (stagePool s r.lease) (o / 4096) with
    | some (g, f) => uncorrectable s g.bank f 1 1 (some r.tenant) false false 0 r.op (reqSlot r.id) r.lease
    | none => s
  let det := spanId q.als (apLayer r.body) w.head w.span + w.page * 2 ^ 48
  appendStop (mapReq s r.id fun r => { r with detail := if r.stop.isSome then r.detail else det }) r.id stLOST

/-- Start one page step (R187). -/
def startStep (s : State) (id : Req) (k : Nat) : State :=
  match reqOf s id with
  | none => s
  | some r => match r.pages[k]?, seqAny s r.handle with
    | some w, some q =>
      if blockBad s r q.dim w then blockLoss s r q w
      else
      let run := fun (s : State) (x : Span) =>
        let s := setStep s id k fun w => { w with stage := 1 }
        if x.strength = 0 then issueOpen s r q x k w else issueSealed s r x k w
      match spanOf s q.als (apLayer r.body) w.head w.span with
      | none => match newSpan s q (apLayer r.body) w.head w.span with
        | some (x, s) => run s x
        | none => appendStop (starved s r.tenant) id stQUOTA
      | some x => match x.state with
        | .resident => run s x
        | .moving => mapReq s id fun r => { r with phase := .moving }
        | .stub => appendStop (mapReq s id fun r => { r with redirect := x.stubNode }) id stSTALE
        | .flashOnly => match startInstall s r x with
          | some s => s
          | none => appendStop (starved s r.tenant) id stQUOTA
    | _, _ => s

/-- Start every page step whose span has no earlier step outstanding. -/
def appendFeed (s : State) (id : Req) : State :=
  match reqOf s id with
  | none => s
  | some r =>
    let s := (List.range r.pages.length).foldl (fun s k =>
      match reqOf s id with
      | none => s
      | some r => match r.pages[k]? with
        | some w =>
          if w.stage = 0 && r.stop.isNone &&
              ((r.pages.take k).all fun v => v.stage == 2 || !(v.head == w.head && v.span == w.span)) then startStep s id k
          else s
        | none => s) s
    match reqOf s id with
    | some r => if r.stop.isNone && r.pages.all (fun w => w.stage == 2) then appendEnd s id else s
    | none => s

/-- A page step's bytes are in place: steps 4 to 6 of R187, then the span's next page. -/
def stepDone (s : State) (id : Req) (k : Nat) : State :=
  match reqOf s id with
  | none => s
  | some r => match r.pages[k]?, seqAny s r.handle with
    | some w, some q =>
      match spanOf s q.als (apLayer r.body) w.head w.span with
      | none => s
      | some x =>
        let fr := frontierOf q r w.head
        let s := pageDirty s x w.page w.row fr
        let (sk, s) := fetchSk s q x w.page (rowsBelow x.idx w.page fr) (x.strength = 0 && x.dim ≠ 2)
        match treeUpdate s q.als (apLayer r.body) w.head q.tenant (w.span * 64 + w.page) (sk.getD 0) with
        | none => appendStop (setStep (starved s r.tenant) id k fun w => { w with stage := 3 }) id stQUOTA
        | some s =>
          let s := setStep s id k fun w => { w with stage := 2 }
          match reqOf s id with
          | some r =>
            if r.stop.isSome then (if r.pages.any fun w => w.stage == 1 then s else appendEnd s id) else appendFeed s id
          | none => s
    | _, _ => s

/-- An operation of a page step met a fault: the request ends (R124, R193). -/
def stepFault (s : State) (id : Req) (k fault : Nat) : State :=
  match reqOf s id with
  | none => s
  | some r =>
    let own : Own := .page id k
    let s := cutOps s (fun _ o => o.own == own) fun p => p.own == own
    let s := setStep s id k fun w => { w with stage := 3 }
    if fault = fTag || fault = fEcc then
      match r.pages[k]?, seqAny s r.handle with
      | some w, some q => match spanOf s q.als (apLayer r.body) w.head w.span with
        | some x =>
          let s := markLost s x w.page
          appendStop (mapReq s id fun r => { r with detail := if r.stop.isSome then r.detail else pageDetail x w.page }) id stLOST
        | none => appendStop s id stLOST
      | _, _ => appendStop s id stLOST
    else appendStop s id stINTERNAL

/-! ## COMMIT and TRUNCATE -/

def commitRange (s : State) (r : Rq) : Bool :=
  let b := r.body
  decide (cmNew b ≤ 16777216) && decide (1 ≤ fld b 0x14 4) && bfld b 0x18 4 31 1 = 0 && zeroAt b 0x1C 4 && restZero b 0x30 &&
  qpOk s r (fld b 0x2C 4) (fld b 0x28 4) && (!flagAt b 0x18 0 || addrOk s r (fld b 0x20 8) 8)

/-- The notification and the completion of an append-class request that is done. -/
def appendOk (s : State) (id : Req) : State :=
  match reqOf s id with
  | none => s
  | some r =>
    let c := match seqAny s r.handle with | some q => q.len | none => 0
    let o := apNotifyOff r
    let s := mapReq s id fun r => { r with count := c }
    let s := if apNotify r then notifyCell s r (fld r.body (o + 12) 4) (fld r.body o 8) (fld r.body (o + 8) 4) else s
    rebind (finish s id stOK) r.handle

/-- The loss bound of R196 allows C = `n`. -/
def commitFits (s : State) (q : Seq) (n : Nat) : Bool :=
  let l := match tenantOf s q.tenant with | some t => t.bound | none => 4
  decide (n - durable s { q with len := n } ≤ boundOf l n)

/-- A waiting COMMIT proceeds once the bound allows (R196, R197). -/
def commitTry (s : State) (id : Req) : State :=
  match reqOf s id with
  | none => s
  | some r => match seqAny s r.handle with
    | none => finish s id stUNKNOWN
    | some q =>
      if commitFits s q (cmNew r.body) then
        let t := tenantOf s q.tenant
        let s := mapSeq s q.als fun q => { q with len := cmNew r.body, bound := (t.map Tenant.bound).getD q.bound,
                                                  domain := (t.map Tenant.domain).getD q.domain }
        appendOk s id
      else mapReq s id fun r => { r with phase := .commit }

/-- COMMIT at its turn (R195). -/
def commitTurn (s : State) (r : Rq) (q : Seq) : State :=
  let b := r.body
  if cmNew b ≤ cmExpect b then finish s r.id stMALFORMED
  else if q.len = cmNew b then appendOk s r.id
  else if q.len ≠ cmExpect b then finish (mapReq s r.id fun r => { r with count := q.len }) r.id stNOTCOMMITTED
  else if !((List.range q.layers).all fun l => (List.range q.kvh).all fun h => decide (cmNew b ≤ q.front l h)) then
    finish (mapReq s r.id fun r => { r with count := q.len }) r.id stNOTCOMMITTED
  else commitTry s r.id

/-- Requests armed with a committed length above `n` still run (R198 step 2). -/
def olderRun (s : State) (r : Rq) (n : Nat) : Bool :=
  s.eng.reqs.any fun x => x.id != r.id &&
    ((x.handle == r.handle && decide (n < x.len)) ||
     (x.op == 0x30 && (List.range (rlRows x.body)).any fun i => rlSeq x.body i == r.handle && decide (n < rlLen x.body i)))

/-- TRUNCATE at its turn with its context (R198, step 1). -/
def truncateGo (s : State) (r : Rq) (q : Seq) : State :=
  let b := r.body
  if cmNew b > cmExpect b then finish s r.id stMALFORMED
  else if q.len ≠ cmExpect b then finish (mapReq s r.id fun r => { r with count := q.len }) r.id stNOTCOMMITTED
  else
    let n := cmNew b
    let s := mapSeq s q.als fun q => { q with len := n, wBase := n, fronts := [], writer := none }
    mapReq s r.id fun r => { r with pnr := true, ctx := true, phase := .older }

/-- Steps 2 to 5 of R198. -/
def truncateZero (s : State) (id : Req) : State :=
  match reqOf s id with
  | none => s
  | some r =>
    if r.op ≠ 0x12 || r.phase ≠ .older || olderRun s r (cmNew r.body) then s
    else match seqAny s r.handle with
      | none => finish s id stOK
      | some q => if zeroReady s q (cmNew r.body) then appendOk (zeroAbove s q (cmNew r.body)) id else s

/-! ## Turn and context -/

/-- Requests that wait for a scatter context. -/
def scatterWaits (s : State) (id : Req) : Bool :=
  s.eng.reqs.any fun r => scatterOps.contains r.op && r.phase == .context && r.id != id

def scatterFree (s : State) : Bool := decide (ctxUsed s scatterOps < 1024)

/-- A scatter or truncation that has its context runs. -/
def appendGo (s : State) (id : Req) : State :=
  match reqOf s id with
  | none => s
  | some r => match seqAny s r.handle with
    | none => finish s id stUNKNOWN
    | some q =>
      let s := mapReq s id fun r => { r with ctx := true, phase := .running }
      if r.op = 0x12 then truncateGo s r q
      else appendFeed (mapReq s id fun r => { r with pages := pageSteps r.body }) id

/-- The turn of an append-class request has come (R181): the binding, the checks against C and W, the context. -/
def appendTurn (s : State) (id : Req) : State :=
  match reqOf s id with
  | none => s
  | some r =>
    if !turnOk s r || gated s r then mapReq s id fun r => { r with phase := .turn }
    else match seqAny s r.handle with
      | none => finish s id stUNKNOWN
      | some q =>
        let b := r.body
        if q.writer.isSome && q.writer != some r.lease then finish s id stFENCED
        else if r.op = 0x11 then commitTurn s r q
        else if r.op = 0x10 && (decide (apPos b < q.len) ||
            (List.range (apKvN b)).any fun k => decide (q.front (apLayer b) (apKv0 b + k) < apPos b)) then finish s id stMALFORMED
        else if r.op = 0x10 && apRope b && (match ropeTable s q.rope with | some t => t.lost | none => false) then
          finish s id stINTERNAL
        else
          let s := if r.op = 0x10 then mapSeq s q.als fun q => { q with writer := some r.lease } else s
          if scatterFree s && !scatterWaits s id then appendGo s id
          else mapReq s id fun r => { r with phase := .context }

/-- A request of the append class after the slot's checks. -/
def appendStart (s : State) (id : Req) : State :=
  match reqOf s id with
  | none => s
  | some r =>
    let b := r.body
    let us := if r.op = 0x10 then fld b 0x20 4 else fld b 0x14 4
    let r := { r with handle := fld b 0 8, deadline := r.armTime + 1000 * us }
    let s := mapReq s id fun _ => r
    if !(if r.op = 0x10 then appendRange s r else commitRange s r) then finish s id stMALFORMED
    else match seqCheck s r.tenant (fld b 0 8) (fld b 8 4) with
      | .inr p => finishAt s id p
      | .inl q =>
        if r.op = 0x10 && apLayer b ≥ q.layers then finish s id stUNKNOWN
        else if r.op = 0x10 && !appendFits s r q then finish s id stMALFORMED
        else if q.writer.isSome && q.writer != some r.lease then finish s id stFENCED
        else appendTurn s id

end Sys2Proof.Machine
end

