-- ==== Sys2Proof/Machine/Vectors.lean ====
section
/-! DEFINITION. Vector collections (chapter 8): records, the collection tree, SEARCH, INSERT_VECTORS and DELETE_VECTORS. -/

namespace Sys2Proof.Machine

open Sys2Proof

/-! ## Records (R232, R234) -/

/-- Format, and the FMT code of DIST_EXACT, of a Table 10-3 value that a collection takes. -/
def collFmt (fmt : Nat) : Fmt := if fmt = 1 then .bf16 else if fmt = 2 then .e4m3 else if fmt = 3 then .e5m2 else .mxfp4
def distFmt (fmt : Nat) : Nat := if fmt = 1 then 2 else if fmt = 2 then 0 else if fmt = 3 then 1 else 3

/-- Bytes of a record before padding, and padded. -/
def recRaw (c : Coll) : Nat := dotRowBytes (distFmt c.fmt) c.dim + dotScaleBytes (distFmt c.fmt) c.dim
def recSize (c : Coll) : Nat := roundUp (recRaw c) 64

/-- Record bytes of FP32 elements (R76, R77, R246). -/
def recEncode (c : Coll) (xs : List F32) : Bytes :=
  let f := collFmt c.fmt
  if c.fmt = 5 then
    let bs := (chunks 32 (xs.length / 32 + 1) xs).map (mxQuant f)
    cut (elemBytes f (bs.flatMap Prod.snd) ++ bs.map (fun b => BitVec.ofNat 8 b.1)) 0 (recSize c)
  else cut (elemBytes f (xs.map (narrow f))) 0 (recSize c)

/-- Exact values of a stored record. -/
def recVals (c : Coll) (b : Bytes) : List FVal :=
  let n := dotRowBytes (distFmt c.fmt) c.dim
  dotVals (distFmt c.fmt) c.dim (cut b 0 n) (cut b n (dotScaleBytes (distFmt c.fmt) c.dim))

def recSketch (c : Coll) (b : Bytes) : Nat := sketchOf c.width c.seed ((recVals c b).map enc32)

/-! ## Collections -/

def collOf (s : State) (t i : Nat) : Option Coll := s.sq.colls.find? fun c => c.id == i && c.tenant == t && !c.gone
def collAny (s : State) (i : Nat) : Option Coll := s.sq.colls.find? fun c => c.id == i

/-- The node at a slot; a walk that started before a move still finds the old copy (R229). -/
def cnode (c : Coll) (slot : Nat) : Option CollNode := (c.nodes ++ c.old).find? fun n => n.slot == slot
def putNode (c : Coll) (n : CollNode) : Coll := { c with nodes := putBy (fun x => x.slot == n.slot) n c.nodes }

/-- Half-frame slots of a node (R235). -/
def nodeSlots (c : Coll) (level : Nat) : Nat :=
  let e := 0x40 + c.width / 8 + 2 * c.width
  ceilDiv (e + c.fanout * (if level = 1 then 24 + c.width / 8 else 8)) 2048

/-- Put a collection back, and write the nodes that have changed through the encoder (R55, R235). -/
def setColl (s : State) (c : Coll) : State :=
  let was := match collAny s c.id with | some o => o.nodes | none => []
  let new := c.nodes.filter fun n => !was.contains n
  let s : State := { s with sq.colls := putBy (fun x => x.id == c.id) c s.sq.colls }
  new.foldl (fun s n => writeSlots s n.slot (nodeSlots c n.level)) s

/-- A slot for a node of a collection. -/
def takeNode (s : State) (c : Coll) (level : Nat) : Option (Nat × State) :=
  let k := nodeSlots c level
  if k = 1 then takeSlot s c.tenant (65536 + c.id)
  else match s.sq.slots.find? fun x => x.tenant == c.tenant && !x.used && x.size == k &&
      !(s.hl.retiring.any fun r => r.bank == x.slot / 2 ^ 17) with
    | some x => some (x.slot, setUsed s x.slot true)
    | none => match takeFrames s c.tenant (ceilDiv k 2) (65536 + c.id) with
      | none => none
      | some (r, s) =>
        let x : TreeSlot := { slot := slotNo r.bank r.first 0, tenant := c.tenant, gen := 0, used := true, size := k }
        some (x.slot, { s with sq.slots := s.sq.slots ++ [x] })

/-- Free a node's slots (R211). -/
def dropCollSlot (s : State) (n : Nat) : State :=
  let free := fun (x : TreeSlot) => { x with used := false, gen := (x.gen + 1) % 65536, moved := none }
  let k := match treeSlot s n with | some x => x.size | none => 1
  let drop := fun (c : Coll) => { c with nodes := c.nodes.filter fun x => x.slot != n, old := c.old.filter fun x => x.slot != n }
  writeSlots { s with sq.slots := mapIf (fun x => x.slot == n) free s.sq.slots, sq.colls := s.sq.colls.map drop } n k

/-- SKETCH of a node from its V. -/
def nodeSketch (n : CollNode) : Nat := sketchBits n.v

def liveKids (s : State) (n : CollNode) : List Ptr := n.kids.filter (ptrLive s)

/-- V, ATTR_OR and ATTR_AND of a node from its contributors (R236). -/
def valueNode (s : State) (c : Coll) (n : CollNode) : CollNode :=
  if n.level = 1 then
    let es := n.ents.filter VecEnt.live
    { n with v := (List.range c.width).map fun b => es.foldl (fun a e => a + (if e.sk.testBit b then 1 else -1)) (0 : Int),
             attrOr := es.foldl (fun a e => a ||| e.attr) 0, attrAnd := es.foldl (fun a e => a &&& e.attr) allOnes64 }
  else
    let ks := (liveKids s n).filterMap fun p => cnode c p.slot
    { n with v := (List.range c.width).map fun b => clamp16 (ks.foldl (fun a k => a + k.v.getD b 0) (0 : Int)),
             attrOr := ks.foldl (fun a k => a ||| k.attrOr) 0, attrAnd := ks.foldl (fun a k => a &&& k.attrAnd) allOnes64 }

/-- Recompute every node in ascending level; nodes whose contributors have not changed keep their values. -/
def revalue (s : State) (c : Coll) : Coll :=
  (sortBy (fun (a b : CollNode) => decide (a.level < b.level)) c.nodes).foldl (fun c n =>
    match cnode c n.slot with | some n => putNode c (valueNode s c n) | none => c) c

/-! ## Insertion (R237) -/

/-- The nearest of some nodes by SKETCH, ties to the first. -/
def nearest (sk : Nat) : List CollNode → Option CollNode
  | [] => none
  | n :: ns => some (ns.foldl (fun m x => if sketchDist1024 sk x < sketchDist1024 sk m then x else m) n)
where
  sketchDist1024 (sk : Nat) (n : CollNode) : Nat := popcount 1024 (sk ^^^ nodeSketch n)

/-- Slots from the leaf up to the root on the descent of a sketch. -/
def descendColl (s : State) (c : Coll) (sk : Nat) : Nat → Nat → List Nat → List Nat
  | 0, slot, acc => slot :: acc
  | k + 1, slot, acc =>
    match cnode c slot with
    | none => acc
    | some n =>
      if n.level = 1 then slot :: acc
      else match nearest sk ((liveKids s n).filterMap fun p => cnode c p.slot) with
        | some m => descendColl s c sk k m.slot (slot :: acc)
        | none => slot :: acc

/-- Bits in the order in which a split tries them. -/
def splitBits (v : List Int) : List Nat :=
  (sortBy (fun (a b : Nat × Nat) => decide (a.2 < b.2)) (v.mapIdx fun i x => (i, x.natAbs))).map Prod.fst

/-- Divide a list by a bit of each element's sketch: those that stay and those that move. -/
def divide {α : Type} (v : List Int) (sk : α → Nat) (xs : List α) : List α × List α :=
  match (splitBits v).find? fun b => xs.any (fun x => (sk x).testBit b) && xs.any fun x => !(sk x).testBit b with
  | some b => (xs.filter fun x => !(sk x).testBit b, xs.filter fun x => (sk x).testBit b)
  | none => (xs.take (xs.length / 2), xs.drop (xs.length / 2))

/-- Split a node; the new node's slot. -/
def splitNode (s : State) (c : Coll) (n : CollNode) : Option (Nat × State × Coll) :=
  match takeNode s c n.level with
  | none => none
  | some (m, s) =>
    if n.level = 1 then
      let (a, b) := divide n.v VecEnt.sk n.ents
      some (m, s, putNode (putNode c (valueNode s c { n with ents := a })) (valueNode s c { n with slot := m, ents := b }))
    else
      let skOf := fun (p : Ptr) => match cnode c p.slot with | some k => nodeSketch k | none => 0
      let (a, b) := divide n.v skOf n.kids
      some (m, s, putNode (putNode c (valueNode s c { n with kids := a })) (valueNode s c { n with slot := m, kids := b }))

/-- Insert after the first element on which `p` holds. -/
def insertAfter {α : Type} (p : α → Bool) (x : α) : List α → List α
  | [] => [x]
  | y :: ys => if p y then y :: x :: ys else y :: insertAfter p x ys

/-- Give node `new` a place directly after `left` in the parent, splitting full parents; `ups` are the ancestors of `left`,
nearest first. -/
def addChild (left new level : Nat) : List Nat → State → Coll → Option (State × Coll)
  | [], s, c =>
    if level ≥ 6 then none
    else match takeNode s c (level + 1) with
      | none => none
      | some (m, s) =>
        let ptr := fun n => (⟨n, slotGen s n⟩ : Ptr)
        let r : CollNode := ⟨m, level + 1, [], [ptr left, ptr new], 0, 0, []⟩
        some (s, { putNode c (valueNode s c r) with root := some (ptr m) })
  | p :: ups, s, c =>
    match cnode c p with
    | none => none
    | some n =>
      let np : Ptr := ⟨new, slotGen s new⟩
      let place := fun (n : CollNode) => { n with kids := insertAfter (fun (k : Ptr) => k.slot == left) np n.kids }
      if n.kids.length < c.fanout then some (s, putNode c (place n))
      else match splitNode s c n with
        | none => none
        | some (m, s, c) =>
          let side := match cnode c p with | some a => if a.kids.any fun k => k.slot == left then p else m | none => m
          match cnode c side with
          | some a => addChild p m n.level ups s (putNode c (place a))
          | none => none

/-- A new path of nodes from below a node of a level down to a leaf that holds the entry (log entry 104). -/
def growLeaf (e : VecEnt) : Nat → Nat → State → Coll → Option (State × Coll)
  | 0, _, _, _ => none
  | k + 1, up, s, c =>
    match takeNode s c (k + 1), cnode c up with
    | some (m, s), some u =>
      let n : CollNode := ⟨m, k + 1, if k = 0 then [e] else [], [], 0, 0, []⟩
      let c := putNode (putNode c { u with kids := u.kids ++ [⟨m, slotGen s m⟩] }) (valueNode s c n)
      if k = 0 then some (s, revalue s c) else growLeaf e k m s c
    | _, _ => none

/-- Insert an entry; none where no node can be allocated or a seventh level would be needed. -/
def insertEnt (s : State) (c : Coll) (e : VecEnt) : Option (State × Coll) :=
  match c.root with
  | none => match takeNode s c 1 with
    | none => none
    | some (m, s) =>
      let n : CollNode := ⟨m, 1, [e], [], 0, 0, []⟩
      some (s, { putNode c (valueNode s c n) with root := some ⟨m, slotGen s m⟩ })
  | some r =>
    match descendColl s c e.sk 6 r.slot [] with
    | [] => none
    | leaf :: ups => match cnode c leaf with
      | none => none
      | some n =>
        if n.level ≠ 1 then growLeaf e (n.level - 1) leaf s c
        else if n.ents.length < c.fanout then some (s, revalue s (putNode c { n with ents := n.ents ++ [e] }))
        else match splitNode s c n with
          | none => none
          | some (m, s, c) =>
            let pick := match (cnode c leaf).toList ++ (cnode c m).toList with
              | xs => match nearest e.sk xs with | some x => x.slot | none => leaf
            match cnode c pick with
            | none => none
            | some x => match addChild leaf m 1 ups s (putNode c { x with ents := x.ents ++ [e] }) with
              | none => none
              | some (s, c) => some (s, revalue s c)

/-! ## Placement of records (R233) -/

/-- Records of a frame, by offset. -/
def recPlaces (c : Coll) : List Nat :=
  let z := recSize c
  if z > 2048 then [0] else (List.range 2).flatMap fun h => (List.range (2048 / z)).map fun i => 2048 * h + i * z

/-- Bank and address of a free place for a record: in the first bank of R233's order that has one, or has a frame for it; where the quota
allows no frame, in the first that has a place. -/
def placeRecord (s : State) (c : Coll) (vid : Nat) : Option (Nat × Nat × State) :=
  let u := (c.id * 40503 + vid) % 9216
  let used := c.nodes.flatMap fun n => n.ents.map fun e => (e.bank, e.addr)
  let inBank := fun b => (s.mem.regions.filter fun r => r.use == .vectors && r.owner == c.id && r.tenant == c.tenant && r.bank == b).findSome?
    fun r => ((recPlaces c).map fun o => 4096 * r.first + o).find? fun a => !used.contains (b, a)
  let held := fun b => if (bankOf s b).retired || s.hl.retiring.any (fun r => r.bank == b) then none else inBank b
  let fresh := fun (bs : List Nat) =>
    match (allocate s c.tenant 1 0 .vectors c.id bs).map fun p => (p.1.bank, 4096 * p.1.first, p.2) with
    | some p => some p
    | none => (bankOrder u).findSome? fun b => (held b).map fun a => (b, a, s)
  match (bankOrder u).find? fun b => (held b).isSome || (freeRun s b 1 0).isSome with
  | none => fresh (bankOrder u)
  | some b => match held b with
    | some a => some (b, a, s)
    | none => fresh (bankOrder u)

/-! ## INSERT_VECTORS and DELETE_VECTORS (R245 to R247) -/

def vcColl (b : Bytes) : Nat := bfld b 0 2 11 0
def vcNum (b : Bytes) : Nat := fld b 2 2
def vecClass : List Nat := [0x21, 0x22]

/-- Bytes of a staging entry. -/
def entryLen (c : Coll) : Nat := roundUp (16 + 2 * c.dim) 64

def vecRange (s : State) (r : Rq) : Bool :=
  let b := r.body
  let n := vcNum b
  bfld b 0 2 15 12 = 0 && bfld b 4 1 7 1 = 0 && zeroAt b 5 3 && decide (1 ≤ fld b 0xC 4) && zeroAt b 0x28 24 &&
  (if r.op = 0x21 then decide (1 ≤ n ∧ n ≤ 1024) && decide (fld b 0x20 8 % 64 = 0) && restZero b 0x40
   else decide (1 ≤ n ∧ n ≤ 990) && zeroAt b 0x20 8 && restZero b (0x40 + 4 * n)) &&
  qpOk s r (fld b 0x1C 4) (fld b 0x18 4) && (!flagAt b 4 0 || addrOk s r (fld b 0x10 8) 8)

/-- Work on one collection runs one request at a time, in arm order (R247). -/
def vecTurn (s : State) (r : Rq) : Bool :=
  !(s.eng.reqs.any fun x => vecClass.contains x.op && x.handle == r.handle && x.id != r.id && decide (x.order < r.order))

/-- An insert or delete that has its context: its entries follow, one for each tree-node read. -/
def vecGo (s : State) (id : Req) : State :=
  let s := mapReq s id fun r => { r with ctx := true, phase := .running }
  match lowest (8192 + 65536 + s.eng.walks.length + 1) fun i => decide (8192 ≤ i) && !(s.eng.walks.any fun w => w.ctx == i) with
  | some c => { s with eng.walks := s.eng.walks ++ [⟨c, id, .insert, 0, 1, [], [], 0, s.sq.gen⟩] }
  | none => s

def vecQueue (s : State) (id : Req) : State :=
  match reqOf s id with
  | none => s
  | some r =>
    if !vecTurn s r then mapReq s id fun r => { r with phase := .turn }
    else if scatterFree s && !scatterWaits s id then vecGo s id
    else mapReq s id fun r => { r with phase := .context }

def vecStart (s : State) (id : Req) : State :=
  match reqOf s id with
  | none => s
  | some r =>
    let b := r.body
    if !vecRange s r then finish s id stMALFORMED
    else match collOf s r.tenant (vcColl b) with
      | none => finish s id stUNKNOWN
      | some c =>
        if r.op = 0x21 && fld b 0x20 8 + vcNum b * entryLen c > stageSize s r.lease then finish s id stMALFORMED
        else
          -- `handle` holds the collection, above every sequence handle
          vecQueue (mapReq s id fun r => { r with handle := 2 ^ 64 + c.id, deadline := r.armTime + 1000 * fld b 0xC 4 }) id

/-- Set LIVE to 0 in the live entry of a VID; true where there was one. -/
def tombstone (s : State) (c : Coll) (vid : Nat) : Coll × Bool :=
  if c.nodes.any fun n => n.ents.any fun e => e.vid == vid && e.live then
    (revalue s { c with nodes := c.nodes.map fun n =>
      { n with ents := mapIf (fun e => e.vid == vid && e.live) (fun e => { e with live := false }) n.ents } }, true)
  else (c, false)

/-- End of an insert or delete. -/
def vecEnd (s : State) (id : Req) (status : Nat) : State :=
  match reqOf s id with
  | none => s
  | some r =>
    let b := r.body
    let s : State := { s with eng.walks := s.eng.walks.filter fun w => w.req != id }
    let s := if status = stOK && flagAt b 4 0 then notifyCell s r (fld b 0x1C 4) (fld b 0x10 8) (fld b 0x18 4) else s
    finish s id status

/-- One entry of an INSERT_VECTORS or DELETE_VECTORS (R246). -/
def vecStep (s : State) (id : Req) : State :=
  match reqOf s id with
  | none => s
  | some r =>
    if r.stop.isSome then vecEnd s id (r.stop.getD stOK)
    else match collAny s (vcColl r.body) with
      | none => vecEnd s id stUNKNOWN
      | some c =>
        let b := r.body
        let done := fun (s : State) (n : Nat) =>
          let s := mapReq s id fun r => { r with next := r.next + 1, count := r.count + n }
          if r.next + 1 ≥ vcNum b then vecEnd s id stOK else s
        if r.op = 0x22 then
          let (c, hit) := tombstone s c (fld b (0x40 + 4 * r.next) 4)
          done (setColl s c) (if hit then 1 else 0)
        else
          let e := stageRead s r.lease (fld b 0x20 8 + r.next * entryLen c) (16 + 2 * c.dim)
          let vid := fld e 0 4
          let xs := (elemCodes .bf16 (cut e 16 (2 * c.dim))).map (widen .bf16)
          let bytes := recEncode c xs
          match placeRecord s c vid with
          | none => vecEnd (starved s r.tenant) id stQUOTA
          | some (bank, addr, s) =>
            let s := pinWrite s bank addr bytes
            let (c, _) := tombstone s c vid
            match insertEnt s c ⟨vid, true, fld e 8 8, bank, addr, recSketch c bytes, false⟩ with
            | none => vecEnd (setColl s c) id stQUOTA
            | some (s, c) => done (setColl s c) 1

/-! ## SEARCH (R238 to R244) -/

def seNq (b : Bytes) : Nat := bfld b 2 1 4 0
def seK (b : Bytes) : Nat := bfld b 4 2 10 0
def seRerank (b : Bytes) : Nat := bfld b 6 2 12 0
def seBeam (b : Bytes) : Nat := bfld b 8 1 6 0

def searchRange (s : State) (r : Rq) : Bool :=
  let b := r.body
  bfld b 0 2 15 12 = 0 && bfld b 2 1 7 5 = 0 && bfld b 3 1 7 2 = 0 && bfld b 4 2 15 11 = 0 && bfld b 6 2 15 13 = 0 &&
  bfld b 8 1 7 7 = 0 && zeroAt b 9 3 && zeroAt b 0x48 56 && decide (1 ≤ seNq b ∧ seNq b ≤ 16) &&
  decide (1 ≤ seK b ∧ seK b ≤ 1024) && decide (seK b ≤ seRerank b ∧ seRerank b ≤ 4096) &&
  decide (1 ≤ seBeam b ∧ seBeam b ≤ 64) && decide (1 ≤ fld b 0xC 4) && qpOk s r (fld b 0x34 4) (fld b 0x30 4) &&
  (!flagAt b 3 0 || restZero b 0x80) && (!flagAt b 3 1 || addrOk s r (fld b 0x38 8) 8) && addrOk s r (fld b 0x28 8) (seNq b * (8 + 8 * seK b))

/-- A mask matches the predicate (R239). -/
def matchAttr (b : Bytes) (a : Nat) : Bool :=
  (a &&& fld b 0x10 8) == fld b 0x10 8 && (a &&& fld b 0x18 8) == 0 &&
  (fld b 0x20 8 == 0 || (a &&& fld b 0x20 8) != 0)

/-- A child can hold a match (R240 step 2). -/
def canMatch (b : Bytes) (n : CollNode) : Bool :=
  (n.attrOr &&& fld b 0x10 8) == fld b 0x10 8 && (n.attrAnd &&& fld b 0x18 8) == 0 &&
  (fld b 0x20 8 == 0 || (n.attrOr &&& fld b 0x20 8) != 0)

/-- Bytes of query `q`, kept behind the body. -/
def findQuery (b : Bytes) (n q : Nat) : Bytes := cut b (bodyLen + 2 * n * q) (2 * n)

def queryVals (b : Bytes) (n q : Nat) : List FVal := elemVals .bf16 (findQuery b n q)

/-- Candidates that DIST_EXACT cannot take are computed over the pins (R241). -/
def overPins (c : Coll) : Bool := decide (recRaw c > 2048) || decide (c.dim > 2016)

/-- Largest COUNT of a DIST_EXACT within R105. -/
def distCount (c : Coll) : Nat :=
  ((List.range 32).filter fun k => decide (cyclesOf { id := 0 } opDist
    { clearDesc with fmt := distFmt c.fmt, count := k + 1, arg0 := c.dim } 0 ≤ 800)).length

/-- Candidate blocks: a bank and the candidates it takes in one operation. -/
def distBlocks (c : Coll) (es : List VecEnt) : List (Nat × List VecEnt) :=
  (distinct (es.map VecEnt.bank)).flatMap fun b =>
    let mine := es.filter fun e => e.bank == b
    (chunks (max 1 (distCount c)) mine.length mine).map fun l => (b, l)

/-- The collection that a request works on: a SEARCH the one it was armed over (R247). -/
def collFor (s : State) (r : Rq) : Option Coll := if r.op = 0x20 then r.coll else collAny s (vcColl r.body)

/-- The result list of a query (R242). -/
def findList (c : Coll) (b : Bytes) (f : FindWork) : Bytes :=
  let nearer := fun (x y : Nat × F32) => if c.metric = 0 then flt x.2 y.2 else flt y.2 x.2
  let byVid := sortBy (fun (x y : Nat × F32) => decide (x.1 < y.1)) f.dists
  let top := (sortBy nearer byVid).take (seK b)
  u16 top.length ++ u16 0 ++ u32 f.reached ++ top.flatMap fun p => u32 p.1 ++ u32 p.2.toNat

/-- Every query has its distances: the lists, the notification, the completion (R242, R243). -/
def searchEnd (s : State) (id : Req) : State :=
  match reqOf s id with
  | none => s
  | some r => match collFor s r with
    | none => finish s id stUNKNOWN
    | some c =>
      let b := r.body
      if r.finds.length < seNq b || !(r.finds.all fun f => f.done && f.blocks == 0) then s
      else
        let s := r.finds.foldl (fun s f =>
          emit s r (fld b 0x34 4) ((fld b 0x28 8 + f.q * (8 + 8 * seK b)) % 2 ^ 64) (fld b 0x30 4) (findList c b f)) s
        let counts := r.finds.map fun f => min (seK b) f.cands.length
        let s := mapReq s id fun r => { r with count := counts.foldl (· + ·) 0 }
        let s := if flagAt b 3 1 then notifyCell s r (fld b 0x34 4) (fld b 0x38 8) (fld b 0x30 4) else s
        finish s id (if counts.any fun n => decide (n < seK b) then stSHORT else stOK)

/-- Send the candidates of a query to their banks (R241). -/
def issueDist (s : State) (r : Rq) (c : Coll) (f : FindWork) : State :=
  let reg := ceilDiv (2 * c.dim) 64
  ((distBlocks c f.cands).foldl (fun (a : State × Nat) bl =>
    let own : Own := .dist r.id f.q a.2
    let chan := cut (findQuery r.body c.dim f.q) 0 (64 * reg) ++ bl.2.flatMap fun e => u32 e.addr
    let d0 : Desc := { clearDesc with sub := 0, count := ceilDiv chan.length 64 }
    let d1 : Desc := { clearDesc with fmt := distFmt c.fmt, sub := c.metric, count := bl.2.length, arg0 := c.dim, arg1 := reg }
    let s := enqueue (enqueue a.1 bl.1 opLoad r.tenant d0 chan own) bl.1 opDist r.tenant d1 [] own
    (pump s bl.1 noEnv, a.2 + 1)) (s, 0)).1

/-- DETAIL of a lost vector (Table 14-9). -/
def vecDetail (c : Coll) (vid : Nat) : Nat := 2 ^ 62 + c.id * 2 ^ 32 + vid

/-- Set the loss mark of a vector record (R523). -/
def markVector (s : State) (c vid : Nat) : State :=
  let ent := fun (e : VecEnt) => if e.vid = vid && e.live then { e with lost := true } else e
  let node := fun (n : CollNode) => { n with ents := n.ents.map ent }
  { s with sq.colls := mapIf (fun (x : Coll) => x.id == c) (fun (x : Coll) => { x with nodes := x.nodes.map node }) s.sq.colls }

/-- An entry bears a loss mark. -/
def vecLost (s : State) (c : Coll) (e : VecEnt) : Bool :=
  e.lost || match collAny s c.id with
    | some k => k.nodes.any fun n => n.ents.any fun x => x.vid == e.vid && x.addr == e.addr && x.bank == e.bank && x.lost
    | none => false

/-- A request meets an uncorrectable record: its error record and mark, and DATA_LOST with the vector (R124, R523, Table 8-6). -/
def vectorBad (s : State) (r : Rq) (c : Coll) (e : VecEnt) : State :=
  let det := vecDetail c e.vid
  stopLost (uncorrectable (markVector s c.id e.vid) e.bank (e.addr / 4096) 1 1 (some r.tenant) false true det r.op (reqSlot r.id) r.lease)
    r.id det

/-- A search walk has read its level: the next level, or the query's candidates (R240). -/
def findTurn (s : State) (w : Walk) : State :=
  match reqOf s w.req, w.kind with
  | some r, .vectors q =>
    match collFor s r with
    | none => s
    | some c =>
      let b := r.body
      let ns := w.seen.filterMap fun p => cnode c p.slot
      let root := match c.root with | some p => some p.slot | none => none
      let ns := ns.filter fun n => some n.slot == root || canMatch b n
      let kept := (sortBy (fun (x y : CollNode) => decide (popcount 1024 (nodeSketch x ^^^ w.sketch) < popcount 1024 (nodeSketch y ^^^ w.sketch)))
        ns).take (seBeam b)
      let leaf := w.seen.isEmpty || ns.any fun n => n.level == 1
      if leaf || kept.isEmpty then
        let es := (kept.flatMap CollNode.ents).filter fun e => e.live && matchAttr b e.attr
        let cands := ((sortBy (fun (x y : VecEnt) =>
          decide (popcount 1024 (x.sk ^^^ w.sketch) < popcount 1024 (y.sk ^^^ w.sketch)) ||
          (popcount 1024 (x.sk ^^^ w.sketch) == popcount 1024 (y.sk ^^^ w.sketch) && decide (x.vid < y.vid))) es)).take (seRerank b)
        let pin := overPins c
        let bad := if pin then cands.find? fun e => ueIn s e.bank e.addr (recSize c) else none
        let dists := if pin then cands.map fun e =>
            (e.vid, distOf c.metric (recVals c (t1Read s e.bank e.addr (recSize c))) (queryVals b c.dim q)) else []
        let f : FindWork := ⟨q, true, cands, dists, es.length, if pin then 0 else (distBlocks c cands).length⟩
        let s : State := { s with eng.walks := s.eng.walks.filter fun x => x.ctx != w.ctx }
        let s := mapReq s r.id fun r => { r with finds := r.finds ++ [f] }
        match cands.find? (vecLost s c), bad with
        | some e, _ => stopLost s r.id (vecDetail c e.vid)
        | none, some e => vectorBad s r c e
        | none, none => searchEnd (if pin then s else issueDist s r c f) r.id
      else
        let st := sumBy (fun (n : CollNode) => (n.kids.filter fun p => !ptrLive s p).length) kept
        let w' := { w with level := w.level - 1, todo := kept.flatMap (liveKids s), seen := [], stale := w.stale + st }
        addStale { s with eng.walks := mapIf (fun x => x.ctx == w.ctx) (fun _ => w') s.eng.walks } r.tenant st
  | _, _ => s

/-- Turn a search walk on while it has nothing to read. -/
def findRun : Nat → State → Nat → State
  | 0, s, _ => s
  | n + 1, s, ctx =>
    match s.eng.walks.find? fun w => w.ctx == ctx with
    | none => s
    | some w => if w.todo.isEmpty then findRun n (findTurn s w) ctx else s

def startFind (s : State) (r : Rq) (q : Nat) : Option State :=
  match freeCtx s, collFor s r with
  | some ctx, some c =>
    let sk := sketchOf c.width c.seed ((elemCodes .bf16 (findQuery r.body c.dim q)).map (widen .bf16))
    let w : Walk := ⟨ctx, r.id, .vectors q, sk, 6, c.root.toList, [], 0, s.sq.gen⟩
    some (findRun 2 { s with eng.walks := s.eng.walks ++ [w] } ctx)
  | _, _ => none

def searchStart (s : State) (id : Req) : State :=
  match reqOf s id with
  | none => s
  | some r =>
    let b := r.body
    if !searchRange s r then finish s id stMALFORMED
    else match collOf s r.tenant (vcColl b) with
      | none => finish s id stUNKNOWN
      | some c =>
        let len := 2 * c.dim * seNq b
        let staged := flagAt b 3 0
        if !(if staged then stageOk s r.lease (fld b 0x40 4) len
             else decide (len ≤ 3896) && restZero b (0x80 + len)) then finish s id stMALFORMED
        else
          let block := if staged then stageRead s r.lease (fld b 0x40 4) len else cut b 0x80 len
          let body := cut b 0 bodyLen ++ block
          let s := mapReq s id fun r => { r with handle := 2 ^ 64 + c.id, body := body, coll := some c,
                                                 deadline := r.armTime + 1000 * fld b 0xC 4 }
          (List.range (seNq b)).foldl (fun s q =>
            match reqOf s id with
            | none => s
            | some r =>
              if s.eng.waits.isEmpty then
                match startFind s r q with
                | some s => s
                | none => { s with eng.waits := s.eng.waits ++ [⟨id, .vectors q⟩] }
              else { s with eng.waits := s.eng.waits ++ [⟨id, .vectors q⟩] }) s

/-- Distances of a candidate block have come back. -/
def distDone (s : State) (id : Req) (q blk : Nat) (chan : Bytes) : State :=
  match reqOf s id with
  | none => s
  | some r => match collFor s r with
    | none => s
    | some c =>
      if r.stop.isSome then settleStop s id
      else
        let add := fun (f : FindWork) =>
          let es := match (distBlocks c f.cands)[blk]? with | some x => x.2 | none => []
          { f with blocks := f.blocks - 1, dists := f.dists ++ es.mapIdx fun i e => (e.vid, BitVec.ofNat 32 (fld chan (4 * i) 4)) }
        searchEnd (mapReq s id fun r => { r with finds := mapIf (fun f => f.q == q) add r.finds }) id

/-- A DIST_EXACT met a fault: DATA_LOST with the vector, or INTERNAL (R124, Table 8-6). -/
def distFault (s : State) (id : Req) (q blk fault page : Nat) : State :=
  match reqOf s id with
  | none => s
  | some r =>
    if r.stop.isSome then settleStop s id
    else if fault = fEcc then
      match collFor s r with
      | none => stopAt s id stLOST
      | some c =>
        let es := match r.finds.find? fun f => f.q == q with
          | some f => match (distBlocks c f.cands)[blk]? with | some x => x.2 | none => []
          | none => []
        vectorBad s r c (es.getD (min page (es.length - 1)) ⟨0, false, 0, 0, 0, 0, false⟩)
    else stopAt s id stINTERNAL

/-! ## Compaction and rebuilding (R248) -/

/-- Free a node left without entries and children, and the nodes above it that this empties (log entry 104). -/
def reapNode : Nat → Nat → State → Coll → State × Coll
  | 0, _, s, c => (s, c)
  | k + 1, slot, s, c =>
    match cnode c slot with
    | none => (s, c)
    | some n =>
      if !n.ents.isEmpty || !n.kids.isEmpty then (s, c)
      else
        let up := c.nodes.find? fun x => x.kids.any fun p => p.slot == slot
        let cut := fun (x : CollNode) => { x with kids := x.kids.filter fun p => p.slot != slot }
        let root := if c.root.map Ptr.slot == some slot then none else c.root
        let c := { c with root := root, nodes := (c.nodes.filter fun x => x.slot != slot).map cut }
        let s := dropCollSlot (setColl s c) slot
        match up with
        | some u => reapNode k u.slot s c
        | none => (s, c)

/-- Frames of a collection that hold no record any more go back (R42, R248). -/
def reapRecords (s : State) (c : Coll) : State :=
  let used := fun (r : Region) => c.nodes.any fun n => n.ents.any fun e => r.holds e.bank (e.addr / 4096)
  ((poolOf s .vectors c.tenant c.id).filter fun r => !used r).foldl freeRegion s

/-- Remove the tombstones of a leaf, zero and free their records, and free the leaf once empty. Records stay while an older SEARCH may
read them. -/
def compactLeaf (s : State) (c : Coll) (slot : Nat) : State :=
  match cnode c slot with
  | none => s
  | some n =>
    if n.level ≠ 1 || n.ents.all VecEnt.live || (s.eng.reqs.any fun r => r.op == 0x20 && r.handle == 2 ^ 64 + c.id) then s
    else
      let dead := n.ents.filter fun e => !e.live
      let s := dead.foldl (fun s e => pinWrite s e.bank e.addr (zeros (recSize c))) s
      let c := putNode c { n with ents := n.ents.filter VecEnt.live }
      let (s, c) := reapNode 7 slot s c
      let c := revalue s c
      reapRecords (setColl s c) c

/-- An uncorrectable node of a collection is rebuilt in a new slot from its entries or children and relinked (R216, R248); the new
slot. -/
def rebuildColl (s : State) (slot requester : Nat) : Nat × State :=
  match s.sq.colls.find? fun c => c.nodes.any fun n => n.slot == slot with
  | none => (slot, s)
  | some c => match cnode c slot with
    | none => (slot, s)
    | some n =>
      let s := uncorrectable s (slot / 2 ^ 17) (slot / 2 % 2 ^ 16) 2 requester (some c.tenant) true false 0 0 0 0
      match takeNode s c n.level with
      | none => (slot, s)
      | some (m, s) =>
        let new : Ptr := ⟨m, slotGen s m⟩
        let swap := fun (p : Ptr) => if p.slot = slot then new else p
        let node := fun (x : CollNode) => { x with slot := if x.slot = slot then m else x.slot, kids := x.kids.map swap }
        let walk := fun (w : Walk) => { w with todo := w.todo.map swap, seen := w.seen.map swap }
        let req := fun (r : Rq) => { r with coll := r.coll.map fun (k : Coll) =>
          if k.id = c.id then { k with root := k.root.map swap, nodes := k.nodes.map node } else k }
        let c := { c with root := c.root.map swap, nodes := c.nodes.map node }
        let s := setColl s (revalue s c)
        (m, dropCollSlot { s with eng.walks := s.eng.walks.map walk, eng.reqs := s.eng.reqs.map req } slot)

end Sys2Proof.Machine
end

