-- ==== Sys2Proof/Machine/Plans.lean ====
section
/-! DEFINITION. Layer plans (chapter 10) and GEMMs on the tensor arrays (chapter 9): containers and their checks, tensors, weight
tiles, RUN_LAYERS from arming to completion, and what each layer-plan operation computes. -/

namespace Sys2Proof.Machine

open Sys2Proof

/-! ## Formats, pairs and tiles (Tables 9-1, 9-3, 10-3) -/

/-- Format of a Table 10-3 value. -/
def fmtOf (c : Nat) : Fmt :=
  match c with
  | 0 => .fp32
  | 1 => .bf16
  | 2 => .e4m3
  | 3 => .e5m2
  | 4 => .mxfp8
  | 5 => .mxfp4
  | 6 => .int8
  | 7 => .u32
  | _ => .route

def isMx (c : Nat) : Bool := c == 4 || c == 5

/-- Cell modes. -/
inductive CellMode where
  | fp4 | fp8 | bf16
  deriving DecidableEq, Repr

/-- Cell mode of a weight and activation format pair (R249); INT8 runs as FP8 does. -/
def pairMode (w a : Nat) : Option CellMode :=
  if w = 5 then (if a = 5 then some .fp4 else if a = 2 || a = 4 then some .fp8 else none)
  else if w = 2 || w = 3 || w = 4 then
    (if a = 2 || a = 3 || a = 4 then some .fp8 else if a = 1 then some .bf16 else none)
  else if w = 6 && a = 6 then some .fp8
  else if w = 1 && a = 1 then some .bf16
  else none

/-- K depth of a tile (R252). -/
def tileDepth (m : CellMode) (sparse : Bool) : Nat :=
  (match m with | .fp4 => 512 | .fp8 => 256 | .bf16 => 128) * (if sparse then 2 else 1)

/-- Bytes of a tile's values, metadata and scales (R253, Table 9-3). -/
def tileVals (w depth : Nat) (sparse : Bool) : Nat := (if sparse then depth / 2 else depth) * 128 * fmtBits (fmtOf w) / 8
def tileMeta (depth : Nat) (sparse : Bool) : Nat := if sparse then depth * 16 else 0
def tileScales (w depth : Nat) : Nat := if isMx w then depth / 32 * 128 else 0
def tileBytes (w depth : Nat) (sparse : Bool) : Nat := tileVals w depth sparse + tileMeta depth sparse + tileScales w depth

/-- The code of element `i` of a run of values of a weight format. -/
def elemAt (w : Nat) (b : Bytes) (i : Nat) : Nat :=
  if w = 5 then bits (fld b (i / 2) 1) (4 * (i % 2) + 3) (4 * (i % 2)) else fld b (i * (fmtBits (fmtOf w) / 8)) (fmtBits (fmtOf w) / 8)

/-- The metadata nibble of group `g` in column `c` of a 2:4 tile. -/
def tileNibble (w depth : Nat) (tile : Bytes) (g c : Nat) : Nat := elemAt 5 (tile.drop (tileVals w depth true)) (g * 128 + c)

/-- Every metadata nibble of a tile keeps the order of R263. -/
def tileOrdered (w depth : Nat) (tile : Bytes) : Bool :=
  (List.range (depth / 4)).all fun g => (List.range 128).all fun c =>
    let n := tileNibble w depth tile g c
    decide (n % 4 < n / 4)

/-- Column `c` of a weight tile as exact values over the logical indices of its depth (R253, R263, R84). -/
def tileCol (w depth : Nat) (sparse : Bool) (tile : Bytes) (c : Nat) : List FVal :=
  (List.range depth).map fun k =>
    let sc := (fld tile (tileVals w depth sparse + tileMeta depth sparse + k / 32 * 128 + c) 1)
    let val := fun (i : Nat) =>
      let v := decElem (fmtOf w) (elemAt w tile (i * 128 + c))
      if isMx w then mxVal sc v else v
    if sparse then
      let n := tileNibble w depth tile (k / 4) c
      if n % 4 = k % 4 then val (2 * (k / 4)) else if n / 4 = k % 4 then val (2 * (k / 4) + 1) else .fin false 0 0
    else val k

/-! ## Weight sets -/

def wFmt (o : Obj) : Nat := o.attr.getD 0 0
def wEnc (o : Obj) : Nat := o.attr.getD 1 0
def wLayers (o : Obj) : Nat := o.attr.getD 3 0
def wA (o : Obj) : Nat := o.attr.getD 4 0
def wB (o : Obj) : Nat := o.attr.getD 5 0

def weightOf (s : State) (t id : Nat) : Option Obj :=
  s.sq.objs.find? fun o => o.kind == .weight && o.id == id && o.tenant == t && !o.gone

/-- The weight set that a run reads: a run armed before a replacement reads the old tiles (Table 9-6). -/
def weightRun (s : State) (r : Rq) (id : Nat) : Option Obj :=
  s.sq.objs.find? fun o => o.kind == .weight && o.id == id && o.tenant == r.tenant && decide (o.born ≤ r.order) &&
    (match o.died with | some d => decide (r.order < d) | none => true)

/-- K tiles and column tiles of a matrix. -/
def kTiles (k depth : Nat) : Nat := ceilDiv k depth
def nTiles (n : Nat) : Nat := ceilDiv n 128

/-- Bytes of one matrix of a tiled set under a cell mode. -/
def matBytes (o : Obj) (m : CellMode) : Nat :=
  let d := tileDepth m (wEnc o == 1)
  kTiles (wA o) d * nTiles (wB o) * tileBytes (wFmt o) d (wEnc o == 1)

/-- Row bytes of a row-layout set: elements, then MX scales. -/
def rowLen (o : Obj) : Nat := wB o * fmtBits (fmtOf (wFmt o)) / 8 + (if isMx (wFmt o) then wB o / 32 else 0)

/-- Matrices per entry that a set's bytes hold under a cell mode; 0 where the length does not fit (log entry 18). -/
def matrices (o : Obj) (m : CellMode) : Nat :=
  let n := wLayers o * matBytes o m
  if n = 0 || o.bytes.length % n ≠ 0 then 0 else o.bytes.length / n

/-- A row-layout set's length fits its shape; an MX row is whole blocks (R73). -/
def rowsFit (o : Obj) : Bool :=
  o.bytes.length == wLayers o * wA o * rowLen o && (!isMx (wFmt o) || decide (wB o % 32 = 0))

/-- Offset of tile (kt, nt) of matrix `e` of a set (R253). -/
def tileOff (o : Obj) (m : CellMode) (e kt nt : Nat) : Nat :=
  let d := tileDepth m (wEnc o == 1)
  e * matBytes o m + (nt * kTiles (wA o) d + kt) * tileBytes (wFmt o) d (wEnc o == 1)

/-- A tile of the bytes that were loaded. -/
def tileAt (o : Obj) (m : CellMode) (e kt nt : Nat) : Bytes :=
  cut o.bytes (tileOff o m e kt nt) (tileBytes (wFmt o) (tileDepth m (wEnc o == 1)) (wEnc o == 1))

/-- Tile number within the set, for a loss mark and DETAIL. -/
def tileNo (o : Obj) (m : CellMode) (e kt nt : Nat) : Nat :=
  let d := tileDepth m (wEnc o == 1)
  e * (kTiles (wA o) d * nTiles (wB o)) + nt * kTiles (wA o) d + kt

/-- Bytes of T1 that a run of whole rows takes: the 512 frames of a region, or more for a longer row (log entry 15). -/
def rowSeg (o : Obj) : Nat := roundUp (max (rowLen o) 1) (512 * 4096)

/-- Where row `k` of a row-layout set stands in its frames: no row crosses from one region to the next (log entry 15). -/
def rowHome (o : Obj) (k : Nat) : Nat :=
  let n := rowSeg o / max (rowLen o) 1
  k / n * rowSeg o + k % n * rowLen o

/-- Bytes before the scales of a row (R253). -/
def rowElems (o : Obj) : Nat := wB o * fmtBits (fmtOf (wFmt o)) / 8

/-- A row of a vector set or a table widened to FP32 (R78). -/
def wideRow (o : Obj) (b : Bytes) : List F32 := (elemCodes (fmtOf (wFmt o)) b).map (widen (fmtOf (wFmt o)))

/-- An object as its frames hold it: a row-layout set with no row across two regions, a plan with its lowered schedule behind the
container (R284; log entries 15, 21), any other as it was loaded. -/
def objImage (o : Obj) : Bytes :=
  match o.kind with
  | .weight =>
    if wEnc o = 2 then
      let n := rowSeg o / max (rowLen o) 1
      let rows := wLayers o * wA o
      (List.range (ceilDiv rows n)).flatMap fun i =>
        let part := cut o.bytes (i * n * rowLen o) (min n (rows - i * n) * rowLen o)
        if (i + 1) * n < rows then cut part 0 (rowSeg o) else part
    else o.bytes
  | .plan => cut o.bytes 0 (roundUp o.bytes.length 4096) ++ o.bytes.drop 0x280
  | _ => o.bytes

/-- Data frames of an object (R261, R284, R302). -/
def objFrames (o : Obj) : Nat := ceilDiv (objImage o).length 4096

/-- What the frames of an object are given for, and its number among the regions. -/
def objUse : ObjKind → Use
  | .weight => .weights
  | .plan => .plan
  | _ => .table
def objOwner (o : Obj) : Nat :=
  match o.kind with
  | .weight => o.id + 65536 * o.born
  | .plan => o.id
  | k => o.id + 2 ^ 32 * kindCode k

/-- The regions that hold an object. -/
def objPool (s : State) (o : Obj) : List Region := poolOf s (objUse o.kind) o.tenant (objOwner o)

/-- Write an object to its frames, through the encoder where they are SEALED (R55, R261, R284). -/
def objWrite (s : State) (o : Obj) : State := poolWrite s (objPool s o) 0 (objImage o) 1

/-! ## The container (Tables 10-1, 10-2, 10-4) -/

def pcTens (c : Bytes) : Nat := bfld c 6 1 6 0
def pcPro (c : Bytes) : Nat := fld c 8 2
def pcBody (c : Bytes) : Nat := fld c 0xA 2
def pcEpi (c : Bytes) : Nat := fld c 0xC 2
def pcLayers (c : Bytes) : Nat := fld c 0xE 2
def pcRows (c : Bytes) : Nat := bfld c 0x10 2 11 0
def pcInst (c : Bytes) : Nat := bfld c 0x12 1 4 0
def pcIn (c : Bytes) : Nat := bfld c 0x13 1 5 0
def pcOut (c : Bytes) : Nat := bfld c 0x14 1 5 0
def pcWidth (c : Bytes) (t : Nat) : Nat := fld c (0x80 + 8 * t) 2
def pcFmt (c : Bytes) (t : Nat) : Nat := bfld c (0x82 + 8 * t) 1 3 0
def pcRec (c : Bytes) (k : Nat) : Bytes := cut c (0x280 + 32 * k) 32

def orOp (r : Bytes) : Nat := fld r 0 1
def orBank (r : Bytes) : Bool := flagAt r 1 0
def orSub (r : Bytes) : Nat := fld r 2 1
def orAfmt (r : Bytes) : Nat := bfld r 3 1 3 0
def orA (r : Bytes) : Nat := fld r 4 1
def orB (r : Bytes) : Nat := fld r 5 1
def orOut (r : Bytes) : Nat := fld r 6 1
def orW (r : Bytes) : Nat := fld r 8 2
def orW2 (r : Bytes) : Nat := fld r 0xA 2
def orP (r : Bytes) (i : Nat) : Nat := fld r (0xC + 4 * i) 4

/-- Row bytes of a tensor of a width and format (R272). -/
def tensBytes (w f : Nat) : Nat :=
  roundUp (if f = 8 then 8 * w else w * fmtBits (fmtOf f) / 8 + (if isMx f then w / 32 else 0)) 64

/-- Frames of a workspace row (R272). -/
def workFrames (c : Bytes) : Nat := ceilDiv (sumBy (fun t => tensBytes (pcWidth c t) (pcFmt c t)) (List.range (pcTens c))) 4096

def headerOk (c : Bytes) : Bool :=
  fld c 0 4 == 0x504C584B && fld c 4 1 == 1 && fld c 5 1 == 0 && bfld c 6 1 7 7 == 0 && zeroAt c 7 1 &&
  decide (1 ≤ pcTens c ∧ pcTens c ≤ 64) && decide (1 ≤ pcBody c) && decide (pcPro c + pcBody c + pcEpi c ≤ 1024) &&
  decide (1 ≤ pcLayers c ∧ pcLayers c ≤ 256) && decide (1 ≤ pcRows c ∧ pcRows c ≤ 2048) && bfld c 0x10 2 15 12 == 0 &&
  decide (1 ≤ pcInst c ∧ pcInst c ≤ 16) && bfld c 0x12 1 7 5 == 0 && decide (pcIn c < pcTens c) && bfld c 0x13 1 7 6 == 0 &&
  decide (pcOut c < pcTens c) && bfld c 0x14 1 7 6 == 0 && zeroAt c 0x15 107 &&
  decide (c.length = 0x280 + 32 * (pcPro c + pcBody c + pcEpi c)) &&
  (List.range (pcTens c)).all (fun t =>
    let w := pcWidth c t
    decide (pcFmt c t ≤ 8) && bfld c (0x82 + 8 * t) 1 7 4 == 0 && zeroAt c (0x83 + 8 * t) 5 &&
    (if pcFmt c t = 7 then w == 1 else if pcFmt c t = 8 then decide (1 ≤ w ∧ w ≤ 8)
     else decide (w % 64 = 0 ∧ 64 ≤ w ∧ w ≤ 16384))) &&
  zeroAt c (0x80 + 8 * pcTens c) (8 * (64 - pcTens c)) && decide (workFrames c ≤ 64)

/-- FP32 or BF16. -/
def wideT (f : Nat) : Bool := decide (f ≤ 1)

/-- A record's fields against Tables 10-4 and 10-5, but for what its weight sets decide. -/
def recordOk (c r : Bytes) : Bool :=
  let op := orOp r
  let fa := pcFmt c (orA r)
  let wa := pcWidth c (orA r)
  let fb := pcFmt c (orB r)
  let wb := pcWidth c (orB r)
  let fo := pcFmt c (orOut r)
  let wo := pcWidth c (orOut r)
  let noB := orB r == 0xFF
  let noW := orW r == 0xFFFF
  let noW2 := orW2 r == 0xFFFF
  let p0s := fun (i : Nat) => (List.range (4 - i)).all fun k => orP r (i + k) == 0
  let sub0 := orSub r == 0
  let af0 := orAfmt r == 0
  let d := headDim (orP r 0 % 4)
  let gemm := wideT fa && wideT fo && sub0 && noB && !noW &&
    (if orBank r then orAfmt r == 1 && decide (wa ≤ 2048) else decide (1 ≤ orAfmt r ∧ orAfmt r ≤ 6))
  bfld r 1 1 7 1 == 0 && bfld r 3 1 7 4 == 0 && zeroAt r 7 1 && zeroAt r 0x1C 4 && decide (orA r < pcTens c) &&
  decide (orOut r < pcTens c) && (noB || decide (orB r < pcTens c)) &&
  match op with
  | 1 => gemm && noW2 && p0s 0
  | 2 => gemm && noW2 && p0s 0 && !orBank r
  | 3 => !orBank r && sub0 && af0 && noB && noW && noW2 && fa == 0 && decide (2 ≤ orP r 0 ∧ orP r 0 ≤ 256) &&
      decide (orP r 0 ≤ wa) && decide (1 ≤ orP r 1 ∧ orP r 1 ≤ 8 ∧ orP r 1 ≤ orP r 0) && fo == 8 && wo == orP r 1 && p0s 2
  | 4 => !orBank r && sub0 && wideT fa && decide (1 ≤ orAfmt r ∧ orAfmt r ≤ 6) && !noB && fb == 8 && !noW && noW2 &&
      decide (1 ≤ orP r 0) && wo == wb * orP r 0 && wideT fo && p0s 1
  | 5 => orBank r && decide (orSub r ≤ 1) && af0 && noB && wideT fa && fo == fa && wo == wa && !noW &&
      (noW2 || orSub r == 1) && p0s 1
  | 6 => orBank r && sub0 && af0 && noB && noW && noW2 && wideT fa && fo == fa && wo == wa && decide (orP r 0 ≤ 2) &&
      decide (wa % d = 0) && p0s 1
  | 7 => orBank r && decide (3 ≤ orSub r ∧ orSub r ≤ 5) && af0 && noB && noW && noW2 && wideT fa && fo == fa && wo == wa && p0s 0
  | 8 => orBank r && decide (orSub r ≤ 2) && af0 && noW && noW2 && wideT fa && wideT fo && wo == wa &&
      (if orSub r = 2 then noB && p0s 1 else !noB && fb == fa && wb == wa && p0s 0)
  | 9 =>
      let g := bits (orP r 0) 10 6
      let sel := (orP r 0).testBit 5
      let p3 := orP r 3
      orBank r && sub0 && af0 && noB && noW && noW2 && wideT fa && wideT fo && wo == wa &&
      decide (orP r 0 % 4 ≤ 2 ∧ bits (orP r 0) 3 2 ≤ 2 ∧ 1 ≤ g ∧ g ≤ 16 ∧ orP r 0 < 2048) && decide (wa % (g * d) = 0) &&
      decide (1 ≤ wa / (g * d) ∧ wa / (g * d) ≤ 64) &&
      (bits (orP r 0) 3 2 != 0 || orP r 1 == 0) && (bits (orP r 0) 3 2 != 1 || orP r 1 != 0) && orP r 2 == 0 &&
      (if sel then decide (1 ≤ bits p3 6 0 ∧ bits p3 6 0 ≤ 64 ∧ bits p3 11 7 ≤ 16 ∧ bits p3 18 12 ≤ 64 ∧
          1 ≤ bits p3 28 19 ∧ bits p3 28 19 ≤ 512 ∧ p3 < 2 ^ 29) else p3 == 0)
  | 10 =>
      let d := headDim (orP r 0 / 2 % 4)
      orBank r && sub0 && af0 && !noB && noW && noW2 && wideT fa && wideT fb && wb == wa && orOut r == 0 &&
      decide (orP r 0 < 8 ∧ orP r 0 / 2 ≤ 2) && decide (wa % d = 0 ∧ wa / d ≤ 64) && p0s 1
  | 11 => orBank r && sub0 && af0 && noB && !noW && noW2 && fa == 7 && wideT fo && p0s 0
  | 12 => gemm && decide (1 ≤ orP r 0 ∧ orP r 0 ≤ 64) && fo == 0 && wo == 64 && p0s 1
  | 13 => sub0 && af0 && noB && noW && noW2 && wideT fa && decide (fo ≤ 6) && wo == wa && (!orBank r || wideT fo) && p0s 1
  | 14 => orBank r && sub0 && af0 && !noB && noW && noW2 && wideT fa && fb == 8 && wideT fo && wa == wb * wo && p0s 0
  | _ => false

/-- Output columns of a GEMM-type record. -/
def gemmN (c r : Bytes) : Nat := if orOp r = 12 || orOp r = 4 then orP r 0 else pcWidth c (orOut r)

/-- A vector set (gain or bias) of a width. -/
def vectorOk (o : Obj) (k : Nat) : Bool := wFmt o == 1 && wEnc o == 2 && wA o == 1 && wB o == k && rowsFit o

/-- The weight sets of a record agree with it (R249, R277, R283); `body` says that it runs once for each layer. -/
def weightsOk (s : State) (t : Nat) (c r : Bytes) (body : Bool) : Bool :=
  let k := pcWidth c (orA r)
  let layers := fun (o : Obj) => if body then wLayers o == pcLayers c else decide (1 ≤ wLayers o)
  let w2 := match weightOf s t (orW2 r) with
    | some o => vectorOk o (if orOp r = 12 then orP r 0 else k) && layers o
    | none => orW2 r == 0xFFFF
  match weightOf s t (orW r) with
  | none => orW r == 0xFFFF
  | some o => layers o && w2 &&
    match orOp r with
    | 5 => vectorOk o k
    | 11 => decide (1 ≤ wFmt o ∧ wFmt o ≤ 3) && wEnc o == 2 && wB o == pcWidth c (orOut r) && rowsFit o
    | 4 => match pairMode (wFmt o) (orAfmt r) with
      | some m => decide (wEnc o ≤ 1) && wA o == k && wB o == orP r 0 && decide (1 ≤ matrices o m)
      | none => false
    | _ =>
      if orBank r then o.store == 0 && wEnc o == 2 && decide (1 ≤ wFmt o ∧ wFmt o ≤ 5) && wA o == gemmN c r && wB o == k &&
        rowsFit o && (!isMx (wFmt o) || decide (k % 32 = 0))
      else match pairMode (wFmt o) (orAfmt r) with
        | some m => (if orOp r = 2 then wEnc o == 1 else wEnc o == 0) && wA o == k && wB o == gemmN c r && matrices o m == 1
        | none => false

/-- Records with whether each is a body record. -/
def planRecords (c : Bytes) : List (Bytes × Bool) :=
  (List.range (pcPro c + pcBody c + pcEpi c)).map fun k => (pcRec c k, decide (pcPro c ≤ k ∧ k < pcPro c + pcBody c))

def namesMissing (s : State) (t : Nat) (r : Bytes) : Bool :=
  (orW r != 0xFFFF && (weightOf s t (orW r)).isNone) || (orW2 r != 0xFFFF && (weightOf s t (orW2 r)).isNone)

/-! ## Tensors of a run -/

def planOf (s : State) (t id : Nat) : Option Obj :=
  s.sq.objs.find? fun o => o.kind == .plan && o.id == id && o.tenant == t && !o.gone

/-- The plan of a run, which stays while the run does (Table 10-7). -/
def runPlan (s : State) (r : Rq) : Option Obj := s.sq.objs.find? fun o => o.kind == .plan && o.id == r.handle % 2 ^ 8 && o.tenant == r.tenant

def rlPlan (b : Bytes) : Nat := bfld b 0 2 7 0
def rlFirst (b : Bytes) : Nat := bfld b 4 2 7 0
def rlCount (b : Bytes) : Nat := bfld b 6 2 8 0
def rlPro (b : Bytes) : Bool := flagAt b 8 0
def rlEpi (b : Bytes) : Bool := flagAt b 8 1
def rlCommit (b : Bytes) : Bool := flagAt b 8 2
def rlNotify (b : Bytes) : Bool := flagAt b 8 3

/-- The operations of a run in order, each with its layer (R291 step 3). -/
def runOps (c b : Bytes) : List (Bytes × Nat) :=
  (if rlPro b then (List.range (pcPro c)).map fun k => (pcRec c k, 0) else []) ++
  ((List.range (rlCount b)).flatMap fun l => (List.range (pcBody c)).map fun k => (pcRec c (pcPro c + k), rlFirst b + l)) ++
  (if rlEpi b then (List.range (pcEpi c)).map fun k => (pcRec c (pcPro c + pcBody c + k), 0) else [])

/-- Number of the frames of row `k` of workspace instance `i` of a plan (R285). -/
def workOwner (plan i k : Nat) : Nat := plan + 256 * (i * 2048 + k)

/-- The frames of row `i` of a run's workspace instance. -/
def workRow (s : State) (r : Rq) (i : Nat) : Option Region :=
  s.mem.regions.find? fun g => g.use == .workspace && g.tenant == r.tenant && g.owner == workOwner (rlPlan r.body) r.place i

/-- Bank byte address of a tensor in a workspace row (R272). -/
def tensAddr (c : Bytes) (g : Region) (t : Nat) : Nat :=
  g.first * 4096 + sumBy (fun k => tensBytes (pcWidth c k) (pcFmt c k)) (List.range t)

/-- Row bytes of a tensor of a plan. -/
def planRow (c : Bytes) (t : Nat) : Nat := tensBytes (pcWidth c t) (pcFmt c t)

/-- Row `i` of a tensor, read and written over the pins. -/
def tensRow (s : State) (r : Rq) (c : Bytes) (t i : Nat) : Bytes :=
  match workRow s r i with
  | some g => t1Read s g.bank (tensAddr c g t) (planRow c t)
  | none => []
def setTens (s : State) (r : Rq) (c : Bytes) (t i : Nat) (v : Bytes) : State :=
  match workRow s r i with
  | some g => pinWrite s g.bank (tensAddr c g t) (cut v 0 (planRow c t))
  | none => s

/-- A run's row in whose tensors an uncorrectable word stands: bank and frame. -/
def rowBad (s : State) (r : Rq) (c : Bytes) (ts : List Nat) : Option (Nat × Nat) :=
  (List.range (rlRows r.body)).findSome? fun i => (workRow s r i).bind fun g => ts.findSome? fun t =>
    if ueIn s g.bank (tensAddr c g t) (planRow c t) then some (g.bank, tensAddr c g t / 4096) else none

/-- Elements of an FP32 or BF16 row. -/
def rowF32 (f w : Nat) (b : Bytes) : List F32 := ((elemCodes (fmtOf f) b).map (widen (fmtOf f))).take w

/-- Row bytes of FP32 values in a format (R76, R77), padded to the row length. -/
def rowPack (f w : Nat) (xs : List F32) : Bytes :=
  let g := fmtOf f
  if isMx f then
    let bs := (chunks 32 (xs.length / 32 + 1) xs).map (mxQuant g)
    cut (elemBytes g (bs.flatMap Prod.snd) ++ bs.map fun b => BitVec.ofNat 8 b.1) 0 (tensBytes w f)
  else cut (elemBytes g (xs.map (narrow g))) 0 (tensBytes w f)

/-- Activations as they are fed (R277). -/
def feed (a : Nat) (xs : List F32) : List FVal :=
  let g := fmtOf a
  if isMx a then ((chunks 32 (xs.length / 32 + 1) xs).map (mxQuant g)).flatMap fun b => b.2.map fun c => mxVal b.1 (decElem g c)
  else xs.map fun x => decElem g (narrow g x)

/-- Expert and weight of entry `j` of a ROUTE row. -/
def routeEnt (b : Bytes) (j : Nat) : Nat × F32 := (fld b (8 * j) 4, BitVec.ofNat 32 (fld b (8 * j + 4) 4))

/-- EXPERT_ROUTE on one row (R278). -/
def routeRow (e k : Nat) (z : List F32) : Bytes :=
  let z := z.take e
  let out := fun (xs : List Nat) (ws : List F32) => (List.range k).flatMap fun j => u32 (xs.getD j 0) ++ u32 (ws.getD j 0#32).toNat
  if z.any isNan then out (List.range k) (List.replicate k nan32)
  else
    let order := sortBy (fun (a b : Nat × F32) => flt b.2 a.2 || (!flt a.2 b.2 && decide (a.1 < b.1))) (z.mapIdx fun i x => (i, x))
    let xs := sortBy (fun a b => decide (a < b)) ((order.take k).map Prod.fst)
    let zm := xs.foldl (fun m i => fmax m (z.getD i 0#32)) negInf32
    if zm == negInf32 then out xs (List.replicate k 0#32)
    else
      let ps := xs.map fun i => exp2p (fmul (fsub (z.getD i 0#32) zm) log2e)
      let sm := dot (ps.map dec32) (List.replicate ps.length one)
      out xs (ps.map fun p => fdiv p sm)

/-! ## The end of an operation and of a run -/

/-- Commit the sequences of a run in the order of their first rows (R291 step 5); true once all are committed. -/
def runCommits : Nat → State → Req → State × Bool
  | 0, s, _ => (s, true)
  | n + 1, s, id =>
    match reqOf s id with
    | none => (s, false)
    | some r =>
      match (rlSeqs r.body)[r.count]? with
      | none => (s, true)
      | some h => match seqAny s h with
        | none => runCommits n (mapReq s id fun r => { r with count := r.count + 1 }) id
        | some q =>
          let rows := ((List.range (rlRows r.body)).filter fun i => rlSeq r.body i == h).length
          let c := q.len + rows
          if commitFits s q c then
            let t := tenantOf s q.tenant
            let s := mapSeq s q.als fun q => { q with len := c, bound := (t.map Tenant.bound).getD q.bound,
                                                      domain := (t.map Tenant.domain).getD q.domain }
            runCommits n (mapReq s id fun r => { r with count := r.count + 1 }) id
          else (mapReq s id fun r => { r with phase := .commit }, false)

/-- Number of the copies of a vector set in the banks of a plan (R286): as it is, or widened to FP32 for SCORE_HEAD, whose ELEM ADD takes
both operands in one format (log entry 108). -/
def copyOwner (plan : Nat) (wide : Bool) (o : Obj) : Nat := plan + 256 * ((if wide then 1 else 0) + 2 * (o.id + 65536 * o.born))

/-- Bytes of a copy: every layer. -/
def copyImage (wide : Bool) (o : Obj) : Bytes := if wide then (wideRow o o.bytes).flatMap fun x => u32 x.toNat else o.bytes

/-- The vector sets that a plan copies to the banks of its rows (R286). -/
def copySets (s : State) (t : Nat) (c : Bytes) : List (Bool × Obj) :=
  distinct ((planRecords c).flatMap fun x =>
    let get := fun (wide : Bool) (id : Nat) => (weightOf s t id).toList.map fun o => (wide, o)
    if orOp x.1 = 5 then get false (orW x.1) ++ get false (orW2 x.1) else if orOp x.1 = 12 then get true (orW2 x.1) else [])

/-- Copies of sets in a bank that has none of them yet. -/
def copyTo (t plan b : Nat) : List (Bool × Obj) → State → Option State
  | [], s => some s
  | (wide, o) :: rest, s =>
    let key := copyOwner plan wide o
    if s.mem.regions.any fun g => g.use == .copy && g.tenant == t && g.owner == key && g.bank == b then copyTo t plan b rest s
    else
      let v := copyImage wide o
      match placeIn s t (ceilDiv v.length 4096) 0 .copy key [b] with
      | some (g, s) => copyTo t plan b rest (pinWrite s b (g.first * 4096) v)
      | none => none

/-- Place one workspace row, with the copies its bank needs: the first bank in the order of R49 that has room for both. -/
def placeRow (t plan i k frames u : Nat) (sets : List (Bool × Obj)) (s : State) : Option State :=
  (bankOrder u).findSome? fun b => match placeIn s t frames 0 .workspace (workOwner plan i k) [b] with
    | some (_, s) => copyTo t plan b sets s
    | none => none

/-- The base b of a workspace instance (R285; log entry 21). -/
def workBase (t i : Nat) : Nat := t * 40503 + i * 1031

/-- Allot the workspace instances of a plan, with the copies of R286, within the quota (R285). -/
def planWork (s : State) (t plan : Nat) (c : Bytes) : Option State :=
  let sets := copySets s t c
  fit s t (pcInst c * pcRows c * workFrames c) fun s =>
    ((List.range (pcInst c)).foldl (fun (a : Option State) i => (List.range (pcRows c)).foldl (fun (a : Option State) k =>
      a.bind (placeRow t plan i k (workFrames c) ((workBase t i + k) % 9216) sets)) a) (some s)).filter fun s => t1Fits s t 0

/-- Frames of a plan: workspaces and copies. -/
def freeWork (s : State) (t plan : Nat) : State :=
  (s.mem.regions.filter fun g => (g.use == .workspace || g.use == .copy) && g.tenant == t && g.owner % 256 == plan).foldl freeRegion s

/-- The copies of one weight set go. -/
def freeCopies (s : State) (o : Obj) : State :=
  let key := o.id + 65536 * o.born
  (s.mem.regions.filter fun g => g.use == .copy && g.tenant == o.tenant && g.owner / 512 == key).foldl freeRegion s

/-- The copies of a set that replaces another go to every bank that holds a row of a plan that copies it (R286, R287). -/
def copyNew (s : State) (o : Obj) : Option State :=
  (s.sq.objs.filter fun p => p.kind == .plan && p.tenant == o.tenant && !p.gone).foldl (fun (a : Option State) p =>
    let sets := (copySets s o.tenant p.bytes).filter fun x => x.2.id == o.id
    let banks := distinct ((s.mem.regions.filter fun g => g.use == .workspace && g.tenant == o.tenant && g.owner % 256 == p.id).map Region.bank)
    banks.foldl (fun a b => a.bind (copyTo o.tenant p.id b (sets.map fun x => (x.1, o)))) a) (some s)

/-- Free a plan that has been unloaded once its last run has ended (Table 10-7). -/
def planRelease (s : State) (t id : Nat) : State :=
  match s.sq.objs.find? fun o => o.kind == .plan && o.id == id && o.tenant == t && o.gone with
  | none => s
  | some o =>
    if s.eng.reqs.any fun r => r.op == 0x30 && r.tenant == t && rlPlan r.body == id && r.phase != .finishing then s
    else freeWork (freeOwned { s with sq.objs := s.sq.objs.erase o } .plan t id) t id

/-- Free the frames of weight sets that have been replaced once no run armed before reads them (Table 9-6). -/
def weightRelease (s : State) : State :=
  (s.sq.objs.filter fun o => o.kind == .weight && o.gone).foldl (fun s o =>
    if s.eng.reqs.any fun r => r.op == 0x30 && r.tenant == o.tenant && r.phase != .finishing &&
        (match o.died with | some d => decide (r.order < d) | none => false) then s
    else freeCopies (freeOwned { s with sq.objs := s.sq.objs.erase o } .weights o.tenant (objOwner o)) o) s

/-- A run completes: the bindings of its sequences end and its workspace instance is free. -/
def runFinish (s : State) (id : Req) (status : Nat) : State :=
  match reqOf s id with
  | none => s
  | some r =>
    let hs := appendsTo r
    let s := finish s id status
    weightRelease (planRelease (hs.foldl rebind s) r.tenant (rlPlan r.body))

/-- A run ends early at this operation boundary (R293). -/
def runStop (s : State) (id : Req) (status : Nat) : State :=
  let s : State := { s with arr.jobs := s.arr.jobs.filter fun j => j.req != id || j.ready }
  if s.arr.jobs.any fun j => j.req == id then mapReq s id fun r => { r with stop := some (r.stop.getD status) }
  else runFinish s id (match reqOf s id with | some r => r.stop.getD status | none => status)

/-- A run ends DATA_LOST: an uncorrectable word of its workspace, found over the pins or by a bank operation (R124, R522). Table 14-9 has no
form for such a word, so DETAIL is a free value (log entry 107). -/
def runLoss (s : State) (r : Rq) (b frame requester : Nat) : State :=
  let s := uncorrectable s b frame 1 requester (some r.tenant) false false 0 r.op (reqSlot r.id) r.lease
  let (n, s) := s.draw
  let d := (Config.freeWord n).toNat
  runStop (mapReq s r.id fun r => { r with detail := if r.stop.isSome then r.detail else d }) r.id stLOST

/-- Steps 5 and 6 of R291. -/
def runTail (s : State) (id : Req) : State :=
  match reqOf s id with
  | none => s
  | some r =>
    let (s, done) := if rlCommit r.body then runCommits (r.body.length + 1) s id else (s, true)
    if done then
      let s := if rlNotify r.body then notifyCell s r (fld r.body 0x34 4) (fld r.body 0x38 8) (fld r.body 0x30 4) else s
      runFinish s id stOK
    else s

/-- Step 4 of R291: the output rows back to back. -/
def runEnd (s : State) (id : Req) : State :=
  match reqOf s id with
  | none => s
  | some r => match runPlan s r with
    | none => runFinish s id stUNKNOWN
    | some o =>
      let b := r.body
      let c := o.bytes
      match rowBad s r c [pcOut c] with
      | some (bk, f) => runLoss s r bk f 1
      | none =>
        let out := (List.range (rlRows b)).flatMap fun i => tensRow s r c (pcOut c) i
        let s := emit s r (fld b 0x34 4) (fld b 0x28 8) (fld b 0x30 4) out
        runTail (mapReq s id fun r => { r with pnr := true, outs := [] }) id

/-- An operation of a run has ended for every row. -/
def opEnd (s : State) (id : Req) : State :=
  match reqOf s id with
  | none => s
  | some r => match r.stop with
    | some st => runFinish s id st
    | none =>
      let s := mapReq s id fun r => { r with next := r.next + 1 }
      match runPlan s r with
      | some o => if r.next + 1 ≥ (runOps o.bytes r.body).length then runEnd s id else s
      | none => s

/-! ## GEMMs on the arrays (R250 to R265, R277, R292) -/

/-- The record and layer that a run has reached. -/
def runRec (s : State) (r : Rq) : Option (Obj × Bytes × Nat) :=
  match runPlan s r with
  | some o => match (runOps o.bytes r.body)[r.next]? with
    | some (x, l) => some (o, x, l)
    | none => none
  | none => none

/-- Rows that GEMM call `call` carries, each with its slot: all of them, or those routed to expert `call` (R265). -/
def callRows (s : State) (r : Rq) (x c : Bytes) (call : Nat) : List (Nat × Nat) :=
  if orOp x = 4 then
    (List.range (rlRows r.body)).flatMap fun i =>
      let row := tensRow s r c (orB x) i
      ((List.range (pcWidth c (orB x))).filter fun j => (routeEnt row j).1 == call).map fun j => (i, j)
  else (List.range (rlRows r.body)).map fun i => (i, 0)

/-- Matrix of a weight set that a call uses. -/
def callMat (o : Obj) (m : CellMode) (x : Bytes) (layer call : Nat) : Nat :=
  if orOp x = 4 then layer * matrices o m + call else layer

/-- IN_A of a row, widened. -/
def inA (s : State) (r : Rq) (c x : Bytes) (i : Nat) : List F32 :=
  rowF32 (pcFmt c (orA x)) (pcWidth c (orA x)) (tensRow s r c (orA x) i)
def inB (s : State) (r : Rq) (c x : Bytes) (i : Nat) : List F32 :=
  rowF32 (pcFmt c (orB x)) (pcWidth c (orB x)) (tensRow s r c (orB x) i)

/-- The activations of a row as they are fed (R277). -/
def fedRow (s : State) (r : Rq) (c x : Bytes) (i : Nat) : List FVal := feed (orAfmt x) (inA s r c x i)

def isZeroVal : FVal → Bool
  | .fin _ m _ => m == 0
  | _ => false

/-- Blocks of 64 logical indices of a tile that are no zero blocks (R264). -/
def liveBlocks (rows : List (List FVal)) (kt depth : Nat) : List Nat :=
  (List.range (depth / 64)).filter fun i => rows.any fun xs => !((xs.drop (kt * depth + 64 * i)).take 64).all isZeroVal

/-- Picojoules of a tile pass (R266, Table 9-4), reduced by zero blocks. -/
def passCharge (m : CellMode) (sparse : Bool) (rows blank : Nat) : Nat :=
  let e := (match m with | .fp4 => 4400 | .fp8 => 4000 | .bf16 => 3600) + (if sparse then 400 else 0)
  let n := tileDepth m sparse / 64
  (max rows 32 + 256) * e * (n - blank) / n

/-- Charge of the pass over K tile `kt`. -/
def tileCharge (o : Obj) (m : CellMode) (rows : List (List FVal)) (kt : Nat) : Nat :=
  let d := tileDepth m (wEnc o == 1)
  passCharge m (wEnc o == 1) rows.length (d / 64 - (liveBlocks rows kt d).length)

/-- K tiles that run a pass for a call. -/
def liveTiles (o : Obj) (m : CellMode) (rows : List (List FVal)) : List Nat :=
  let d := tileDepth m (wEnc o == 1)
  (List.range (kTiles (wA o) d)).filter fun kt => !(liveBlocks rows kt d).isEmpty

/-- FP32 outputs before the passes: +0, and for a row sent to an expert that the set does not hold values that the spec does not state
(log entry 93). -/
def outStart (s : State) (r : Rq) (c x : Bytes) (o : Obj) (m : CellMode) : List Bytes :=
  let k := if orOp x = 4 then pcWidth c (orB x) else 1
  let n := wB o
  (List.range (rlRows r.body)).map fun i => (List.range k).flatMap fun j =>
    let e := (routeEnt (tensRow s r c (orB x) i) j).1
    if orOp x = 4 && decide (matrices o m ≤ e) then
      (List.range n).flatMap fun q => u32 (Config.expertOut e q (tensRow s r c (orA x) i)).toNat
    else zeros (4 * n)

/-- Queue the column jobs of a GEMM-type operation (R265, R292); true where there is none. -/
def startGemm (s : State) (r : Rq) (c x : Bytes) : State × Bool :=
  match weightRun s r (orW x), tenantOf s r.tenant with
  | some o, some t =>
    match pairMode (wFmt o) (orAfmt x) with
    | none => (s, true)
    | some m =>
      let gs := sortBy (fun a b => decide (a < b)) t.groups
      let calls := if orOp x = 4 then
          (distinct ((List.range (rlRows r.body)).flatMap fun i =>
            (List.range (pcWidth c (orB x))).map fun j => (routeEnt (tensRow s r c (orB x) i) j).1)).filter fun e => decide (e < matrices o m)
        else [0]
      let jobs := calls.flatMap fun call =>
        let rows := (callRows s r x c call).map fun p => fedRow s r c x p.1
        let live := liveTiles o m rows
        if live.isEmpty then []
        else (List.range (nTiles (wB o))).map fun nt =>
          let j : ArrJob := { group := gs.getD (nt % max 1 gs.length) 0, req := r.id, prio := r.prio, order := r.order,
                              kind := .col call nt, todo := live, acc := rows.map fun _ => List.replicate 128 0#32,
                              charge := tileCharge o m rows (live.headD 0) }
          j
      let outs := outStart s r c x o m
      let s : State := mapReq { s with arr.jobs := s.arr.jobs ++ jobs } r.id fun r => { r with outs := outs }
      (gs.foldl dispatch s, jobs.isEmpty)
  | _, _ => (s, true)

/-! ## Bank operations of a run (R274, R275, R284) -/

/-- Pieces of a row that keep every operation within R105: first element and elements. -/
def segments (n : Nat) : List (Nat × Nat) := (List.range (ceilDiv n 512)).map fun i => (512 * i, min 512 (n - 512 * i))

/-- ELEM over `n` elements from formats and addresses; for SCALE and the functions of one operand `b` is ARG1 itself. -/
def elemOps (fin fout sub a b out n : Nat) : List (Nat × Desc × Bytes) :=
  (segments n).map fun g =>
    (opElem, { clearDesc with sub := sub, fmt := fin + 4 * fout, arg0 := a + g.1 * wide fin,
                              arg1 := if sub ≤ 1 then b + g.1 * wide fin else b, arg2 := out + g.1 * wide fout, arg3 := g.2 }, [])

/-- ELEM SCALE by 1.0 of IN_A to OUT (R275); omitted where they are one tensor. -/
def copyOps (c x : Bytes) (g : Region) : List (Nat × Desc × Bytes) :=
  if orOut x = orA x then []
  else elemOps (pcFmt c (orA x)) (pcFmt c (orA x)) 2 (tensAddr c g (orA x)) one32.toNat (tensAddr c g (orOut x)) (pcWidth c (orA x))

/-- Registers loaded from the channel. -/
def loadOps (v : Bytes) : Nat × Desc × Bytes := (opLoad, { clearDesc with sub := 0, count := ceilDiv v.length 64 }, v)

/-- Where the copy of a vector set stands in a bank (R286), with the bytes of one layer. -/
def copyAt (s : State) (r : Rq) (wide : Bool) (id b layer : Nat) : Option Nat :=
  (weightRun s r id).bind fun o =>
    (s.mem.regions.find? fun g => g.use == .copy && g.tenant == r.tenant && g.bank == b &&
      g.owner == copyOwner (rlPlan r.body) wide o).map fun g => g.first * 4096 + layer * wB o * (if wide then 4 else 2)

/-- NORM: the copy, the accumulator block, then the accumulate and apply operations (R119, R275). -/
def normOps (s : State) (r : Rq) (c x : Bytes) (layer : Nat) (g : Region) : List (Nat × Desc × Bytes) :=
  let n := pcWidth c (orA x)
  let f := pcFmt c (orA x)
  let out := tensAddr c g (orOut x)
  let opc := if orSub x = 0 then opNormRms else opNormLayer
  let gain := (copyAt s r false (orW x) g.bank layer).getD 0
  let bias := (copyAt s r false (orW2 x) g.bank layer).getD 0xFFFFFFFF
  let pass := fun (sub : Nat) => (segments n).map fun p =>
    let d : Desc := { clearDesc with sub := sub, fmt := f, arg0 := out + p.1 * wide f, arg3 := p.2 }
    let d := if sub = 2 then { d with arg1 := gain + 2 * p.1 } else d
    let d := if orSub x = 0 then d else { d with arg2 := if sub = 2 && bias != 0xFFFFFFFF then bias + 2 * p.1 else 0xFFFFFFFF }
    (opc, d, [])
  copyOps c x g ++ [loadOps (cut (normBytes ⟨0#32, 0#32, n, BitVec.ofNat 32 (orP x 0), 0#32, 0#32, false⟩) 0 64)] ++
    (if orSub x = 0 then [] else pass 0) ++ pass 1 ++ pass 2

/-- ROPE: the copy, then coefficients and ROPE_APPLY for as many segments as one covers (R276). -/
def ropeOps (s : State) (r : Rq) (c x : Bytes) (i : Nat) (g : Region) : List (Nat × Desc × Bytes) :=
  let d := headDim (orP x 0 % 4)
  let f := pcFmt c (orA x)
  let out := tensAddr c g (orOut x)
  let n := pcWidth c (orA x) / d
  let m := 1024 / d
  copyOps c x g ++
  match (seqAny s (rlSeq r.body i)).bind fun q => (ropeTable s q.rope).map fun t => (q, t) with
  | none => []
  | some (q, t) =>
    let cs := (List.range (d / 2)).flatMap fun k =>
      let p := ropePair t.bytes (rlPos r.body i + q.posOff) k
      u32 p.1.toNat ++ u32 p.2.toNat
    (List.range (ceilDiv n m)).flatMap fun j =>
      let k := min m (n - m * j)
      [loadOps (List.replicate k cs).flatten,
       (opRope, { clearDesc with sub := bfld t.bytes 2 1 0 0, fmt := f, count := k, arg0 := out + j * m * d * wide f, arg3 := d }, [])]

/-- ACT (R275). -/
def actOps (c x : Bytes) (g : Region) : List (Nat × Desc × Bytes) :=
  let f := pcFmt c (orA x)
  let out := tensAddr c g (orOut x)
  copyOps c x g ++ elemOps f f (orSub x) out 0 out (pcWidth c (orA x))

/-- ELEM, and QUANT placed in BANK: SCALE by P0 (R274, R282). -/
def planElemOps (c x : Bytes) (g : Region) : List (Nat × Desc × Bytes) :=
  let sub := if orOp x = 13 then 2 else orSub x
  elemOps (pcFmt c (orA x)) (pcFmt c (orOut x)) sub (tensAddr c g (orA x)) (if sub = 2 then orP x 0 else tensAddr c g (orB x))
    (tensAddr c g (orOut x)) (pcWidth c (orA x))

/-- The bias of a SCORE_HEAD (R282). -/
def biasOps (s : State) (r : Rq) (c x : Bytes) (layer : Nat) (g : Region) : List (Nat × Desc × Bytes) :=
  match (if orOp x = 12 then copyAt s r true (orW2 x) g.bank layer else none) with
  | some b => elemOps 0 0 0 (tensAddr c g (orOut x)) b (tensAddr c g (orOut x)) (orP x 0)
  | none => []

/-- A bank operation of a run met a fault (R124, R293). -/
def runFault (s : State) (r : Rq) (g : Region) (fault opc : Nat) : State :=
  if fault = fEcc then runLoss s r g.bank g.first 1
  else runStop (bankFault s g.bank g.first opc fault r.tenant r.op (reqSlot r.id) r.lease) r.id stINTERNAL

/-- Run operations on each row of a run in the row's bank, to the first fault; true once all have run. -/
def runRows (s : State) (r : Rq) (f : State → Nat → Region → List (Nat × Desc × Bytes)) : State × Bool :=
  (List.range (rlRows r.body)).foldl (fun (a : State × Bool) i =>
    match a.2, workRow a.1 r i with
    | true, some g => match stepOps g.bank r.tenant (f a.1 i g) a.1 with
      | (none, s) => (s, true)
      | (some (k, opc), s) => (runFault s r g k opc, false)
    | _, _ => a) (s, true)

/-- An operation that Table 10-5 lowers to bank operations. -/
def bankRows (s : State) (id : Req) (f : State → Rq → Bytes → Bytes → Nat → Nat → Region → List (Nat × Desc × Bytes)) : State :=
  match reqOf s id with
  | none => s
  | some r => match runRec s r with
    | none => s
    | some (o, x, l) => match runRows s r fun s i g => f s r o.bytes x l i g with
      | (s, true) => opEnd s id
      | (s, false) => s

def opNorm (s : State) (id : Req) : State := bankRows s id fun s r c x l _ g => normOps s r c x l g
def opAct (s : State) (id : Req) : State := bankRows s id fun _ _ c x _ _ g => actOps c x g
def opElemPlan (s : State) (id : Req) : State := bankRows s id fun _ _ c x _ _ g => planElemOps c x g

/-- ROPE; a lost rotary table ends the run INTERNAL (Table 18-3). -/
def opRopePlan (s : State) (id : Req) : State :=
  match reqOf s id with
  | none => s
  | some r =>
    if (List.range (rlRows r.body)).any fun i => match (seqAny s (rlSeq r.body i)).bind fun q => ropeTable s q.rope with
        | some t => t.lost
        | none => false then runStop s id stINTERNAL
    else bankRows s id fun s r c x _ i g => ropeOps s r c x i g

/-! ## Operations over the pins and on the arrays -/

/-- Set OUT of the present operation row by row over the pins, and end it; the input tensors must be readable (R124). -/
def rowsOp (s : State) (id : Req) (requester : Nat) (f : Rq → Bytes → Bytes → Nat → Nat → Bytes) : State :=
  match reqOf s id with
  | none => s
  | some r => match runRec s r with
    | none => s
    | some (o, x, l) =>
      match rowBad s r o.bytes ([orA x, orB x].filter fun t => decide (t < pcTens o.bytes)) with
      | some (b, fr) => runLoss s r b fr requester
      | none => opEnd ((List.range (rlRows r.body)).foldl (fun s i => setTens s r o.bytes (orOut x) i (f r o.bytes x l i)) s) id

/-- OUT of a row from FP32 values. -/
def outRow (c x : Bytes) (xs : List F32) : Bytes := rowPack (pcFmt c (orOut x)) (pcWidth c (orOut x)) xs

/-- EXPERT_ROUTE at a group's output stage (R278). -/
def opRoute (s : State) (id : Req) : State :=
  rowsOp s id 7 fun r c x _ i => routeRow (orP x 0) (orP x 1) (inA s r c x i)

/-- QUANT (R282): ELEM SCALE in the row's bank, or a group's output stage. -/
def opQuantPlan (s : State) (id : Req) : State :=
  match (reqOf s id).bind fun r => runRec s r with
  | none => s
  | some (_, x, _) =>
    if orBank x then opElemPlan s id
    else rowsOp s id 7 fun r c x _ i => outRow c x ((inA s r c x i).map fun v => fmul v (BitVec.ofNat 32 (orP x 0)))

/-- REDUCE of a row (R279). Its FP32 sums have no place in the workspace row, so they are formed on the way over the pins (log entry
108). -/
def opReduce (s : State) (id : Req) : State :=
  rowsOp s id 1 fun r c x _ i =>
    let n := pcWidth c (orOut x)
    let a := inA s r c x i
    let k := pcWidth c (orB x)
    let row := tensRow s r c (orB x) i
    let w := fun j => (routeEnt row j).2
    outRow c x ((List.range n).map fun e =>
      (List.range (k - 1)).foldl (fun acc j => fadd acc (fmul (w (j + 1)) (a.getD ((j + 1) * n + e) 0#32)))
        (fmul (w 0) (a.getD e 0#32)))

/-! ## Weights in T1 (R255, R256, R261) -/

/-- The WEIGHT detail of Table 14-9. -/
def tileDetail (o : Obj) (tile : Nat) : Nat := 2 ^ 63 + o.id * 2 ^ 32 + tile

/-- A weight tile, or a row of a row-layout set, found uncorrectable (R256, R523). -/
def tileLost (s : State) (r : Rq) (o : Obj) (tile : Nat) (fresh : Bool) : State :=
  let det := tileDetail o tile
  let s := if fresh then
      let s := logErr s { recno := 0, time := 0, cls := 1, source := if o.store = 0 then 1 else 2, requester := 7, loctype := 3,
                          tenant := some r.tenant, reported := true, lossmark := true, object := det, opcode := r.op,
                          slot := reqSlot r.id, lease := r.lease }
      let s : State := { s with hl.bad := s.hl.bad ++ [⟨s.now, bankCount, tile, false⟩] }
      { s with sq.objs := mapIf (fun x => x.kind == .weight && x.id == o.id && x.born == o.born) (fun x => { x with marks := x.marks ++ [tile] }) s.sq.objs }
    else s
  let s := mapReq s r.id fun r => { r with detail := if r.stop.isSome then r.detail else det, stop := some (r.stop.getD stLOST) }
  runStop s r.id stLOST

/-- Bytes of a tile that its live blocks need: values, metadata and scales (R253, R264). -/
def tileParts (w depth : Nat) (sparse : Bool) (blocks : List Nat) : List (Nat × Nat) :=
  blocks.flatMap fun j =>
    let n := tileVals w depth sparse / (depth / 64)
    [(j * n, n)] ++ (if sparse then [(tileVals w depth sparse + 1024 * j, 1024)] else []) ++
      (if isMx w then [(tileVals w depth sparse + tileMeta depth sparse + 256 * j, 256)] else [])

/-- Feed a tile from T1 (R55, R261, R262): what no live block needs is not fetched and stands at zero. -/
def tileRead (s : State) (o : Obj) (off len : Nat) (parts : List (Nat × Nat)) : Option Bytes × State :=
  parts.foldl (fun (a : Option Bytes × State) p =>
    match a.1, poolRead a.2 (objPool a.2 o) (off + p.1) p.2 7 with
    | some t, (some v, s) => (some (patch t p.1 v), s)
    | _, (_, s) => (none, s)) (some (zeros len), s)

/-- The banks that a tile's frames stand in can be read now (R106). -/
def tileFree (s : State) (o : Obj) (off len : Nat) : Bool :=
  (frameSegs off len).all fun g => match poolFrame (objPool s o) g.1 with
    | some (b, _) => calm s b.bank
    | none => true

/-- A row of a row-layout set over the pins (R282). -/
def rowRead (s : State) (o : Obj) (k requester : Nat) : Option Bytes × State :=
  poolRead s (objPool s o) (rowHome o k) (rowLen o) requester

/-- EMBED_LOOKUP: a pin read of the table row, then a pin write (R282). -/
def opEmbed (s : State) (id : Req) : State :=
  match reqOf s id with
  | none => s
  | some r => match runRec s r with
    | none => s
    | some (p, x, l) => match weightRun s r (orW x) with
      | none => runStop s id stUNKNOWN
      | some o =>
        let go := fun (a : State × Option Nat) (i : Nat) =>
          if a.2.isSome then a
          else
            let k := l * wA o + fld (tensRow a.1 r p.bytes (orA x) i) 0 4
            if o.marks.contains k then (tileLost a.1 r o k false, some k)
            else match rowRead a.1 o k 1 with
              | (some v, s) => (setTens s r p.bytes (orOut x) i (outRow p.bytes x (wideRow o v)), none)
              | (none, s) => (tileLost s r o k true, some k)
        match rowBad s r p.bytes [orA x] with
        | some (b, f) => runLoss s r b f 1
        | none => match (List.range (rlRows r.body)).foldl go (s, none) with
          | (s, none) => opEnd s id
          | (s, some _) => s

/-! ## BANK GEMM (R277) -/

/-- The banks that hold a weight set can take operations now. -/
def setFree (s : State) (o : Obj) : Bool := (objPool s o).all fun g => calm s g.bank && opFree s g.bank

/-- Dot products of a vector with every row of a layer of a set, by DOT_ROWS in the banks that hold them: the vector goes to V0 on of a
bank, the results come back over the channel; or the row and fault that end them. -/
def bankDots (s : State) (t : Nat) (o : Obj) (layer : Nat) (vec : Bytes) : (Sum Bytes (Nat × Region × Nat × Nat)) × State :=
  let step := fun (a : (Sum (Bytes × Option Nat) (Nat × Region × Nat × Nat)) × State) (n : Nat) =>
    match a.1 with
    | .inr _ => a
    | .inl (out, at_) =>
      let k := layer * wA o + n
      match poolFrame (objPool a.2 o) (rowHome o k / 4096) with
      | none => (.inl (out ++ zeros 4, at_), a.2)
      | some (g, f) =>
        let row := f * 4096 + rowHome o k % 4096
        let d : Desc := { clearDesc with sub := 0, fmt := (match wFmt o with | 1 => 2 | 2 => 0 | 3 => 1 | 4 => 4 | _ => 3), count := 1,
                                         arg0 := row, arg1 := if isMx (wFmt o) then row + rowElems o else 0, arg2 := 0xFFFFFFFF,
                                         arg3 := wB o }
        let load := if at_ = some g.bank then [] else [loadOps vec]
        match stepOps g.bank t load a.2 with
        | (some (k', opc), s) => (.inr (k, g, k', opc), s)
        | (none, s) =>
          let (res, s) := stepOp s g.bank opDot t d []
          if res.fault = 0 then (.inl (out ++ res.chan, some g.bank), s) else (.inr (k, g, res.fault, opDot), s)
  match (List.range (wA o)).foldl step (.inl ([], none), s) with
  | (.inl p, s) => (.inl p.1, s)
  | (.inr e, s) => (.inr e, s)

/-- A BANK GEMM or SCORE_HEAD: one DOT_ROWS dot product over the whole of K for each output, then the bias (R277, R282). -/
def opBankGemm (s : State) (id : Req) : State :=
  match reqOf s id with
  | none => s
  | some r => match runRec s r with
    | none => s
    | some (p, x, l) => match weightRun s r (orW x) with
      | none => runStop s id stUNKNOWN
      | some o =>
        let c := p.bytes
        let go := fun (a : State × Bool) (i : Nat) =>
          if !a.2 then a
          else
            let vec := elemBytes .bf16 ((inA a.1 r c x i).map (narrow .bf16))
            match bankDots a.1 r.tenant o l vec with
            | (.inl v, s) =>
              let xs := (elemCodes .fp32 v).map (BitVec.ofNat 32)
              (setTens s r c (orOut x) i (outRow c x (xs ++ List.replicate (pcWidth c (orOut x) - xs.length) 0#32)), true)
            | (.inr (k, g, fault, opc), s) => (if fault = fEcc then tileLost s r o k true else runFault s r g fault opc, false)
        if !setFree s o then s
        else match rowBad s r c [orA x] with
          | some (b, f) => runLoss s r b f 1
          | none => match (List.range (rlRows r.body)).foldl go (s, true) with
            | (s, false) => s
            | (s, true) => match runRows s r fun s _ g => biasOps s r c x l g with
              | (s, true) => opEnd s id
              | (s, false) => s

/-! ## Tile passes (R250, R254 to R256) -/

/-- Every column of the operation is in: OUT in its format, then the bias of a SCORE_HEAD. -/
def gemmEnd (s : State) (id : Req) : State :=
  match reqOf s id with
  | none => s
  | some r => match runRec s r with
    | none => s
    | some (o, x, l) =>
      let c := o.bytes
      let put := fun (s : State) (i : Nat) =>
        let xs := (elemCodes .fp32 (r.outs.getD i [])).map (BitVec.ofNat 32)
        setTens s r c (orOut x) i (outRow c x (xs ++ List.replicate (pcWidth c (orOut x) - xs.length) 0#32))
      let s := mapReq ((List.range (rlRows r.body)).foldl put s) id fun r => { r with outs := [] }
      match runRows s r fun s _ g => biasOps s r c x l g with
      | (s, true) => opEnd s id
      | (s, false) => s

/-- A column job has run its last tile: its columns go to the output (R250). -/
def colDone (s : State) (id : Req) (j : ArrJob) (call nt : Nat) : State :=
  let s : State := { s with arr.jobs := s.arr.jobs.erase j }
  match reqOf s id with
  | none => dispatch s j.group
  | some r =>
    if r.stop.isSome then runStop (dispatch s j.group) id stINTERNAL
    else match runRec s r with
      | none => dispatch s j.group
      | some (p, x, _) =>
        let n := match weightRun s r (orW x) with | some o => wB o | none => 0
        let w := min 128 (n - nt * 128)
        let rows := (callRows s r x p.bytes call).mapIdx fun i q => (q, (j.acc.getD i []).take w)
        let vals := r.outs.mapIdx fun i row =>
          rows.foldl (fun b q => if q.1.1 = i then patch b (4 * (q.1.2 * n + nt * 128)) (q.2.flatMap fun v => u32 v.toNat) else b) row
        let s := dispatch (mapReq s id fun r => { r with outs := vals }) j.group
        if s.arr.jobs.any fun k => k.req == id then s else gemmEnd s id

/-- The node's own account of a corrected SRAM word (R255, R520). -/
def sramCorrected (s : State) : State := { s with hl.sramCe := s.hl.sramCe + 1 }

/-- One tile pass of a column job (R250, R254 to R256). A word of the weight buffer that is uncorrectable is fetched again and the pass
repeated. A K tile that runs no pass adds +0 to the accumulators (R82, R251; log entry 106). -/
def tilePass (s : State) (j : ArrJob) (call nt : Nat) (sram : SramEnv) (ue : Bool) : State :=
  match reqOf s j.req with
  | none => dispatch { s with arr.jobs := s.arr.jobs.erase j } j.group
  | some r =>
    if r.stop.isSome then colDone s r.id j call nt
    else if sram = .data then
      let s : State := { sramBad s r 7 with arr.jobs := s.arr.jobs.erase j }
      dispatch (runStop s r.id stINTERNAL) j.group
    else match runRec s r with
      | none => s
      | some (p, x, l) => match weightRun s r (orW x) with
        | none => s
        | some o => match pairMode (wFmt o) (orAfmt x), j.todo with
          | some m, kt :: rest =>
            let c := p.bytes
            let sparse := wEnc o == 1
            let d := tileDepth m sparse
            let e := callMat o m x l call
            let no := tileNo o m e kt nt
            let off := tileOff o m e kt nt
            let len := tileBytes (wFmt o) d sparse
            let acts := (callRows s r x c call).map fun q => fedRow s r c x q.1
            if !tileFree s o off len then s
            else
              let s := if sram = .corrected then sramCorrected s else s
              let gone : State := { s with arr.jobs := s.arr.jobs.erase j }
              if ue || o.marks.contains no then dispatch (tileLost gone r o no (ue && !o.marks.contains no)) j.group
              else match rowBad s r c [orA x] with
                | some (b, f) => dispatch (runLoss gone r b f 7) j.group
                | none => match tileRead s o off len (tileParts (wFmt o) d sparse (liveBlocks acts kt d)) with
                  | (none, s) => dispatch (tileLost { s with arr.jobs := s.arr.jobs.erase j } r o no true) j.group
                  | (some tile, s) =>
                    let cols := (List.range 128).map fun n => (tileCol (wFmt o) d sparse tile n).take (wA o - kt * d)
                    let acc := acts.mapIdx fun i xs => cols.mapIdx fun n ws =>
                      dotFrom ((j.acc.getD i []).getD n 0#32) ((xs.drop (kt * d)).take d) ws
                    let skipped := decide (kt + 1 < rest.headD (kTiles (wA o) d))
                    let acc := if skipped then acc.map fun row => row.map fun v => fadd v 0#32 else acc
                    match rest with
                    | [] =>
                      let j' := { j with acc := acc, todo := [] }
                      colDone (replaceJob s j j') r.id j' call nt
                    | k2 :: _ =>
                      let j' := { j with acc := acc, todo := rest, ready := false, charge := tileCharge o m acts k2 }
                      let s := replaceJob s j j'
                      if holdsGroup s r.tenant j.group then dispatch s j.group
                      else (requeue s j' r.tenant).getD (runStop s r.id stQUOTA)
          | _, _ => s

/-! ## ATTEND_LOCAL (R280) -/

/-- Rows of a sequence that APPEND_LOCAL has written in the present layer of a run. -/
def localRows (r : Rq) (ops : List (Bytes × Nat)) (layer handle : Nat) : Nat :=
  if (ops.take r.next).any fun o => orOp o.1 == 10 && o.2 == layer then
    ((List.range (rlRows r.body)).filter fun i => rlSeq r.body i == handle).length
  else 0

/-- The matching ATTEND of a row: a request body from whose fields the interval, spans and selection follow. -/
def localRq (r : Rq) (q : Seq) (x : Bytes) (layer pos len : Nat) (snap : List Span) (query : Bytes) : Rq :=
  let p := orP x 0
  let mask := bits p 3 2
  let iv := visBounds mask pos (orP x 1) len
  let top := if iv.2 < 0 then 0 else (iv.2.toNat) / 1024 + 1
  let lg := ((List.range 15).find? fun k => decide (top ≤ 2 ^ k)).getD 14
  let p3 := orP x 3
  let b := u64 q.handle ++ u32 0 ++ u8 layer ++ u8 0 ++ u8 q.kvh ++ u8 (bits p 10 6) ++
    u8 1 ++ u8 (mask + (if p.testBit 4 then 8 else 0)) ++ u8 q.dim ++ u8 0 ++ u32 (orP x 1) ++
    u16 0 ++ u8 lg ++ u8 0 ++ u32 1
  let b := cut b 0 0x50 ++ u8 (bits p3 6 0) ++ u8 (bits p3 11 7) ++ u8 (bits p3 18 12) ++ u8 0 ++ u16 (bits p3 28 19)
  let b := cut b 0 0x80 ++ u32 pos
  { r with op := if p.testBit 5 then 2 else 1, handle := q.handle, len := len, snap := snap, body := cut b 0 bodyLen ++ query }

/-- Thread a step over a list to its first failure. -/
def tryAll {α β ε : Type} (f : α → State → Sum β ε × State) : List α → State → Sum (List β) ε × State
  | [], s => (.inl [], s)
  | x :: xs, s => match f x s with
    | (.inr e, s) => (.inr e, s)
    | (.inl y, s) => match tryAll f xs s with
      | (.inl ys, s) => (.inl (y :: ys), s)
      | (.inr e, s) => (.inr e, s)

/-- Read nodes of a walk. -/
def fetchNodes (ps : List Ptr) (s : State) : List TreeNode × State :=
  ps.foldl (fun (a : List TreeNode × State) p => match fetchNode a.2 p.slot 1 with
    | (some n, s) => (a.1 ++ [n], s)
    | (none, s) => (a.1, s)) ([], s)

/-- The selection of a row: its walk, level by level (R219 to R224), with the stale edges it meets (R210). -/
def localWalk (r : Rq) (iv : Int × Int) (sk : Nat) : Nat → List Ptr → State → List Nat × State
  | 0, _, s => ([], s)
  | k + 1, ps, s =>
    let b := r.body
    let (ns, s) := fetchNodes ps s
    let (lo, n) := blockPages b
    let inBlk := fun (x : TreeNode) => decide (lo < x.first + 16 ^ x.level ∧ x.first < lo + n)
    let go := if k + 1 > startLevel b then ns else keepNodes iv (r.len / 16) (selBeam b) sk (ns.filter inBlk)
    if k = 0 then ((selectPages b iv (r.len / 16) sk go).1, s)
    else localWalk r iv sk k (go.flatMap (presentKids s)) (addStale s r.tenant (sumBy (staleIn s (lo, n)) go))

/-- The bytes of a page for a run: a page in T1 against its tag or through the decoder, repaired from T2 where it can be (R124, R166); one
that is FLASH_ONLY from the version of the arm. -/
def localPage (s : State) (r : Rq) (x : Span) (p : Nat) : Option Bytes × State :=
  if isLost s x p then (none, s)
  else if x.state == .resident || x.state == .moving then
    match readPage s x p cleanFrame 1 with
    | (⟨some v, _⟩, s) => (some v, s)
    | (⟨none, src⟩, s) => match pageBad s r x p src with
      | (s, true) =>
        let (rd, s) := readPage s x p cleanFrame 1
        (rd.bytes, s)
      | (s, false) => (none, s)
  else
    let n := pagesPerBlock x.fmt x.dim
    let pb := pageBytes x.fmt x.dim
    match x.flash.bind fun i => (r.vers.find? fun v => v.idx == i).or (objOf s i) with
    | none => (none, s)
    | some v => ((openBlock s v (p / n)).map fun b => cut b (p % n * pb) pb, s)

/-- The partial of each head of a pass, or the DETAIL of the first page that is lost. -/
def localSpan (r : Rq) (heads : List (List FVal)) (w : PassWork) (s : State) : Sum (Nat × Option (List Part)) Nat × State :=
  let x := w.entry
  let d := headDim x.dim
  let s := match spanOf s x.als x.layer x.head x.idx with
    | some y => if x.state == .flashOnly then s else setSpan s { y with lastRead := s.readTime }
    | none => s
  let leaf := fun (p : Nat) (s : State) =>
    let vis := fun row => visible (atMask r.body) (atPos r.body 0) (atParam r.body) r.len (x.idx * 1024 + 16 * p + row)
    if !(runPages w.runs).contains p then ((.inl none : Sum (Option (List Part)) Nat), s)
    else match localPage s r x p with
      | (none, s) => (.inr (pageDetail x p), s)
      | (some bs, s) =>
        let els := elemVals (kvFmt x.fmt) bs
        (.inl (if (List.range 16).any vis then some (heads.map fun q => (pagePartial d els vis q).getD (absentPart d)) else none), s)
  match tryAll leaf (List.range 64) s with
  | (.inl ls, s) => (.inl (w.idx, spanCombine ls), s)
  | (.inr e, s) => (.inr e, s)

/-- The spans of a row: the entries at arm, but for those that the run has itself allocated, installed or written since (R24). -/
def localSnap (s : State) (r : Rq) (q : Seq) (layer n : Nat) (first : Nat) : List Span :=
  let now := s.sq.spans.filter fun y => y.als == q.als && y.layer == layer
  let own := fun (y : Span) => n != 0 && decide (first / 1024 ≤ y.idx)
  let armed := r.snap.filter fun y => y.als == q.als && y.layer == layer && !own y
  armed ++ now.filter fun y => own y || !armed.any y.same

/-- O_d / L of every head of a row, or the status that ends the run with its detail. -/
def localAttend (r : Rq) (c x : Bytes) (layer : Nat) (o : Obj) (i : Nat) (s : State) : Sum (List F32) (Nat × Nat) × State :=
  match seqAny s (rlSeq r.body i) with
  | none => (.inr (stUNKNOWN, 0), s)
  | some q =>
    let d := headDim q.dim
    let g := bits (orP x 0) 10 6
    let f : Fmt := if (orP x 0).testBit 4 then .e4m3 else .bf16
    let query := elemBytes f ((inA s r c x i).map (narrow f))
    let n := localRows r (runOps o.bytes r.body) layer q.handle
    let len := rlLen r.body i + n
    let snap := localSnap s r q layer n (rlLen r.body i)
    let a := localRq r q x layer (rlPos r.body i) len snap query
    let k := tenantOf s r.tenant
    let held := snap.filter fun y => spanSeen a y.idx
    match held.find? fun y => y.state == .stub with
    | some y => (.inr (stSTALE, y.stubNode), s)
    | none =>
      if held.any (fun y => y.state == .flashOnly || y.strength != 0) && ((k.map Tenant.groups).getD []).isEmpty then (.inr (stQUOTA, 0), s)
      else if held.any (fun y => y.state == .flashOnly) && (k.map Tenant.flashMib).getD 0 = 0 then (.inr (stQUOTA, 0), s)
      else
        let head := fun (h : Nat) (s : State) =>
          let (sel, s) := if a.op = 2 then
              let sk := querySketch q.seed d ((List.range g).map fun n => queryElems a.body 0 (h * g + n))
              let (ps, s) := localWalk a (atBounds a 0) sk 5 (rootOf s q.als layer h).toList s
              (some ps, s)
            else (none, s)
          let qs := (List.range g).map fun n => elemVals f (queryAt a.body 0 (h * g + n) 1)
          match tryAll (localSpan a qs) (passesOf a 0 h sel) s with
          | (.inr det, s) => (.inr (stLOST, det), s)
          | (.inl ps, s) =>
            let leaf := fun n i => match ps.find? fun p => p.1 == i with
              | some (_, some hs) => hs.getD n (absentPart d)
              | _ => absentPart d
            (.inl ((List.range g).flatMap fun n =>
              let p := canon (fun _ _ => none) (leaf n) (atLog a.body) 0
              (List.range d).map fun e => if p.absent then 0#32 else fdiv (p.o.getD e 0#32) p.l), s)
        match tryAll head (List.range q.kvh) s with
        | (.inl hs, s) => (.inl hs.flatten, s)
        | (.inr e, s) => (.inr e, s)

/-- What an ATTEND_LOCAL or APPEND_LOCAL that ends a run leaves in its completion. -/
def localStop (s : State) (id : Req) (st det : Nat) : State :=
  let upd := fun (r : Rq) => { r with detail := if st = stLOST && r.stop.isNone then det else r.detail,
                                      redirect := if st = stSTALE then det else r.redirect }
  runStop (mapReq s id upd) id st

/-- Merge-pool bytes of a row's unit (R163). -/
def localPool (x : Bytes) : Nat := (14 + 32) * min 16 (max 1 (bits (orP x 0) 10 6)) * recLen (orP x 0 % 4)

/-- ATTEND_LOCAL over every row. It starts once an attention context and pool bytes are free (R164), no path of a tree is still to be
built (R218), and the banks of the spans are free for span passes (R106, R113, R137). -/
def opAttendLocal (s : State) (id : Req) : State :=
  match reqOf s id with
  | none => s
  | some r => match runRec s r with
    | none => s
    | some (o, x, l) =>
      let rows := List.range (rlRows r.body)
      let seqs := (rlSeqs r.body).filterMap (seqAny s)
      let busy := s.sq.spans.any fun y => seqs.any (fun q => q.als == y.als) && y.layer == l &&
        (y.state == .resident || y.state == .moving) && !(calm s y.bank && (y.strength != 0 || opFree s y.bank))
      if busy || !decide (ctxUsed s attnOps < 4096) || !decide (poolUsed s + localPool x ≤ 67108864) then s
      else
        let (s, wait) := if (orP x 0).testBit 5 then
            (rlSeqs r.body).foldl (fun (a : State × Bool) h =>
              let (s, w) := buildPaths a.1 h
              (s, a.2 || w)) (s, false)
          else (s, false)
        if wait then s
        else match rowBad s r o.bytes [orA x] with
          | some (b, f) => runLoss s r b f 1
          | none => match tryAll (localAttend r o.bytes x l o) rows s with
            | (.inr (st, det), s) => localStop s id st det
            | (.inl vs, s) =>
              opEnd ((rows.zip vs).foldl (fun s v => setTens s r o.bytes (orOut x) v.1 (outRow o.bytes x v.2)) s) id

/-! ## APPEND_LOCAL (R281) -/

/-- What an attempt to store a row comes to. -/
inductive Stored where
  | done
  /-- It waits: for the end of MOVING (R53), or for the bank. -/
  | moving | bank
  | fail (status detail : Nat)
  deriving DecidableEq, Repr

/-- The span of a position for an append, made or installed where it must be: its frames are allocated before a block is read (R326). -/
def localPlace (s : State) (q : Seq) (l h i : Nat) : Sum Span Stored × State :=
  match spanOf s q.als l h i with
  | none => match newSpan s q l h i with
    | some (x, s) => (.inl x, s)
    | none => (.inr (.fail stQUOTA 0), s)
  | some x => match x.state with
    | .resident => (.inl x, s)
    | .moving => (.inr .moving, s)
    | .stub => (.inr (.fail stSTALE x.stubNode), s)
    | .flashOnly => match x.flash.bind (objOf s) with
      | none => (.inr (.fail stLOST (pageDetail x 0)), s)
      | some v => match installPlace s x with
        | none => (.inr (.fail stQUOTA 0), s)
        | some (y, s) =>
          match (List.range v.blocks.length).find? fun b => (openBlock s v b).isNone with
          | some b => (.inr (.fail stLOST (pageDetail x (b * pagesPerBlock x.fmt x.dim))), freeSpanFrames s y)
          | none =>
            let s := installBytes s y q.len fun b => (openBlock s v b).getD []
            match spanOf s x.als x.layer x.head x.idx with
            | some z => (.inl z, s)
            | none => (.inr (.fail stQUOTA 0), s)

/-- A page of an APPEND_LOCAL is lost (R124, R193). -/
def localLoss (s : State) (x : Span) (p : Nat) : Stored × State := (.fail stLOST (pageDetail x p), markLost s x p)

/-- The row is in its page: its sketch, the page state, the tree and the frontier (R187 steps 4 to 6). -/
def localDone (s : State) (q : Seq) (x : Span) (pos : Nat) : Stored × State :=
  let p := pos / 16 % 64
  let fr := max (q.front x.layer x.head) (pos + 1)
  let s := pageDirty s x p (pos % 16) fr
  let (sk, s) := fetchSk s q x p (rowsBelow x.idx p fr) (x.strength = 0 && x.dim ≠ 2)
  match treeUpdate s q.als x.layer x.head q.tenant (pos / 16) (sk.getD 0) with
  | none => (.fail stQUOTA 0, s)
  | some s => (.done, mapSeq s q.als fun q => q.setFront x.layer x.head fr)

/-- Store one row of one head (R187 with NTOK 1): QUANT_STORE, PAGE_TAG_WRITE and SKETCH_PAGE in the bank of an OPEN span, a decoded page
rewritten in a SEALED one (R192). -/
def localStore (s : State) (handle l h pos : Nat) (key val : List F32) : Stored × State :=
  match seqAny s handle with
  | none => (.fail stUNKNOWN 0, s)
  | some q => match localPlace s q l h (pos / 1024) with
    | (.inr e, s) => (e, s)
    | (.inl x, s) =>
      let p := pos / 16 % 64
      let n := rowsBelow x.idx p (max (q.front l h) (pos + 1))
      if !calm s x.bank || (x.strength = 0 && !opFree s x.bank) then (.bank, s)
      else if x.strength = 0 then
        match stepOps x.bank x.tenant (storeOps x p (pos % 16) [(key, val)] ++ sketchOps q x p n) s with
        | (none, s) => localDone s q x pos
        | (some (f, opc), s) =>
          if f = fEcc || f = fTag then localLoss s x p
          else (.fail stINTERNAL 0, bankFault s x.bank x.frame opc f x.tenant 0x30 0 0)
      else match readPage s x p cleanFrame 1 with
        | (⟨none, _⟩, s) => localLoss s x p
        | (⟨some v, _⟩, s) => localDone (writePage s x p (patchRows x.fmt x.dim v (pos % 16) [(key, val)])) q x pos

/-- Rows in ascending order, heads within each. -/
def localAppend (r : Rq) (c x : Bytes) (l : Nat) : List (Nat × Nat) → State → Stored × State
  | [], s => (.done, s)
  | (i, h) :: rest, s =>
    let d := headDim (orP x 0 / 2 % 4)
    let bf := fun (xs : List F32) => xs.map fun v => widen .bf16 (narrow .bf16 v)
    let key := bf (((inA s r c x i).drop (h * d)).take d)
    let val := bf (((inB s r c x i).drop (h * d)).take d)
    let tab := if (orP x 0).testBit 0 then
        (seqAny s (rlSeq r.body i)).bind fun q => (ropeTable s q.rope).map fun t => (q, t)
      else none
    if (tab.map fun p => p.2.lost) = some true then (.fail stINTERNAL 0, s)
    else
      let key := match tab with
        | some (q, t) => ropeKey t.bytes (rlPos r.body i + q.posOff) key
        | none => key
      match localStore s (rlSeq r.body i) l h (rlPos r.body i) key val with
      | (.done, s) => localAppend r c x l rest s
      | e => e

/-- APPEND_LOCAL over every row and head; an attempt that has to wait stores its rows again later, to the same bits (R95). -/
def opAppendLocal (s : State) (id : Req) : State :=
  match reqOf s id with
  | none => s
  | some r => match runRec s r with
    | none => s
    | some (o, x, l) =>
      let d := headDim (orP x 0 / 2 % 4)
      let todo := (List.range (rlRows r.body)).flatMap fun i =>
        (List.range (pcWidth o.bytes (orA x) / d)).map fun h => (i, h)
      match rowBad s r o.bytes [orA x, orB x] with
      | some (b, f) => runLoss s r b f 1
      | none => match localAppend r o.bytes x l todo s with
        | (.done, s) => opEnd s id
        | (.moving, s) => mapReq s id fun r => { r with phase := .moving }
        | (.bank, s) => s
        | (.fail st det, s) => localStop (if st = stQUOTA then starved s r.tenant else s) id st det

/-! ## RUN_LAYERS (R288 to R291) -/

def runRange (s : State) (r : Rq) : Bool :=
  let b := r.body
  bfld b 0 2 15 8 == 0 && bfld b 2 2 15 12 == 0 && bfld b 4 2 15 8 == 0 && bfld b 6 2 15 9 == 0 && bfld b 8 1 7 4 == 0 &&
  zeroAt b 9 3 && zeroAt b 0x14 4 && decide (1 ≤ rlRows b) && decide (rlCount b ≤ 256) && decide (1 ≤ fld b 0x10 4) &&
  (rlPro b || rlEpi b || decide (rlCount b ≠ 0)) && restZero b 0x40 && stageOk s r.lease (fld b 0x18 8) (16 * rlRows b) &&
  decide (fld b 0x20 8 % 64 = 0) && qpOk s r (fld b 0x34 4) (fld b 0x30 4) && (!rlNotify b || addrOk s r (fld b 0x38 8) 8)

/-- What the plan decides of R289: layers, rows and areas. -/
def runFits (s : State) (r : Rq) (c : Bytes) : Bool :=
  let b := r.body
  decide (rlFirst b + rlCount b ≤ pcLayers c) && decide (rlRows b ≤ pcRows c) &&
  decide (fld b 0x20 8 + rlRows b * planRow c (pcIn c) ≤ stageSize s r.lease) &&
  addrOk s r (fld b 0x28 8) (rlRows b * planRow c (pcOut c)) &&
  (List.range (rlRows b)).all fun i => zeroAt (stageRead s r.lease (fld b 0x18 8 + 16 * i) 16) 12 4

/-- Vocabulary rows of the tables that look up a U32 input tensor. -/
def vocabOk (s : State) (r : Rq) (c : Bytes) (ops : List (Bytes × Nat)) (input : Nat → Bytes) : Bool :=
  pcFmt c (pcIn c) != 7 ||
  (ops.filter fun o => orOp o.1 == 11 && orA o.1 == pcIn c).all fun o => match weightRun s r (orW o.1) with
    | some w => (List.range (rlRows r.body)).all fun i => decide (fld (input i) 0 4 < wA w)
    | none => true

/-- What a row's sequence decides of R289. -/
def rowFits (q : Seq) (c : Bytes) (ops : List (Bytes × Nat)) : Bool :=
  ops.all fun o =>
    let x := o.1
    let w := pcWidth c (orA x)
    match orOp x with
    | 9 => orP x 0 % 4 == q.dim && w == q.kvh * bits (orP x 0) 10 6 * headDim q.dim
    | 10 => orP x 0 / 2 % 4 == q.dim && w == q.kvh * headDim q.dim && (!(orP x 0).testBit 0 || q.rope != 0xFFFFFFFF)
    | 6 => orP x 0 % 4 == q.dim && q.rope != 0xFFFFFFFF
    | _ => true

/-- Layers in which a run appends. -/
def appendLayers (ops : List (Bytes × Nat)) : List Nat := (ops.filter fun o => orOp o.1 == 10).map Prod.snd

/-- Instances of a plan in use. -/
def instUsed (s : State) (t id : Nat) : List Nat :=
  (s.eng.reqs.filter fun r => r.op == 0x30 && r.ctx && r.tenant == t && rlPlan r.body == id).map Rq.place

/-- FILL_ZERO of the frames of a workspace row. -/
def blankOps (g : Region) : List (Nat × Desc × Bytes) :=
  (List.range (ceilDiv g.frames 2)).map fun i =>
    (opFill, { clearDesc with sub := 0, frame := g.first + 2 * i, count := min 2 (g.frames - 2 * i) }, [])

/-- Every bank that holds a row of the run is at a break, and free for operations where they are asked for. -/
def rowsFree (s : State) (r : Rq) (ops : Bool) : Bool :=
  (List.range (rlRows r.body)).all fun i => match workRow s r i with
    | some g => calm s g.bank && (!ops || opFree s g.bank)
    | none => true

/-- A run that has its turn takes a workspace instance, zeroes its rows and loads IN_TENSOR (R291 steps 1 and 2). -/
def runGo (s : State) (id : Req) : State :=
  match reqOf s id with
  | none => s
  | some r => match runPlan s r with
    | none => runFinish s id stUNKNOWN
    | some o =>
      let c := o.bytes
      let used := instUsed s r.tenant o.id
      match lowest (pcInst c) fun i => !used.contains i with
      | none => mapReq s id fun r => { r with phase := .workspace }
      | some i =>
        let b := r.body
        let n := planRow c (pcIn c)
        let r' := { r with ctx := true, place := i, phase := .running, next := 0 }
        if !rowsFree s r' true then mapReq s id fun r => { r with phase := .workspace }
        else
        let s := mapReq s id fun _ => r'
        let s := (List.range (rlRows b)).foldl (fun s k => match workRow s r' k with
          | some g => setTens (stepOps g.bank r.tenant (blankOps g) s).2 r' c (pcIn c) k (cut b (bodyLen + 16 * rlRows b + n * k) n)
          | none => s) s
        let s := (appendsTo r).foldl (fun s h => match seqAny s h with
          | some q => mapSeq s q.als fun q => { q with writer := some r.lease }
          | none => s) s
        if (runOps c b).isEmpty then runEnd s id else s

/-- Runs of the plan that wait for an instance. -/
def workWaits (s : State) (r : Rq) : Bool :=
  s.eng.reqs.any fun x => x.op == 0x30 && x.phase == .workspace && x.id != r.id && x.tenant == r.tenant && rlPlan x.body == rlPlan r.body

/-- The turn of a run under R290, then its workspace instance. -/
def runTurn (s : State) (id : Req) : State :=
  match reqOf s id with
  | none => s
  | some r =>
    if !(appendsTo r).isEmpty && (!turnOk s r || gated s r) then mapReq s id fun r => { r with phase := .turn }
    else
      let qs := (appendsTo r).filterMap fun h => seqAny s h
      if qs.any fun q => q.writer.isSome && q.writer != some r.lease then runFinish s id stFENCED
      else if (List.range (rlRows r.body)).any fun i => !r.pages.isEmpty && (match seqAny s (rlSeq r.body i) with
          | some q => decide (rlPos r.body i < q.len) ||
              (List.range q.layers).any fun l => (List.range q.kvh).any fun h => decide (q.front l h < rlLen r.body i)
          | none => false) then runFinish s id stMALFORMED
      else if workWaits s r then mapReq s id fun r => { r with phase := .workspace }
      else runGo s id

/-- RUN_LAYERS after the slot's checks (R289, R290, R433). -/
def runStart (s : State) (id : Req) : State :=
  match reqOf s id with
  | none => s
  | some r =>
    let b := r.body
    if !runRange s r then finish s id stMALFORMED
    else match planOf s r.tenant (rlPlan b) with
      | none => finish s id stUNKNOWN
      | some o =>
        let c := o.bytes
        let ops := runOps c b
        let table := stageRead s r.lease (fld b 0x18 8) (16 * rlRows b)
        let input := fun i => stageRead s r.lease (fld b 0x20 8 + i * planRow c (pcIn c)) (planRow c (pcIn c))
        let (container, s) := poolRead s (objPool s o) 0 (roundUp c.length 4096) 1
        if o.lost || container.isNone then finish s id stINTERNAL
        else if !runFits s r c || !vocabOk s r c ops input then finish s id stMALFORMED
        else
          let handles := (List.range (rlRows b)).map fun i => fld table (16 * i) 8
          let checks := handles.map fun h => seqCheck s r.tenant h (fld b 0xC 4)
          match checks.findSome? fun k => match k with | .inr p => some p | .inl _ => none with
          | some p => finishAt s id p
          | none =>
            let qs := checks.filterMap fun k => match k with | .inl q => some q | .inr _ => none
            let layers := appendLayers ops
            let reach := (ops.filter fun o => orOp o.1 == 9 || orOp o.1 == 10).map Prod.snd
            let tab := (List.range (rlRows b)).flatMap fun i =>
              cut table (16 * i) 12 ++ u32 (((qs[i]?).map Seq.len).getD 0)
            let body := cut b 0 bodyLen ++ tab ++ (List.range (rlRows b)).flatMap input
            let consecutive := (List.range (rlRows b)).all fun i =>
              let before := ((List.range i).filter fun k => rlSeq body k == rlSeq body i).length
              rlPos body i == rlLen body i + before
            if qs.any fun q => reach.any fun l => decide (q.layers ≤ l) then finish s id stUNKNOWN
            else if !(qs.all fun q => rowFits q c ops) || (!layers.isEmpty && !consecutive) ||
                (rlCommit b && !(qs.all fun q => (List.range q.layers).all fun l => layers.contains l)) then finish s id stMALFORMED
            else if (ops.any fun o => !orBank o.1) && (match tenantOf s r.tenant with | some t => t.groups.isEmpty | none => true) then
              finish s id stQUOTA
            else
              let pages := if layers.isEmpty then []
                else (List.range (rlRows b)).map fun i => (⟨0, 0, 0, 0, 1, i, 0⟩ : PageWork)
              let s := mapReq s id fun r => { r with body := body, handle := 2 ^ 65 + o.id, pages := pages,
                                                     snap := s.sq.spans.filter fun y => qs.any fun q => q.als == y.als,
                                                     vers := s.fl.objs.filter fun v => qs.any fun q => q.handle == v.seq,
                                                     deadline := r.armTime + 1000 * fld b 0x10 4 }
              runTurn s id

/-! ## Rows of the operations -/

/-- The operation that a run has reached has one of these codes, nothing of it runs yet, and the banks of its rows are free. -/
def opReady (s : State) (id : Req) (codes : List Nat) : Option Bytes :=
  match reqOf s id with
  | none => none
  | some r =>
    if r.op != 0x30 || r.phase != .running || r.pnr || r.stop.isSome || s.arr.jobs.any fun j => j.req == id then none
    else match runRec s r with
      | some (_, x, _) => if codes.contains (orOp x) && rowsFree s r (orBank x) then some x else none
      | none => none

def runRow (s : State) (id : Req) (codes : List Nat) (f : State → Req → State) : State :=
  if !serves s then s
  else match opReady s id codes with
    | some _ => f s id
    | none => s

/-- A GEMM-type operation in its placement. -/
def gemmRun (s : State) (id : Req) : State :=
  match reqOf s id with
  | none => s
  | some r => match runRec s r with
    | none => s
    | some (o, x, _) =>
      if orBank x then opBankGemm s id
      else if (match tenantOf s r.tenant with | some t => t.groups.isEmpty | none => true) then runStop s id stQUOTA
      else match startGemm s r o.bytes x with
        | (s, true) => gemmEnd s id
        | (s, false) => s

/-- GEMM (R277). -/
def execGemm (r : Req) (s : State) : Host.Outcome State Fault Refusal := .next (runRow s r [1] gemmRun)
/-- GEMM_SPARSE24 (R263). -/
def execGemmSparse24 (r : Req) (s : State) : Host.Outcome State Fault Refusal := .next (runRow s r [2] gemmRun)
/-- EXPERT_ROUTE (R278). -/
def execExpertRoute (r : Req) (s : State) : Host.Outcome State Fault Refusal := .next (runRow s r [3] opRoute)
/-- EXPERT_GEMM (R265, R279). -/
def execExpertGemm (r : Req) (s : State) : Host.Outcome State Fault Refusal := .next (runRow s r [4] gemmRun)
/-- NORM (R275). -/
def execPlanNorm (r : Req) (s : State) : Host.Outcome State Fault Refusal := .next (runRow s r [5] opNorm)
/-- ROPE (R276). -/
def execPlanRope (r : Req) (s : State) : Host.Outcome State Fault Refusal :=
  .next (runRow s r [6] opRopePlan)
/-- ACT (R275). -/
def execAct (r : Req) (s : State) : Host.Outcome State Fault Refusal := .next (runRow s r [7] opAct)
/-- ELEM (R274). -/
def execPlanElem (r : Req) (s : State) : Host.Outcome State Fault Refusal := .next (runRow s r [8] opElemPlan)
/-- ATTEND_LOCAL (R280). -/
def execAttendLocal (r : Req) (s : State) : Host.Outcome State Fault Refusal := .next (runRow s r [9] opAttendLocal)
/-- APPEND_LOCAL (R281). -/
def execAppendLocal (r : Req) (s : State) : Host.Outcome State Fault Refusal := .next (runRow s r [10] opAppendLocal)
/-- EMBED_LOOKUP (R282). -/
def execEmbedLookup (r : Req) (s : State) : Host.Outcome State Fault Refusal := .next (runRow s r [11] opEmbed)
/-- SCORE_HEAD (R282). -/
def execScoreHead (r : Req) (s : State) : Host.Outcome State Fault Refusal := .next (runRow s r [12] gemmRun)
/-- QUANT (R282). -/
def execPlanQuant (r : Req) (s : State) : Host.Outcome State Fault Refusal := .next (runRow s r [13] opQuantPlan)
/-- REDUCE (R279). -/
def execReduce (r : Req) (s : State) : Host.Outcome State Fault Refusal := .next (runRow s r [14] opReduce)

end Sys2Proof.Machine
end

