-- ==== Sys2Proof/Machine/Score.lean ====
section
/-! DEFINITION. SCORE requests: the envelope, delivery into a partition's ring, the reply and the node's own completion
(R310 to R315). -/

namespace Sys2Proof.Machine

open Sys2Proof

/-! ## The envelope (Table 11-4) -/

def scService (b : Bytes) : Nat := bfld b 0xC 1 4 0
def scLen (b : Bytes) : Nat := bfld b 0xE 2 11 0
def scRes (b : Bytes) : Nat := bfld b 0x14 2 9 0

def scoreRange (s : State) (r : Rq) : Bool :=
  let b := r.body
  bfld b 0xC 1 7 5 == 0 && bfld b 0xD 1 7 1 == 0 && bfld b 0xE 2 15 12 == 0 && decide (1 ≤ scLen b ∧ scLen b ≤ 3072) &&
  decide (1 ≤ fld b 0x10 4) && decide (1 ≤ scRes b ∧ scRes b ≤ 768) && bfld b 0x14 2 15 10 == 0 && zeroAt b 0x16 2 &&
  zeroAt b 0x38 8 && restZero b (0x40 + scLen b) && fld b 0 8 / 2 ^ 56 == r.tenant && qpOk s r (fld b 0x24 4) (fld b 0x20 4)

/-- SCORE after the slot's checks (R308, R311): it waits for a ring entry. -/
def scoreStart (s : State) (id : Req) : State :=
  match reqOf s id with
  | none => s
  | some r =>
    let b := r.body
    match id with
    | .int _ _ => finish s id stMALFORMED
    | .net _ =>
      if !scoreRange s r then finish s id stMALFORMED
      else match partOf s (scService b) with
        | none => finish s id stUNKNOWN
        | some p =>
          if p.tenant != r.tenant then finish s id stUNKNOWN
          else match seqCheck s r.tenant (fld b 0 8) (fld b 8 4) with
            | .inr e => finishAt s id e
            | .inl _ => mapReq s id fun r => { r with phase := .ring, deadline := r.armTime + 1000 * fld b 0x10 4 }

/-! ## The ring (Table 11-5) -/

/-- Guest address of a ring entry (Table 11-2). -/
def ringAddr (e : Nat) : Nat := 0x01000000 + 4096 * e

def ringWrite (s : State) (p e off : Nat) (v : Bytes) : State :=
  mapPart s p fun k => { k with mem := memWrite k.mem (ringAddr e + off) v }

/-- Bytes 0x008 to 0xC7F of an entry. -/
def ringBytes (r : Rq) : Bytes := u64 r.armTime ++ u64 r.deadline ++ zeros 40 ++ cut r.body 0 3136

/-- A supervisor external interrupt on the lowest-numbered core (R313). -/
def extRaise (k : Partition) : Partition :=
  { k with cores := match k.cores with | c :: cs => { c with extInt := true } :: cs | [] => [] }

/-- Deliver the next SCORE that waits for a partition, if its entry is free (R312, R313). -/
def scoreDeliver (s : State) (p : Nat) : State :=
  match partOf s p with
  | none => s
  | some k =>
    match waiting s fun r => r.op == 0x31 && r.phase == .ring && scService r.body == p with
    | [] => s
    | r :: _ =>
      let n := (k.delivered + 1) % 2 ^ 32
      let e := n % k.entries
      if k.ring.any fun x => x.entry == e then s
      else
        let s := ringWrite s p e 8 (ringBytes r)
        let s := ringWrite s p e 0 (u64 (n + r.lease * 2 ^ 32 + r.seq * 2 ^ 48))
        let s := mapPart s p fun k => extRaise { k with delivered := n, ring := k.ring ++ [⟨e, n, r.id⟩] }
        mapReq s r.id fun r => { r with phase := .running, place := e }

/-- A ring entry is free from the completion of its SCORE onward. -/
def ringFree (s : State) (p : Nat) (id : Req) : State := mapPart s p fun k => { k with ring := k.ring.filter fun x => x.req != id }

/-- The node completes a SCORE itself (R315, Table 11-7). -/
def scoreStop (s : State) (id : Req) (status : Nat) : State :=
  match reqOf s id with
  | none => s
  | some r =>
    let p := scService r.body
    let s := if r.phase == .running then ringFree (ringWrite s p r.place 0x18 (u32 1)) p id else s
    finish s id status

/-- Statuses that a service may answer with (R314). -/
def serviceStatus : List Nat := [stOK, stSHORT, stLOST, stMALFORMED, stUNKNOWN, stNOTCOMMITTED, stQUOTA, stINTERNAL]

/-- A reply word stored into an entry (R314). -/
def scoreReply (s : State) (p e : Nat) (w : Nat) : State :=
  match partOf s p with
  | none => s
  | some k =>
    if k.entries ≤ e then s
    else
      let s := ringWrite s p e 0xFF8 (u64 w)
      match k.ring.find? fun x => x.entry == e && x.delivery == w % 2 ^ 32 with
      | none => s
      | some x => match reqOf s x.req with
        | none => s
        | some r =>
          let rlen := bits w 55 46
          let st := bits w 63 56
          let good := st == stOK || st == stSHORT
          let own := serviceStatus.contains st && (good || rlen == 0) && decide (rlen ≤ scRes r.body)
          let reply := memRead k.mem (ringAddr e + 0xC80) rlen
          let s := ringFree s p r.id
          if !own then finish (mapReq s r.id fun r => { r with count := rlen }) r.id stINTERNAL
          else
            let b := r.body
            let s := if good && rlen != 0 then emit s r (fld b 0x24 4) (fld b 0x18 8) (fld b 0x20 4) reply else s
            let det := if st = stLOST then leNat (memRead k.mem (ringAddr e + 0xC80) 8) else 0
            let s := if good && flagAt b 0xD 0 then emitAdd s r (fld b 0x24 4) (fld b 0x28 8) (fld b 0x20 4) else s
            finish (mapReq s r.id fun r => { r with count := rlen, detail := det }) r.id st

/-- SCORE_DELIVERY (R313). -/
def execScoreDelivery (p : Nat) (s : State) : Host.Outcome State Fault Refusal :=
  if serves s then .next (scoreDeliver s p) else .next s

end Sys2Proof.Machine
end

