-- ==== Sys2Proof/Machine/Engine.lean ====
section
/-! DEFINITION. The engines' events: outcomes of bank operations (R104, R124 to R126), pin accesses through the page code (R55, R63,
R106, R514 to R520), tree-node reads, pages of array span passes, grants of contexts, and the events that end a request early (R407,
R409, R428). -/

namespace Sys2Proof.Machine

open Sys2Proof

/-! ## Pages read by tier movers and Mace (R518, R522) -/

/-- Read a page; an uncorrectable one is repaired from a clean T2 copy, or receives a loss mark (R522, R523). -/
def pageGet (s : State) (x : Span) (p requester : Nat) : Option Bytes × State :=
  match readPage s x p cleanFrame requester with
  | (⟨some v, _⟩, s) => (some v, s)
  | (⟨none, src⟩, s) =>
    let f := x.frame + p * pageBytes x.fmt x.dim / 4096
    match refetch s x p with
    | some s =>
      let s := uncorrectable s x.bank f src requester (some x.tenant) true false (pageDetail x p) 0 0 0
      let (rd, s) := readPage s x p cleanFrame requester
      (rd.bytes, s)
    | none =>
      (none, uncorrectable (markLost s x p) x.bank f src requester (some x.tenant) false true (pageDetail x p) 0 0 0)

/-- The raw bytes of block `i` at its snapshot, read by a tier mover: rows at or above block start + `cap` zero (R346); none where a
page of it is lost. -/
def moverBlock (s : State) (x : Span) (i cap : Nat) : Option Bytes × State :=
  let n := pagesPerBlock x.fmt x.dim
  (List.range n).foldl (fun (a : Option Bytes × State) k =>
    match a.1 with
    | none => a
    | some v =>
      let p := i * n + k
      if cap ≤ 16 * k then (some (v ++ zeros (pageBytes x.fmt x.dim)), a.2)
      else if isLost a.2 x p then (none, a.2)
      else
        let (b, s) := pageGet a.2 x p 2
        (b.map fun b => v ++ keepRows x.fmt x.dim (cap - 16 * k) b, s)) (some [], s)

/-! ## Outcomes of bank operations -/

/-- Opcode, slot and lease of a request for an error record. -/
def reqTags (s : State) (id : Option Req) : Nat × Nat × Nat :=
  match id with
  | some i => match reqOf s i with | some r => (r.op, reqSlot i, r.lease) | none => (0, 0, 0)
  | none => (0, 0, 0)

/-- Something with this owner still waits in the bank. -/
def ownWaits (k : Bank) (o : Own) : Bool := (k.queue ++ k.backlog).any (fun x => x.own == o) || k.pins.any fun x => x.own == o

/-- The engine that waits is told the outcome (R104). -/
def tell (s : State) (b : Nat) (op : QOp) (out : BankOut) : State :=
  match op.own with
  | .free | .scrub _ | .mace => s
  | .pass r u p last =>
    if out.fault ≠ 0 then passFault s r u p out.fault out.fpage
    else if last then passDone s r u p (partsOf op.desc.heads (headDim op.desc.dim) out.chan)
    else settleStop s r
  | .page r k =>
    if out.fault ≠ 0 then stepFault s r k out.fault
    else if ownWaits (bankOf s b) op.own then s else stepDone s r k
  | .dist r q blk =>
    if out.fault ≠ 0 then distFault s r q blk out.fault out.fpage
    else if op.opc = opDist then distDone s r q blk out.chan else s

/-- The operation on a die ends. -/
def bankEnds (s : State) (b : Nat) (e : OpEnv) : State :=
  let k := bankOf s b
  match k.running with
  | none => s
  | some r =>
    if r.suspended then s
    else
      let s := setBank s { k with running := none }
      let id := ownReq r.op.own
      let s := r.corrected.foldl (fun s f => queueRepair (correctionEvent s b f 1 1 (if id.isSome then 1 else 0)) b f) s
      let s := if r.out.fault = 0 then s
        else
          let (opcode, slot, lease) := reqTags s id
          bankFault s b r.op.desc.frame r.op.opc r.out.fault r.op.tenant opcode slot lease
      settleDiscards (pump (tell s b r.op r.out) b e)

/-- BANK_OPERATION_OUTCOME (R104, R124, R126); a node that does not serve has no operation on a die (R31). -/
def execBankOperationOutcome (b : Nat) (e : OpEnv) (s : State) : Host.Outcome State Fault Refusal :=
  if b < bankCount then .next (if serves s then bankEnds s b e else s) else .fault .noSuchBank

/-! ## Pin accesses -/

/-- The new bytes of a frame of a page step: the rows of the page that lie in it are replaced in the bytes that the decoder gave (R192). -/
def stepFrame (s : State) (r : Rq) (q : Seq) (x : Span) (w : PageWork) (f : Nat) (old : Bytes) : Bytes :=
  let pb := pageBytes x.fmt x.dim
  let lo := (x.frame * 4096 + w.page * pb)
  let put := fun (page : Bytes) => patchRows x.fmt x.dim page w.row (stepRows s r q w)
  if pb < 4096 then patch old (lo - f * 4096) (put (cut old (lo - f * 4096) pb))
  else cut (put (patch (zeros pb) (f * 4096 - lo) old)) (f * 4096 - lo) 4096

/-- A page step has read a frame: it is written back changed, or the step ends where it is uncorrectable. -/
def pinRead (s : State) (b : Nat) (j : PinJob) (old : Option Bytes) : State :=
  match j.own, old with
  | .page r i, some old => match reqOf s r with
    | some rq => match rq.pages[i]?, seqAny s rq.handle with
      | some w, some q => match spanOf s q.als (apLayer rq.body) w.head w.span with
        | some x =>
          let k := bankOf s b
          setBank s { k with pins := ⟨j.frame, some (stepFrame s rq q x w j.frame old), j.own⟩ :: k.pins }
        | none => s
      | _, _ => s
    | none => s
  | .page r i, none =>
    let (opcode, slot, lease) := reqTags s (some r)
    let t := match reqOf s r with | some x => some x.tenant | none => none
    stepFault (uncorrectable s b j.frame 2 1 t false true 0 opcode slot lease) r i fEcc
  | _, _ => s

/-- One pin access at a break (R106): a read gives its engine the corrected bytes, which a page step writes back changed; a write
goes through the encoder. -/
def pinRun (s : State) (b : Nat) (e : FrameEnv) : State :=
  if !atBreak s b then s
  else
    let k := bankOf s b
    match k.pins with
    | [] => s
    | j :: rest =>
      let s := setBank s { k with pins := rest }
      let s :=
        match j.write with
        | some v =>
          let s := writeFrame s b j.frame v
          match j.own with
          | .page r i => if ownWaits (bankOf s b) j.own then s else stepDone s r i
          | _ => s
        | none =>
          let (v, s) := readRun s b j.frame 1 e 1
          pinRead s b j v
      pump s b noEnv

/-- PIN_ACCESS (R106). -/
def execPinAccess (b : Nat) (e : FrameEnv) (s : State) : Host.Outcome State Fault Refusal :=
  if b < bankCount then .next (pinRun s b e) else .fault .noSuchBank

/-! ## Pepper -/

/-- A node is read over the pins; an uncorrectable one is rebuilt (R216, R248). The slot that holds it. -/
def readNode (s : State) (slot : Nat) (page ue : Bool) : Nat × State :=
  match readRun s (slot / 2 ^ 17) (slot / 2 % 2 ^ 16) 1 cleanFrame 1 with
  | (v, s) => if v.isSome && !ue then (slot, s) else if page then rebuildNode s slot 1 else rebuildColl s slot 1

/-- A tree-node read completes (R210, R216, R223, R240, R246). -/
def nodeRead (s : State) (ctx : Nat) (ue : Bool) : State :=
  match s.eng.walks.find? fun w => w.ctx == ctx with
  | none => s
  | some w =>
    match reqOf s w.req with
    | none => { s with eng.walks := s.eng.walks.filter fun x => x.ctx != ctx }
    | some r =>
      match w.kind with
      | .insert =>
        let root := (collAny s (vcColl r.body)).bind Coll.root
        vecStep (match ue, root with | true, some p => (rebuildColl s p.slot 1).2 | _, _ => s) w.req
      | _ =>
        if r.stop.isSome then settleStop { s with eng.walks := s.eng.walks.filter fun x => x.ctx != ctx } w.req
        else match w.todo with
          | [] => s
          | p :: rest =>
            let page := match w.kind with | .pages _ _ => true | _ => false
            let (slot, s) := readNode s p.slot page ue
            let p' : Ptr := if slot = p.slot then p else ⟨slot, slotGen s slot⟩
            let upd := fun (x : Walk) => { x with todo := rest, seen := x.seen ++ [p'] }
            let ws := mapIf (fun (x : Walk) => x.ctx == ctx) upd s.eng.walks
            let s : State := { s with eng.walks := ws }
            if page then walkRun 8 s ctx else findRun 2 s ctx

/-- TREE_NODE_READ (R223). -/
def execTreeNodeRead (ctx : Nat) (ue : Bool) (s : State) : Host.Outcome State Fault Refusal :=
  if serves s then .next (nodeRead s ctx ue) else .next s

/-- Order of waiting walks (R412). -/
def waitBefore (s : State) (a b : WalkWait) : Bool :=
  match reqOf s a.req, reqOf s b.req with
  | some x, some y => decide (x.prio < y.prio) || (x.prio == y.prio && decide (x.order < y.order))
  | _, _ => false

/-- PEPPER_CONTEXT_GRANT (R227): the first waiting walk takes a free context. -/
def pepperGrant (s : State) : State :=
  match sortBy (waitBefore s) s.eng.waits with
  | [] => s
  | w :: _ =>
    let s' : State := { s with eng.waits := s.eng.waits.erase w }
    match reqOf s w.req with
    | none => s'
    | some r =>
      let out := match w.kind with
        | .pages q kv => startWalk s' r q kv
        | .vectors q => startFind s' r q
        | .insert => none
      out.getD s

def execPepperContextGrant (s : State) : Host.Outcome State Fault Refusal :=
  if serves s then .next (pepperGrant s) else .next s

/-! ## Grants -/

/-- ATTENTION_CONTEXT_GRANT (R163, R164): a waiting request takes a free context, or the next unit a free reservation. -/
def attentionGrant (s : State) : State :=
  match waiting s fun r => attnOps.contains r.op && r.phase == .context with
  | r :: _ =>
    if ctxUsed s attnOps < 4096 then attendGo s r.id
    else match waiting s poolBlocked with
      | q :: _ => startUnits s q.id
      | [] => s
  | [] => match waiting s poolBlocked with
    | q :: _ => startUnits s q.id
    | [] => s

def execAttentionContextGrant (s : State) : Host.Outcome State Fault Refusal :=
  if serves s then .next (attentionGrant s) else .next s

/-- WORKSPACE_INSTANCE_GRANT (R291): the first waiting run whose plan has a free instance. -/
def workspaceGrant (s : State) : State :=
  match (waiting s fun r => r.op == 0x30 && r.phase == .workspace).find? fun r => match runPlan s r with
    | some o => decide ((instUsed s r.tenant o.id).length < pcInst o.bytes)
    | none => true with
  | some r => runGo s r.id
  | none => s

def execWorkspaceInstanceGrant (s : State) : Host.Outcome State Fault Refusal :=
  if serves s then .next (workspaceGrant s) else .next s

/-- FLASH_READ_SPACE_GRANT (R339): the first waiting span pass whose tenant has space, then those that waited behind it (R162). -/
def spaceGrant (s : State) : State :=
  let waits := fun (r : Rq) => r.units.any fun u => u.passes.any fun p => p.stage == 4
  match (waiting s waits).find? fun r => spaceFree s r.tenant with
  | none => s
  | some r =>
    let u := r.units.findIdx fun u => u.passes.any fun p => p.stage == 4
    match r.units[u]? with
    | none => s
    | some w =>
      let p := w.passes.findIdx fun p => p.stage == 4
      match w.passes[p]? with
      | none => s
      | some k =>
        let s := startDirect (setPass s r.id u p fun x => { x with stage := 1 }) r u p k.entry k.runs
        fillWindow (issueArray s r u p w.n k.entry k.runs) r.id u

def execFlashReadSpaceGrant (s : State) : Host.Outcome State Fault Refusal :=
  if serves s then .next (spaceGrant s) else .next s

/-- SPAN_MOVING_WAIT_END (R53): the write goes on at the new entry. -/
def movingEnd (s : State) (id : Req) : State :=
  match reqOf s id with
  | none => s
  | some r =>
    if r.phase != .moving then s
    else
      let s := mapReq s id fun r => { r with phase := .running }
      if r.op == 0x30 then opAppendLocal s id else appendFeed s id

def execSpanMovingWaitEnd (r : Req) (s : State) : Host.Outcome State Fault Refusal :=
  if serves s then .next (movingEnd s r) else .next s

/-- TRUNCATE_ZEROING (R198). -/
def execTruncateZeroing (r : Req) (s : State) : Host.Outcome State Fault Refusal :=
  if serves s then .next (truncateZero s r) else .next s

/-- APPEND_CLASS_TURN (R181, R247, R290): a request that waited for its turn. -/
def classTurn (s : State) (id : Req) : State :=
  match reqOf s id with
  | none => s
  | some r =>
    if r.phase != .turn then s
    else if appendOps.contains r.op then appendTurn s id
    else if vecClass.contains r.op then vecQueue s id
    else if r.op == 0x30 then runTurn s id
    else s

def execAppendClassTurn (r : Req) (s : State) : Host.Outcome State Fault Refusal :=
  if serves s then .next (classTurn s r) else .next s

/-! ## Arrays -/

/-- The blocks of a direct read before `blk` give their room back (R339 step 3). -/
def leaveBlocks (s : State) (j : FJob) (blk : Nat) : State :=
  let keep := fun (x : FJob) => { x with data := x.data.filter fun d => decide (blk ≤ d.1) }
  { s with fl.jobs := mapIf (fun (x : FJob) => x.id == j.id) keep s.fl.jobs }

/-- Bytes of page `p` for a pass on an array: at a break through the decoder (R106), or from the direct read's blocks; none while they
cannot be had, and no bytes where a frame is uncorrectable. -/
def arrayPage (s : State) (j : ArrJob) (k : PassWork) (u p pg : Nat) (e : FrameEnv) : Option (Option Bytes) × State :=
  let x := k.entry
  let pb := pageBytes x.fmt x.dim
  if x.state == .flashOnly then
    match s.fl.jobs.find? fun f => f.kind == .direct j.req u p with
    | none => (none, s)
    | some f =>
      let blk := pg / pagesPerBlock x.fmt x.dim
      match f.data.find? fun d => d.1 == blk with
      | some d => (some (some (cut d.2 (pg % pagesPerBlock x.fmt x.dim * pb) pb)), leaveBlocks s f blk)
      | none => (none, s)
  else
    if !calm s x.bank then (none, s)
    else
      let (rd, s) := readPage s x pg e 7
      (some rd.bytes, s)

/-- A page of a span pass on an array (R606). An uncorrectable accumulator or activation word ends the request INTERNAL (R255). -/
def arrayPageStep (s : State) (j : ArrJob) (u p : Nat) (sram : SramEnv) (e : FrameEnv) : State :=
  let drop := fun (s : State) =>
    dispatch { s with arr.jobs := s.arr.jobs.erase j,
                      fl.jobs := s.fl.jobs.filter fun f => f.kind != .direct j.req u p } j.group
  match reqOf s j.req with
  | none => drop s
  | some r =>
    if r.stop.isSome then settleStop (drop s) r.id
    else if sram = .data then stopAt (drop (sramBad s r 7)) r.id stINTERNAL
    else match r.units[u]? with
      | none => drop s
      | some w => match w.passes[p]?, j.todo with
        | some k, pg :: rest =>
          if isLost s k.entry pg then stopLost (drop s) r.id (pageDetail k.entry pg)
          else match arrayPage s j k u p pg e with
            | (none, s) => s
            | (some none, s) =>
              match pageBad s r k.entry pg 2 with
              | (s, true) => s
              | (s, false) => stopLost (drop s) r.id (pageDetail k.entry pg)
            | (some (some bytes), s) =>
              let s := if sram = .corrected then sramCorrected s else s
              let x := k.entry
              let d := headDim x.dim
              let sp := unitSpec r w
              let f : Fmt := if sp.fp8 then .e4m3 else .bf16
              let qs := (List.range w.n).map fun h => elemVals f (cut sp.query (h * d * atElem r.body) (d * atElem r.body))
              let els := elemVals (kvFmt x.fmt) bytes
              let vis := fun row => visible sp.mask sp.pos sp.param sp.len (x.idx * 1024 + 16 * pg + row)
              let leaf := if (List.range 16).any vis then
                  some (qs.map fun q => (pagePartial d els vis q).getD (absentPart d)) else none
              let run := List.replicate (pg - j.next) none ++ [leaf]
              let run := if rest.isEmpty then run ++ List.replicate (63 - pg) none else run
              let (ps, _) := carryAll j.next run j.parts
              if rest.isEmpty then
                let e7 := ps.getD 7 {}
                let out := if e7.present then e7.heads else List.replicate w.n (absentPart d)
                passDone (drop s) r.id u p out
              else replaceJob s j { j with todo := rest, next := pg + 1, parts := ps }
        | _, _ => drop s

/-- The job on an array. -/
def jobOn (s : State) (ar : Nat) : Option ArrJob := s.arr.jobs.find? fun j => j.arr == some ar && j.ready

/-- ARRAY_SPAN_PASS_PAGE (R606). -/
def execArraySpanPassPage (ar : Nat) (e : PassEnv) (s : State) : Host.Outcome State Fault Refusal :=
  if !serves s then .next s
  else match jobOn s ar with
    | some j => match j.kind with
      | .span u p => .next (arrayPageStep s j u p e.sram e.frame)
      | .col _ _ => .next s
    | none => .next s

/-- TILE_PASS (R250, R254). -/
def execTilePass (ar : Nat) (sram : SramEnv) (ue : Bool) (s : State) : Host.Outcome State Fault Refusal :=
  if !serves s then .next s
  else match jobOn s ar with
    | some j => match j.kind with
      | .col call nt => .next (tilePass s j call nt sram ue)
      | .span _ _ => .next s
    | none => .next s

/-- ARRAY_GOVERNOR_RELEASE (R267): the passes that waited for credit, in the dispatcher's order. -/
def execArrayGovernorRelease (g : Nat) (s : State) : Host.Outcome State Fault Refusal :=
  if serves s then .next (dispatch s g) else .next s

/-! ## Events that end a request early -/

/-- A cancel, a deadline or the end of a lease meets a request (R193, R201, R227, R293, R315, R407, R409, R428): it completes with the
status at its boundary, or goes on where its point of no return has passed. -/
def stopReq (s : State) (id : Req) (status : Nat) : State :=
  match reqOf s id with
  | none => s
  | some r =>
    if r.phase == .finishing then s
    else if r.op == 0x30 && r.phase == .commit then (if status = stCANCELLED then s else runFinish s id status)
    else if r.pnr then s
    else if r.op == 0x03 then (if status = stTIMEDOUT then mergeTimeout s r else finish s id status)
    else if r.op == 0x01 || r.op == 0x02 || r.op == 0x20 then stopAt s id status
    else if r.op == 0x10 then
      (if r.phase == .running || r.phase == .moving then appendStop s id status else rebind (finish s id status) r.handle)
    else if r.op == 0x21 || r.op == 0x22 then
      (if r.phase == .running then mapReq s id fun r => { r with stop := some (r.stop.getD status) } else finish s id status)
    else if r.op == 0x30 then
      (if r.phase == .running || r.phase == .moving then runStop s id status else runFinish s id status)
    else if r.op == 0x31 then scoreStop s id status
    else
      let h := r.handle
      let s := finish s id status
      if appendOps.contains r.op then rebind s h else s

/-- DEADLINE_EXPIRY (R407). -/
def execDeadlineExpiry (r : Req) (s : State) : Host.Outcome State Fault Refusal :=
  if !serves s then .next s
  else match reqOf s r with
    | none => .next s
    | some x => if x.phase == .finishing then .next s else .next (stopReq (s.at x.deadline) r stTIMEDOUT)

end Sys2Proof.Machine
end

