-- ==== Sys2Proof/Machine/Leases.lean ====
section
/-! DEFINITION. Leases (chapter 15): grant, renewal, release, expiry, the fence and the return of resources. -/

namespace Sys2Proof.Machine

open Sys2Proof

/-! ## Clock rules (R424 to R426) -/

/-- The node grants or renews a lease (R424): LOCKED, or in HOLDOVER for less than 10 s. -/
def clockOk (s : State) : Bool :=
  match s.clock.ptp with
  | .locked => true
  | .holdover => decide (s.now < s.clock.th + 10 * 10 ^ 9)
  | .unlocked => false

/-- EXPIRY, FENCE_AT, OFFSET_BOUND and CLOCK of a grant or renewal at the present time (R425, R426). -/
def setTerm (s : State) (l : Lease) : Lease :=
  let e := s.now + 10 ^ 6 * l.ms
  if s.clock.ptp == .holdover then
    { l with expiry := e, fenceAt := e - driftMargin (e - s.clock.th), offset := s.port.ptp.lockNs, holdover := true }
  else { l with expiry := e, fenceAt := e, offset := s.port.ptp.lockNs, holdover := false }

/-! ## Grant (R421 to R423) -/

def slotAddr (n : Nat) : Nat := 0x10000000 + 0x1000 * n

/-- Leases that a tenant holds, and their slots: in every state except FREE (R423). -/
def leasesOf (s : State) (t : Nat) : Nat := (s.own.leases.filter fun l => l.tenant == t).length
def slotsOf (s : State) (t : Nat) : Nat := sumBy (fun l => if l.tenant = t then l.slots else 0) s.own.leases

/-- LEASE_MAX and SLOT_MAX allow one more lease of `n` slots. -/
def leaseRoom (s : State) (t n : Nat) : Bool :=
  match tenantOf s t with
  | some k => decide (leasesOf s t < k.leaseMax ∧ slotsOf s t + n ≤ k.slotMax)
  | none => false

/-- Allot a lease: an id, runs of slots and of sync cells, staging frames; all of it zeroed (Table 15-3). None where a limit
of R423 is met. `svc` is the partition of a service lease. -/
def allotLease (s : State) (t ms nslots nsync stageMib : Nat) (svc : Option Nat) : Option (Lease × State) :=
  if !leaseRoom s t nslots then none
    else
      match pickRun s 0 4096 1 (s.own.leases.map fun l => (l.id, 1)) with
        | none => none
        | some (id, s) => match pickRun s 0 65536 nslots (s.own.leases.map fun l => (l.slotFirst, l.slots)) with
          | none => none
          | some (sf, s) =>
            let cells := if nsync = 0 then (let (k, s) := s.draw; some (Config.pick k % 65472, s))
              else pickRun s 0 65472 nsync ((s.own.leases.filter fun l => l.cells != 0).map fun l => (l.cellFirst, l.cells))
            match cells with
            | none => none
            | some (cf, s) =>
              let (n, s) := s.draw
              let gen := (((s.own.gens.find? fun g => g.id == id).map LeaseGen.gen).getD 0 + 1) % 65536
              let l : Lease := { id := id, gen := gen, tenant := t, state := .active, service := svc, expiry := allOnes64,
                                 fenceAt := allOnes64, granted := s.now, offset := s.port.ptp.lockNs, ms := ms,
                                 slotFirst := sf, slots := nslots, cellFirst := cf, cells := nsync, stageMib := stageMib,
                                 holdover := s.clock.ptp == .holdover, rkey := (Config.rkey n).toNat }
              let l := if svc.isSome then l else setTerm s l
              let win := memZero (memZero s.nuc.win (slotAddr sf) (0x1000 * nslots)) (cellAddr cf) (8 * nsync)
              (allocatePool { s with own.leases := s.own.leases ++ [l], nuc.win := win } t (256 * stageMib) 0 .staging id).map fun s => (l, s)

/-- Neither save area is wholly erased (R368). -/
def noSaveArea (s : State) : Bool := !s.fl.areaA.erased && !s.fl.areaB.erased

/-- LEASE_GRANT (R422, R423). -/
def execLeaseGrant (c : Cmd) (s : State) : Host.Outcome State Fault Refusal :=
  .next (mailRow 0x0100 .tenant (fun _ => 16) (fun x b s =>
    let ms := fld b 0 4
    let n := fld b 4 4
    let cells := fld b 8 4
    let mib := fld b 12 4
    if ms < 100 || ms > 60000 || n < 1 || n > 16384 || cells > 16384 || cells % 64 ≠ 0 || mib > 16384 || mib % 2 ≠ 0 then
      .reply s stMALFORMED []
    else if !clockOk s || noSaveArea s then .reply s stBUSY []
    else match allotLease s x.tenant ms n cells mib none with
      | none =>
        .reply (if leaseRoom s x.tenant n && (allocatePool s x.tenant (256 * mib) 0 .staging 0).isNone then starved s x.tenant else s) stQUOTA []
      | some (l, s) => .reply s stOK (u32 l.rkey ++ zeros 4 ++ leaseCellBytes l)) c s)

/-! ## The fence (R428) -/

/-- A lease ends: its requests complete FENCED, at once where they wait and at their boundary where they run, and the uncommitted
rows of its writer bindings are discarded. -/
def endLease (s : State) (id cause : Nat) : State :=
  match leaseOf s id with
  | none => s
  | some l =>
    if l.state != .active then s
    else
      let s := mapLease s id fun l => { l with state := .ended, cause := cause, endedAt := s.now }
      let ids := (s.eng.reqs.filter fun r => r.lease == id).map Rq.id
      let s := ids.foldl (fun s r => stopReq s r stFENCED) s
      (s.sq.seqs.filter fun q => q.writer == some id).foldl (fun s q => rebind s q.handle) s

/-- A lease whose FENCE_AT has passed has ended with CAUSE 1. -/
def settleLease (s : State) (id : Nat) : State :=
  match leaseOf s id with
  | some l => if l.state == .active && !leaseLive s l then endLease s id 1 else s
  | none => s

/-- LEASE_EXPIRY (R428): the node clock reaches FENCE_AT. -/
def execLeaseExpiry (id : Nat) (s : State) : Host.Outcome State Fault Refusal :=
  match leaseOf s id with
  | some l => if serves s && l.state == .active && l.service.isNone then .next (endLease (s.at l.fenceAt) id 1) else .next s
  | none => .next s

/-- An ordinary or service lease of the tenant, once past ends are settled. -/
def tenantLease (s : State) (t id : Nat) : Option Lease :=
  match leaseOf s id with
  | some l => if l.tenant = t then some l else none
  | none => none

/-- LEASE_RENEW (R427). A service lease has no term to renew. -/
def execLeaseRenew (c : Cmd) (s : State) : Host.Outcome State Fault Refusal :=
  .next (mailRow 0x0101 .tenant (fun _ => 8) (fun x b s =>
    if !zeroAt b 4 4 then .reply s stMALFORMED []
    else
      let id := fld b 0 2
      let s := settleLease s id
      match tenantLease s x.tenant id with
      | none => .reply s stUNKNOWN []
      | some l =>
        if l.state != .active || l.gen ≠ fld b 2 2 then .reply s stFENCED []
        else if !clockOk s then .reply s stBUSY []
        else
          let l := if l.service.isSome then l else setTerm s l
          .reply (mapLease s id fun _ => l) stOK (leaseCellBytes l)) c s)

/-- LEASE_RELEASE (R607). -/
def execLeaseRelease (c : Cmd) (s : State) : Host.Outcome State Fault Refusal :=
  .next (mailRow 0x0102 .tenant (fun _ => 2) (fun x b s =>
    let id := fld b 0 2
    let s := settleLease s id
    match tenantLease s x.tenant id with
    | none => .reply s stUNKNOWN []
    | some _ => .reply (endLease s id 2) stOK []) c s)

/-- LEASE_FREE (R421): 60 s after its end, with its last request complete, a lease returns its slots, cells and staging. -/
def execLeaseFree (id : Nat) (s : State) : Host.Outcome State Fault Refusal :=
  match leaseOf s id with
  | some l =>
    if !serves s || l.state != .ended || s.eng.reqs.any (fun r => r.lease == id) then .next s
    else
      let s := s.at (l.endedAt + 60 * 10 ^ 9)
      let held := fun (x : SlotSt) => match x.id with
        | .net n => decide (l.slotFirst ≤ n ∧ n < l.slotFirst + l.slots)
        | .int _ _ => false
      let s := freeOwned s .staging l.tenant id
      .next { s with own.leases := s.own.leases.filter fun x => x.id != id,
                     own.gens := (s.own.gens.filter fun g => g.id != id) ++ [⟨id, l.gen⟩],
                     nuc.slots := s.nuc.slots.filter fun x => !held x }
  | none => .next s

end Sys2Proof.Machine
end

