-- ==== Sys2Proof/Machine/Replica.lean ====
section
/-! DEFINITION. Replica objects on this node (R335, R336, R338, R502, R509), and the sessions, leases and REPLICA_PUTs that
the node holds on its peers (R334, R337, R436). -/

namespace Sys2Proof.Machine

open Sys2Proof

/-! ## REPLICA_PUT here (Table 12-6) -/

def rpSeq (b : Bytes) : Nat := fld b 0 8
def rpSpan (b : Bytes) : Nat := fld b 8 6
def rpSrc (b : Bytes) : Nat := fld b 0xE 2
def rpBlock (b : Bytes) : Nat := fld b 0x14 1
def rpGen (b : Bytes) : Nat := fld b 0x16 2
def rpLen (b : Bytes) : Nat := fld b 0x20 4

/-- Ranges of Table 12-6. MARK DEDUCED (log entry 61): a SPAN_ID that names no span under R9, and a SEQ of another tenant (R7), are out of
range. -/
def replicaRange (s : State) (r : Rq) : Bool :=
  let b := r.body
  decide (rpBlock b < 16) && decide (rpSpan b % 16 = 0) && decide (rpSeq b / 2 ^ 56 = r.tenant) && zeroAt b 0x15 1 && stageOk s r.lease (fld b 0x18 8) (rpLen b) &&
  decide (65 ≤ rpLen b ∧ rpLen b ≤ 1048576) && decide (1 ≤ fld b 0x24 4) && zeroAt b 0x38 8 && restZero b 0x40 &&
  qpOk s r (fld b 0x34 4) (fld b 0x30 4) && addrOk s r (fld b 0x28 8) 8

/-- Replica objects of a pair (SRC_NODE, SEQ) under a tenant. -/
def replicasOf (s : State) (t src seq : Nat) : List FObj :=
  s.fl.objs.filter fun v => v.tenant == t && (match v.kind with | .replica a b _ => a == src && b == seq | _ => false)

/-- The record held for a block. -/
def blockRec (s : State) (v : FObj) (i : Nat) : Option LogRec := match v.blocks[i]? with | some (.at l) => recOf s l | _ => none

/-- An OBJ_GEN is newer than another, modulo 2^16 (R336). -/
def genNewer (new old : Nat) : Bool := let d := (new + 65536 - old) % 65536; decide (0 < d ∧ d < 32768)

def leaseTag (s : State) (l : Nat) : Nat := match leaseOf s l with | some x => x.id + 65536 * x.gen | none => 0

/-- Write the staged bytes as a block of a replica object; none where no segment is free. -/
def writeReplica (r : Rq) (staged : Bytes) (s : State) : Option State :=
  let b := r.body
  let tag := leaseTag s r.lease
  let s0 : State := { s with fl.nextIdx := s.fl.nextIdx + 1 }
  let n := max (bfld staged 6 1 4 0) (rpBlock b + 1)
  let (v, s1) : FObj × State := match (replicasOf s r.tenant (rpSrc b) (rpSeq b)).find? fun v => v.spanId == rpSpan b with
    | some v => (v, s)
    | none => (⟨s.fl.nextIdx, r.tenant, .replica (rpSrc b) (rpSeq b) [], rpSpan b, rpSeq b, 0, 0, [], 0, 0, [], 0, []⟩, s0)
  match logAppend s1 false 3 (rpBlock b) (objField v) (rpGen b) staged none with
  | none => none
  | some (rec_, s2) =>
    let tags := match v.kind with | .replica _ _ ls => ls | _ => []
    let table := fld staged 7 1
    let tdig := cut staged 0x28 8
    let blocks := v.blocks ++ List.replicate (n - v.blocks.length) BlkRef.unwritten
    let w : FObj := { v with kind := .replica (rpSrc b) (rpSeq b) (if tags.contains tag then tags else tags ++ [tag]),
                             shape := fld staged 5 1, table := if zeroAt tdig 0 8 then v.table else table,
                             tdig := if zeroAt tdig 0 8 then v.tdig else tdig,
                             gen := rpGen b, committed := max v.committed (fld b 0x10 4),
                             blocks := blocks.set (rpBlock b) (.at rec_.lsn) }
    publishVer s2 (settleTable s2 w)

/-- Store the staged bytes as a block of a replica object, with garbage collection where no segment is free; the hold's cause where they
cannot be stored (R336). -/
def storeReplica (s : State) (r : Rq) (staged : Bytes) : Sum State Nat :=
  match afterCollect (writeReplica r staged) s.fl.segs.length s, tenantOf s r.tenant with
  | some s, some k => if t2Use s r.tenant ≤ k.t2Units then .inl s else .inr 0
  | none, _ => .inr 1
  | _, none => .inr 0

/-- A REPLICA_PUT that holds its scatter context (R336). -/
def replicaGo (s : State) (id : Req) : State :=
  match reqOf s id with
  | none => s
  | some r =>
    let b := r.body
    let staged := stageRead s r.lease (fld b 0x18 8) (rpLen b)
    let done := fun (s : State) (n : Nat) =>
      let s := mapReq s id fun r => { r with count := n, phase := .running }
      finish (emitAdd s r (fld b 0x34 4) (fld b 0x28 8) (fld b 0x30 4)) id stOK
    let held := match (replicasOf s r.tenant (rpSrc b) (rpSeq b)).find? fun v => v.spanId == rpSpan b with
      | some v => (blockRec s v (rpBlock b)).map LogRec.gen
      | none => none
    match held with
    | some g =>
      if genNewer (rpGen b) g then
        match storeReplica s r staged with
        | .inl s => done s (rpLen b)
        | .inr c => finish (raise s 2 (u8 r.tenant ++ u8 c)) id stQUOTA
      else done s 0
    | none =>
      match storeReplica s r staged with
      | .inl s => done s (rpLen b)
      | .inr c => finish (raise s 2 (u8 r.tenant ++ u8 c)) id stQUOTA

/-- REPLICA_PUT after the slot's checks (R336, R338, R502, R509). -/
def replicaStart (s : State) (id : Req) : State :=
  match reqOf s id with
  | none => s
  | some r =>
    let b := r.body
    if !replicaRange s r then finish s id stMALFORMED
    else if s.fl.withdrawn.contains (r.tenant, rpSrc b) then finish s id stGONE
    else if s.fl.promoted.contains (rpSrc b, rpSeq b) then finish s id stUNKNOWN
    else
      let staged := stageRead s r.lease (fld b 0x18 8) (rpLen b)
      let live := match tenantOf s r.tenant with
        | some k => (keyGenOf k (fld staged 70 2)).isSome
        | none => false
      if !live then finish s id stUNKNOWN
      else
        let s := mapReq s id fun r => { r with deadline := r.armTime + 1000 * fld b 0x24 4 }
        if scatterFree s && !scatterWaits s id then replicaGo s id
        else mapReq s id fun r => { r with phase := .context }

/-! ## Promotion and removal -/

/-- Layer, KV head and index of a span identity (R7). -/
def idLayer (n : Nat) : Nat := bits n 31 24
def idHead (n : Nat) : Nat := bits n 23 18
def idIndex (n : Nat) : Nat := bits n 17 4

/-- Leading positions that a list of blocks holds, `n` positions to a block. -/
def heldBlocks (s : State) (v : FObj) (n : Nat) : List Nat → Nat
  | [] => 0
  | i :: is => match blockRec s v i with
    | some r =>
      let cap := fld (sealedOf r) 0xA 2
      if cap ≥ n then n + heldBlocks s v n is else cap
    | none => 0

/-- Leading positions of a span that a version holds. -/
def heldRows (s : State) (v : FObj) : Nat :=
  let n := 16 * pagesPerBlock (v.shape / 4 % 4) (v.shape % 4)
  heldBlocks s v n (List.range (1024 / n))

/-- Leading positions that objects hold in one layer and KV head. -/
def heldHead (s : State) (vs : List FObj) (l h : Nat) : Nat → Nat → Nat
  | 0, _ => 0
  | fuel + 1, i => match vs.find? fun v => idLayer v.spanId == l && idHead v.spanId == h && idIndex v.spanId == i with
    | some v => let n := heldRows s v; if n ≥ 1024 then 1024 + heldHead s vs l h fuel (i + 1) else n
    | none => 0

/-- The largest COMMITTED received. -/
def heldMax (vs : List FObj) : Nat := vs.foldl (fun m v => max m v.committed) 0

/-- The checked length of R338 and R439. -/
def heldLen (s : State) (vs : List FObj) (layers kvh : Nat) : Nat :=
  (List.range layers).foldl (fun m l => (List.range kvh).foldl (fun m h => min m (heldHead s vs l h (vs.length + 1) 0)) m) (heldMax vs)

/-- Replica objects become a sequence's current objects, every span FLASH_ONLY and Dl equal to C = `n` (R338, R439). -/
def adopt (s : State) (q : Seq) (vs : List FObj) (n : Nat) : State :=
  let s := vs.foldl (fun s v =>
    let i := idIndex v.spanId
    if n ≤ i * 1024 then deleteObj s v.idx
    else
      let pages := (List.range 64).map fun p => ({ wr := rowsBelow i p n, drows := rowsBelow i p n } : PageSt)
      let x : Span := { als := q.als, layer := idLayer v.spanId, head := idHead v.spanId, idx := i, tenant := q.tenant, gen := 0,
                        state := .flashOnly, dim := q.dim, fmt := q.fmt, strength := kvStrength s q.tenant, bank := 0, frame := 0,
                        flash := some v.idx, pages := pages, lastRead := s.readTime }
      publish (setObj s { v with kind := .span }) x) s
  mapSeq s q.als fun q => { q with len := n, wBase := n, fronts := [], rebuild := true }

/-- An alias that no sequence on the node has (R8). -/
def freeAlias (s : State) : Option (Nat × State) := pickRun s 0 65536 1 (s.sq.seqs.map fun q => (q.als, 1))

/-- The durability record (Table 12-7). -/
def durBytes (s : State) (q : Seq) : Bytes :=
  let waits := s.eng.reqs.any fun r => r.phase == .commit && (appendsTo r).contains q.handle
  u64 q.handle ++ u32 q.len ++ u32 (durable s q) ++ u32 q.lost ++
  u32 ((if q.restarted then 1 else 0) + (if q.promoted then 2 else 0) + (if waits then 4 else 0))

/-- An unexpired lease has put objects of the pair (R338). -/
def sourceLive (s : State) (vs : List FObj) : Bool :=
  vs.any fun v => match v.kind with
    | .replica _ _ ls => ls.any fun t => match leaseOf s (t % 65536) with
      | some l => l.gen == t / 65536 && leaseLive s l
      | none => false
    | _ => false

/-- The sequence that promoted objects become: the one created under the handle, or a new one (log entry 19). -/
def promoteSeq (s : State) (t handle : Nat) (vs : List FObj) : Option (Seq × State) :=
  match seqOf s handle with
  | some q => some (q, s)
  | none => match freeAlias s with
    | none => none
    | some (a, s) =>
      let (pos, s) := s.word
      let (seed, s) := s.word
      let (rope, s) := s.word
      let shape := (vs.map FObj.shape).headD 0
      let layers := vs.foldl (fun m v => max m (idLayer v.spanId + 1)) 1
      let kvh := vs.foldl (fun m v => max m (idHead v.spanId + 1)) 1
      let tab := fun l => match vs.find? fun v => idLayer v.spanId == l && !zeroAt v.tdig 0 8 with | some v => v.table | none => 0xFFFF
      let q : Seq := { handle := handle, tenant := t, als := a, layers := layers, kvh := kvh, dim := shape % 4, fmt := shape / 4 % 4,
                       posOff := pos % 2 ^ 32, seed := seed, rope := rope % 2 ^ 32, ctables := (List.range layers).map tab }
      some (q, { s with sq.seqs := s.sq.seqs ++ [q] })

/-- REPLICA_PROMOTE (R338). MARK DEDUCED (log entry 61): a SEQ whose tenant id is not the session's is out of range (R7, R12). -/
def execReplicaPromote (c : Cmd) (s : State) : Host.Outcome State Fault Refusal :=
  .next (mailRow 0x0116 .tenant (fun _ => 16) (fun x b s =>
    let seq := fld b 0 8
    let src := fld b 8 2
    let vs := replicasOf s x.tenant src seq
    let taken := match seqOf s seq with
      | some q => q.len ≠ 0 || q.tenant ≠ x.tenant || s.sq.spans.any (fun y => y.als == q.als)
      | none => false
    if !zeroAt b 10 6 || seq / 2 ^ 56 ≠ x.tenant then .reply s stMALFORMED []
    else if s.fl.withdrawn.contains (x.tenant, src) then .reply s stGONE []
    else if vs.isEmpty then .reply s stUNKNOWN []
    else if sourceLive s vs then .reply s stBUSY []
    else if taken then .reply s stMALFORMED []
    else match promoteSeq s x.tenant seq vs with
      | none => .reply s stQUOTA []
      | some (q, s) =>
        let s := adopt s q vs (heldLen s vs q.layers q.kvh)
        let t := tenantOf s x.tenant
        let s := mapSeq s q.als fun q => { q with promoted := true, incoming := none, bound := (t.map Tenant.bound).getD q.bound,
                                                  domain := (t.map Tenant.domain).getD q.domain }
        let s := { s with fl.promoted := s.fl.promoted ++ [(src, seq)] }
        match seqOf s seq with
        | some q => .reply s stOK (durBytes s q)
        | none => .reply s stINTERNAL []) c s)

/-- The SEQ that names every sequence of a tenant (R509). -/
def wholeTenant (t : Nat) : Nat := t * 2 ^ 56 + 0x00FFFFFFFFFFFFFF

/-- REPLICA_DROP (R338, R509). -/
def execReplicaDrop (c : Cmd) (s : State) : Host.Outcome State Fault Refusal :=
  .next (mailRow 0x0117 .tenant (fun _ => 16) (fun x b s =>
    let seq := fld b 0 8
    let src := fld b 8 2
    if !zeroAt b 10 6 then .reply s stMALFORMED []
    else if seq = wholeTenant x.tenant then
      let vs := s.fl.objs.filter fun v => v.tenant == x.tenant && (match v.kind with | .replica a _ _ => a == src | _ => false)
      let s := vs.foldl (fun s v => deleteObj s v.idx) s
      .reply { s with fl.withdrawn := s.fl.withdrawn ++ [(x.tenant, src)] } stOK []
    else
      let vs := replicasOf s x.tenant src seq
      if vs.isEmpty then .reply s stUNKNOWN []
      else .reply (vs.foldl (fun s v => deleteObj s v.idx) s) stOK []) c s)

/-! ## Sessions and leases on peers -/

/-- The peer entry of a replica session of a tenant, or of a migration. -/
def peerFor (s : State) (t : Nat) (mig : Option Nat) : Option Peer := s.fl.peers.find? fun p => p.tenant == t && p.mig == mig
def mapPeer (s : State) (qp : Nat) (f : Peer → Peer) : State := { s with fl.peers := mapIf (fun p => p.qp == qp) f s.fl.peers }

/-- Return records and the cell of return area `i` (R406): 32 of the 2,048 records, and one of the 64 cells. -/
def retRecords : Nat := 32

/-- Send a command to the peer's session mailbox (R380): header and body, then the command word. -/
def peerMail (s : State) (qp mseq code : Nat) (body : Bytes) : State :=
  let t : AckTag := .plain
  let s := send s qp (.write 0x110000 0 (u16 code ++ zeros 2 ++ u32 body.length ++ zeros 24 ++ body)) t
  send s qp (.write 0x110FF8 0 (u64 (code * 2 ^ 32 + mseq * 2 ^ 48))) t

/-- The bound credential of Table 14-2 for a tenant. -/
def openBody (t notAfter : Nat) (sig : Bytes) : Bytes := u8 1 ++ u8 t ++ u8 1 ++ zeros 5 ++ u64 notAfter ++ zeros 32 ++ cut sig 0 sigLen

/-- A connected QP to a peer gets its return rkey, records and cell, and the lease that the node takes there (R334, R406,
R436; log entry 20). -/
def peerUp (s : State) (qp t : Nat) (mig : Option Nat) (node notAfter : Nat) (sig : Bytes) : State :=
  match pickOf s ((List.range 64).filter fun i => !(s.nuc.qps.any fun q => match q.ret with | some (_, _, c) => c == 0xFFC0 + i | none => false)) with
  | none => leaveConnected s qp .error
  | some (i, s) =>
    let (n, s) := s.draw
    let (id, s) := s.word
    let (gen, s) := s.word
    let (rkey, s) := s.word
    let (slot, s) := s.word
    let s := mapQp s qp fun q => { q with ret := some ((Config.rkey n).toNat, retRecords * i, 0xFFC0 + i) }
    let s := peerMail s qp 0 0x0002 (openBody t notAfter sig)
    let s := peerMail s qp 1 0x0100 (u32 10000 ++ u32 64 ++ u32 64 ++ u32 64)
    let p : Peer := { qp := qp, tenant := t, mig := mig, node := node, seqs := List.replicate retRecords 0xFFFF, mseq := 2,
                      lease := some (id % 4096, gen % 65536, rkey % 2 ^ 32, slot % 65473, s.now + 10000000000) }
    { s with fl.peers := (s.fl.peers.filter fun x => !(x.tenant == t && x.mig == mig)) ++ [p] }

/-- The next command to a peer's session mailbox. -/
def peerCommand (s : State) (p : Peer) (code : Nat) (body : Bytes) : State :=
  mapPeer (peerMail s p.qp p.mseq code body) p.qp fun x => { x with mseq := (x.mseq + 1) % 65536 }

/-- Session and lease on a peer are established once more on a QP that stands, after a put has failed (R337). -/
def peerAgain (s : State) (p : Peer) (notAfter : Nat) (sig : Bytes) : State :=
  let (id, s) := s.word
  let (gen, s) := s.word
  let (rkey, s) := s.word
  let (slot, s) := s.word
  let s := peerMail s p.qp p.mseq 0x0002 (openBody p.tenant notAfter sig)
  let s := peerMail s p.qp ((p.mseq + 1) % 65536) 0x0100 (u32 10000 ++ u32 64 ++ u32 64 ++ u32 64)
  let l := (id % 4096, gen % 65536, rkey % 2 ^ 32, slot % 65473, s.now + 10000000000)
  mapPeer s p.qp fun x => { x with mseq := (x.mseq + 2) % 65536, seqs := List.replicate retRecords 0xFFFF, lease := some l }

/-- A staged block: header and sealed block. -/
structure Staged where
  seq       : Nat
  span      : Nat
  committed : Nat
  block     : Nat
  gen       : Nat
  bytes     : Bytes

/-- Write a block into the peer's staging window and arm a REPLICA_PUT on a free slot (R334); none where no lease or slot is
there. The request names the return rkey, a return record and the cell (R406). -/
def putBlock (s : State) (p : Peer) (use : PutUse) (g : Staged) : Option State :=
  match p.lease, (qpOf s p.qp).bind Qp.ret with
  | some (_, _, rkey, slot0, _), some (ret, rec0, cell) =>
    if !connected s p.qp then none
    else match lowest retRecords fun i => !(s.fl.puts.any fun u => u.qp == p.qp && u.slot == i) with
      | none => none
      | some i =>
        let lease := (p.lease.map fun l => l.1).getD 0
        let (d, s) := s.word
        let (prio, s) := s.word
        let seq := (p.seqs.getD i 0xFFFF + 1) % 65536
        let off := 0x20000 * i
        let slot := slotAddr (slot0 + i)
        let head := u8 0x40 ++ u8 (prio % 4) ++ u16 lease ++ zeros 4 ++ u64 (0x500000 + 32 * (rec0 + i)) ++ u32 ret ++ u32 0 ++ zeros 40
        let body := u64 g.seq ++ u64 (g.span + s.pw.node * 2 ^ 48) ++ u32 g.committed ++ u8 g.block ++ u8 0 ++ u16 g.gen ++ u64 off ++
          u32 g.bytes.length ++ u32 (max 1 (d % 2 ^ 32)) ++ u64 (cellAddr cell) ++ u32 ret ++ u32 0 ++ zeros 8
        let tag : AckTag := .replica p.tenant 0
        let s := send s p.qp (.write (0x40000000 + off) rkey g.bytes) tag
        let s := send s p.qp (.write slot rkey (head ++ body)) tag
        let s := send s p.qp (.write (slot + 0xFF8) rkey (u64 (0x40 * 2 ^ 40 + seq * 2 ^ 48))) tag
        let s := mapPeer s p.qp fun x => { x with seqs := x.seqs.set i seq }
        some { s with fl.puts := s.fl.puts ++ [⟨p.qp, i, seq, use, s.now + 1000 * max 1 (d % 2 ^ 32), none⟩] }
  | _, _ => none

/-- Renew the lease on a peer by a fetch-add of its cell (R427, R436). -/
def renewPeer (s : State) (p : Peer) : State :=
  match p.lease with
  | some (id, gen, rkey, slot, _) =>
    if connected s p.qp then
      let s := send s p.qp (.fetchAdd (0x200000 + 64 * id + 0x38) rkey 1) (.replica p.tenant 0)
      mapPeer s p.qp fun x => { x with lease := some (id, gen, rkey, slot, s.now + 10000000000) }
    else s
  | none => s

/-- REPLICA_FAIL (Table 14-15). -/
def replicaFail (s : State) (t node status : Nat) : State := raise s 4 (u8 t ++ u8 0 ++ u16 node ++ u8 status)

/-- Puts of a QP whose deadline has passed have timed out (R337). -/
def putTimeouts (s : State) (qp : Nat) : State :=
  let late := fun (u : Put) => u.qp == qp && u.status.isNone && decide (u.until_ ≤ s.now)
  { s with fl.puts := mapIf late (fun u => { u with status := some stTIMEDOUT }) s.fl.puts }

/-- Forget the puts of a QP that has left the connected state; blocks of a migration are copied again (R337). -/
def dropPuts (s : State) (qp : Nat) : State :=
  let lost := s.fl.puts.filter fun u => u.qp == qp
  let s : State := { s with fl.puts := s.fl.puts.filter fun u => u.qp != qp, fl.peers := s.fl.peers.filter fun p => p.qp != qp }
  lost.foldl (fun s u => match u.use with
    | .copy m a l h i k =>
      let c : CopyBlk := ⟨a, l, h, i, k⟩
      let upd := fun (m : Mig) => { m with sent := m.sent.erase c, todo := if m.todo.contains c then m.todo else m.todo ++ [c] }
      { s with fl.migs := mapIf (fun x => x.id == m) upd s.fl.migs }
    | .flush _ => s) s

/-- Open the replica session of a tenant (R334). -/
def connectReplica (s : State) (k : Tenant) : State :=
  match openQp s (.replica k.id) (leNat (cut k.replicaAddr 0 16)) k.replica k.replicaSig with
  | some (_, s) => s
  | none => s

/-- Put the blocks of the tenant's flushes that the replica has not acknowledged and no put carries (R333, R337); a flush keeps
its block and the sealed bytes in `data`. -/
def putFlushes (s : State) (t : Nat) : State :=
  (s.fl.jobs.filter fun j => j.tenant == t).foldl (fun s j => match j.kind, peerFor s t none with
    | .flush a l h i _ true false, some p =>
      if s.fl.puts.any fun u => u.use == .flush j.id then s
      else match j.data, seqByAlias s a with
        | (k, sealed) :: _, some q =>
          let g : Staged := ⟨q.handle, spanId a l h i, j.ver.committed, k, j.ver.gen, spanHeader j.ver ++ sealed⟩
          (putBlock s p (.flush j.id) g).getD s
        | _, _ => s
    | _, _ => s) s

end Sys2Proof.Machine
end

