-- ==== Sys2Proof/Machine/Migrate.lean ====
section
/-! DEFINITION. Migration (R432 to R443): both roles, the copy, the freeze, the installation, the stubs. -/

namespace Sys2Proof.Machine

open Sys2Proof

def migById (s : State) (m : Nat) : Option Mig := s.fl.migs.find? fun x => x.id == m
def mapMig (s : State) (m : Nat) (f : Mig → Mig) : State := { s with fl.migs := mapIf (fun x => x.id == m) f s.fl.migs }
def dropMig (s : State) (m : Nat) : State := { s with fl.migs := s.fl.migs.filter fun x => x.id != m }

/-- Sequences of a migration, in list order. -/
def migSeqs (s : State) (m : Mig) : List Seq := m.seqs.filterMap (seqOf s)

/-! ## Deleted and stubbed sequences -/

/-- Trees of a deleted or stubbed sequence go once no earlier request uses it (R208); a deleted one's alias becomes free with its last
frame (R386). -/
def reapSeqs (s : State) : State :=
  (s.sq.seqs.filter fun q => q.gone || q.stub.isSome).foldl (fun s q =>
    if s.eng.reqs.any fun r => r.handle == q.handle || (r.op == 0x30 && (rlSeqs r.body).contains q.handle) then s
    else
      let s := freeTrees s q.als
      if !q.gone || s.mem.regions.any (fun r => r.use == .span && r.owner == q.als) || s.mem.freed.any (fun r => r.use == .span && r.owner == q.als)
      then s else { s with sq.seqs := s.sq.seqs.filter fun x => x.als != q.als }) s

/-- Remove a sequence (R386): its entries, frames and T2 copies. -/
def deleteSeq (s : State) (q : Seq) : State :=
  let s := (s.sq.spans.filter fun x => x.als == q.als).foldl freeSpan s
  reapSeqs (mapSeq s q.als fun q => { q with gone := true, writer := none })

/-! ## The copy -/

/-- Blocks of a sequence that hold positions from `lo` to `hi` - 1. -/
def blocksIn (s : State) (q : Seq) (lo hi : Nat) : List CopyBlk :=
  (s.sq.spans.filter fun x => x.als == q.als).flatMap fun x =>
    let n := 16 * pagesPerBlock x.fmt x.dim
    (List.range (1024 / n)).filterMap fun i =>
      let a := x.idx * 1024 + i * n
      if a < hi && lo < a + n then some ⟨x.als, x.layer, x.head, x.idx, i⟩ else none

/-- A block's bytes with every row at or above its first `cap` positions zero. -/
def limitRows (fmt dim cap : Nat) (raw : Bytes) : Bytes :=
  let pb := pageBytes fmt dim
  (List.range (pagesPerBlock fmt dim)).flatMap fun k => keepRows fmt dim (cap - 16 * k) (cut raw (k * pb) pb)

/-- The fields of the header that a span's copy carries: its object's, or a new one's. -/
def headerFor (s : State) (q : Seq) (x : Span) (gen : Nat) : FObj :=
  match x.flash.bind (objOf s) with
  | some v => { v with gen := gen, committed := q.len }
  | none => ⟨0, x.tenant, .span, spanId x.als x.layer x.head x.idx, q.handle, shapeOf x, 0, [], gen, q.len,
             List.replicate (1024 / (16 * pagesPerBlock x.fmt x.dim)) .unwritten, 0, []⟩

/-- Header and sealed block of a block's copy (R436): the record in T2 where it stands for the present bytes and holds nothing
above C, otherwise a new seal, uncoded. -/
def copyBytes (s : State) (q : Seq) (x : Span) (blk gen : Nat) : Option Bytes × State :=
  let n := 16 * pagesPerBlock x.fmt x.dim
  let cap := min n (q.len - (x.idx * 1024 + blk * n))
  let v := headerFor s q x gen
  let clean := x.state == .flashOnly ||
    ((x.pages.drop (blk * (n / 16))).take (n / 16)).all fun p => !dirty p
  let kept := match x.flash.bind (objOf s) with
    | some o => match blockRec s o blk with
      | some r => if clean && decide (fld (sealedOf r) 0xA 2 ≤ cap) && r.typ != 3 then some (sealedOf r) else none
      | none => none
    | none => none
  match kept with
  | some b => (some (spanHeader v ++ b), s)
  | none =>
    let (raw, s) : Option Bytes × State :=
      if x.state == .flashOnly then
        (match x.flash.bind (objOf s) with
         | some o => (openBlock s o blk).map (limitRows x.fmt x.dim cap)
         | none => none, s)
      else moverBlock s x blk cap
    match raw, takeCtr s x.tenant with
    | some raw, some (k, s) =>
      let hd := sealHead k.ctr gen k.gen s.pw.node cap false blk
      (some (spanHeader v ++ sealBlock k.key hd v.spanId (aadOf v) (raw ++ u32 (crc32c raw) ++ u32 65536)), s)
    | _, _ => (none, s)

/-- Copy one block (R436): true where it has been put, or needs no copy any more. Pages in T1 are read at a break of their bank (R106). -/
def copyOne (s : State) (m : Mig) (c : CopyBlk) : State × Bool :=
  let skip := mapMig s m.id fun m => { m with todo := m.todo.erase c }
  match peerFor s m.tenant (some m.id), seqByAlias s c.als, spanOf s c.als c.layer c.head c.idx with
  | some p, some q, some x =>
    if q.len ≤ c.idx * 1024 + c.block * (16 * pagesPerBlock x.fmt x.dim) then (skip, true)
    else
      let old := match m.gens.find? fun g => g.1 == c with
        | some g => g.2
        | none => match x.flash.bind (objOf s) with | some v => v.gen | none => 0
      let gen := (old + 1) % 65536
      if x.state != .flashOnly && !atBreak s x.bank then (s, false)
      else match copyBytes s q x c.block gen with
      | (none, s) => (s, false)
      | (some bytes, s) =>
        let g : Staged := ⟨q.handle, spanId c.als c.layer c.head c.idx, q.len, c.block, gen, bytes⟩
        match putBlock s p (.copy m.id c.als c.layer c.head c.idx c.block) g with
        | none => (s, false)
        | some s =>
          (mapMig s m.id fun m => { m with todo := m.todo.erase c, sent := m.sent ++ [c], bytes := m.bytes + bytes.length,
                                           gens := (m.gens.filter fun g => g.1 != c) ++ [(c, gen)] }, true)
  | none, _, _ => (s, false)
  | _, _, _ => (skip, true)

/-- Put blocks while fewer than 8 are out (R436). -/
def copyFeed : Nat → State → Nat → State
  | 0, s, _ => s
  | fuel + 1, s, id => match migById s id with
    | none => s
    | some m => match m.todo with
      | [] => s
      | c :: _ =>
        if m.sent.length ≥ 8 then s
        else match copyOne s m c with
          | (s, true) => copyFeed fuel s id
          | (s, false) => s

/-- C of each sequence in list order. -/
def migLens (s : State) (m : Mig) : Bytes := (migSeqs s m).flatMap fun q => u32 q.len

/-- Every span of the set in T1 becomes MOVING (R438), or RESIDENT again (R441). -/
def setMoving (s : State) (m : Mig) (on : Bool) : State :=
  (migSeqs s m).foldl (fun s q => (s.sq.spans.filter fun x => x.als == q.als).foldl (fun s x =>
    if on && x.state == .resident then publish s { x with state := .moving }
    else if !on && x.state == .moving then publish s { x with state := .resident }
    else s) s) s

/-- Answer the mailbox that waits for the migration. -/
def migReply (s : State) (id status : Nat) (body : Bytes) : State :=
  match migById s id with
  | none => s
  | some m => match m.box with
    | none => s
    | some b => saveCfg (mailReply (mapMig s id fun m => { m with box := none, answer := body }) b status body)

/-- The source's copy goes on: blocks are put; when all are acknowledged BEGIN or FREEZE replies; when the last binding has ended
FREEZE makes the final copy (R436, R438). -/
def migPump (s : State) (id : Nat) : State :=
  match migById s id with
  | none => s
  | some m =>
    if !m.source then s
    else
      let s :=
        if m.state == .freezing && decide (m.waitUntil ≠ 0) && (migSeqs s m).all fun q => q.writer.isNone then
          let s := setMoving s m true
          let more := (migSeqs s m).flatMap fun q =>
            blocksIn s q (((m.lens.find? fun p => p.1 == q.als).map Prod.snd).getD 0) q.len
          mapMig s id fun m => { m with waitUntil := 0, todo := m.todo ++ more.filter fun c => !m.todo.contains c }
        else s
      let s := copyFeed 64 s id
      match migById s id with
      | none => s
      | some m =>
        if !m.todo.isEmpty || !m.sent.isEmpty then s
        else if m.state == .copying then migReply s id stOK (u64 m.bytes)
        else if m.state == .freezing && m.waitUntil = 0 then
          let lens := migLens s m
          migReply (mapMig s id fun m => { m with state := .frozen }) id stOK lens
        else s

/-- Migrations at this source go on. -/
def migAll (s : State) : State := (s.fl.migs.filter Mig.source).foldl (fun s m => migPump s m.id) s

/-- A put whose record has come ends: OK with an increment in its peer's cell acknowledges the block; any other status leaves it
unacknowledged, raises REPLICA_FAIL and ends the use of the lease until it is taken again (R336, R337). -/
def settlePut (s : State) (u : Put) : State :=
  let ok := u.status == some stOK
  let peer := s.fl.peers.find? fun p => p.qp == u.qp
  if u.status.isNone || (ok && (peer.map Peer.incs).getD 0 = 0) then s
  else
    let s : State := { s with fl.puts := s.fl.puts.erase u }
    let s := match peer with
      | some p =>
        if ok then mapPeer s p.qp fun p => { p with incs := p.incs - 1 }
        else mapPeer (replicaFail s p.tenant p.node (u.status.getD 0)) p.qp fun p => { p with lease := none }
      | none => s
    match u.use with
    | .flush j =>
      let ack := fun (x : FJob) => match x.kind with
        | .flush a l h i n f _ => { x with kind := .flush a l h i n f true }
        | _ => x
      if ok then { s with fl.jobs := mapIf (fun (x : FJob) => x.id == j) ack s.fl.jobs } else s
    | .copy m a l h i k =>
      let c : CopyBlk := ⟨a, l, h, i, k⟩
      mapMig s m fun m => { m with sent := m.sent.erase c,
                                   todo := if ok || m.todo.contains c then m.todo else m.todo ++ [c] }

/-- Every put whose record and increment have come ends, and migrations go on. -/
def settlePuts (s : State) : State :=
  let t := s.fl.puts.foldl settlePut s
  if t.fl.puts.length = s.fl.puts.length then s else migAll t

/-! ## MIGRATE_BEGIN -/

def mgTenant (b : Bytes) : Nat := fld b 5 1
def mgPeer (b : Bytes) : Nat := fld b 6 2
def mgSeqs (b : Bytes) : List Nat := (List.range (fld b 0xC 2)).map fun i => fld b (0x9A8 + 8 * i) 8

/-- Ranges of Table 15-5. -/
def migRange (s : State) (b : Bytes) : Bool :=
  let src := fld b 4 1 == 0
  decide (fld b 4 1 ≤ 1) && decide (1 ≤ fld b 0xC 2 ∧ fld b 0xC 2 ≤ 256) && zeroAt b 0xE 2 && zeroAt b 0x14 4 && zeroAt b 0x9A4 4 &&
  (if src then decide (100 ≤ fld b 0x10 4 ∧ fld b 0x10 4 ≤ 600000) else zeroAt b 0x10 4 && zeroAt b 0x18 8 && zeroAt b 0x20 (16 + sigLen)) &&
  (mgSeqs b).all (fun h => h / 2 ^ 56 == mgTenant b) && mgPeer b != s.pw.node && mgPeer b != 0

def migNeed (b : Bytes) : Nat := 0x9A8 + 8 * min 256 (fld b 0xC 2)

/-- The checks of R435 that both roles share. -/
def migBegin (role : Nat) (go : MailCtx → Bytes → State → MailRes) : Cmd → State → State :=
  mailRowIf (fun b => fld b 4 1 % 2 == role) 0x0230 .control migNeed fun x b s =>
    if !migRange s b then .reply s stMALFORMED []
    else withTenant s (mgTenant b) fun _ =>
      if (mgSeqs b).any fun h => match seqOf s h with | some q => q.stub.isSome | none => true then .reply s stUNKNOWN []
      else if (mgSeqs b).any (fun h => (migOf s h).isSome) ||
          (s.fl.migs.any fun m => m.id == fld b 0 4 && m.state != .installed) then .reply s stBUSY []
      else go x b (dropMig s (fld b 0 4))

def migNew (b : Bytes) (source : Bool) (st : MigState) : Mig :=
  { id := fld b 0 4, source := source, tenant := mgTenant b, peer := mgPeer b, epoch := fld b 8 4, seqs := mgSeqs b,
    graceMs := fld b 0x10 4, notAfter := fld b 0x18 8, state := st, addr := cut b 0x20 16, sig := cut b 0x30 sigLen }

/-- MIGRATE_BEGIN with ROLE DEST (R435, R436). -/
def execMigrateBeginDest (c : Cmd) (s : State) : Host.Outcome State Fault Refusal :=
  .next (migBegin 1 (fun _ b s =>
    if (mgSeqs b).any fun h => match seqOf s h with
        | some q => q.len != 0 || s.sq.spans.any fun x => x.als == q.als
        | none => true then .reply s stMALFORMED []
    else
      let s := (mgSeqs b).foldl (fun s h => match seqOf s h with
        | some q => mapSeq s q.als fun q => { q with incoming := some (mgPeer b) }
        | none => s) s
      .reply { s with fl.migs := s.fl.migs ++ [migNew b false .prepared] } stOK []) c s)

/-- Open the session of a migration on its destination. -/
def migConnect (s : State) (m : Mig) : Option State :=
  match openQp s (.migration m.id) (leNat m.addr) m.peer m.sig with
  | some (n, s) => some (mapMig s m.id fun m => { m with qp := some n })
  | none => none

/-- MIGRATE_BEGIN with ROLE SOURCE (R435, R436): the reply follows the last acknowledgement. -/
def execMigrateBeginSource (c : Cmd) (s : State) : Host.Outcome State Fault Refusal :=
  .next (migBegin 0 (fun x b s =>
    let qs := (mgSeqs b).filterMap (seqOf s)
    let m : Mig := { migNew b true .copying with box := some x.box, lens := qs.map fun q => (q.als, q.len),
                                                 todo := qs.flatMap fun q => blocksIn s q 0 q.len }
    match migConnect { s with fl.migs := s.fl.migs ++ [m] } m with
    | some s => .wait s
    | none => .reply s stQUOTA []) c s)

/-! ## MIGRATE_COMMIT -/

/-- A MIGRATE_COMMIT row: the body's checks, then the phase's action on a migration of the right role; a phase sent to the wrong
node completes MALFORMED (R437). -/
def migCommit (phase : Nat) (go : MailCtx → Bytes → Mig → State → MailRes) : Cmd → State → State :=
  mailRowIf (fun b => fld b 4 1 == phase || (decide (fld b 4 1 > 2) && phase == 0)) 0x0231 .control (fun _ => 16) fun x b s =>
    let w := fld b 8 4
    if fld b 4 1 > 2 || !zeroAt b 5 3 || !zeroAt b 12 4 || (if phase = 0 then !(decide (1 ≤ w ∧ w ≤ 60000)) else w != 0) then
      .reply s stMALFORMED []
    else match migById s (fld b 0 4) with
      | none => .reply s stMALFORMED []
      | some m =>
        match tenantOf s m.tenant with
        | some t => if t.dying then .reply s stGONE [] else go x b m s
        | none => go x b m s

/-- FREEZE (R438): the gate closes; the reply follows the final copy. -/
def execMigrateCommitFreeze (c : Cmd) (s : State) : Host.Outcome State Fault Refusal :=
  .next (migCommit 0 (fun x b m s =>
    if !m.source || m.state != .copying || m.box.isSome then .reply s stMALFORMED []
    else
      let w := s.now + 10 ^ 6 * fld b 8 4
      .wait (migPump (mapMig s m.id fun m => { m with state := .freezing, box := some x.box, waitUntil := max 1 w }) m.id)) c s)

/-- Raise a tenant's epoch floor (R433). -/
def raiseFloor (s : State) (t e : Nat) : State := mapTenant s t fun t => { t with floor := max t.floor e }

/-- INSTALL (R439). -/
def execMigrateCommitInstall (c : Cmd) (s : State) : Host.Outcome State Fault Refusal :=
  .next (migCommit 1 (fun _ _ m s =>
    if m.source then .reply s stMALFORMED []
    else if m.state == .installed then .reply s stOK m.answer
    else
      let work := (migSeqs s m).map fun q =>
        let vs := replicasOf s m.tenant m.peer q.handle
        (q, vs, heldLen s vs q.layers q.kvh)
      if work.any fun w => decide (w.2.2 < heldMax w.2.1) then .reply s stNOTCOMMITTED []
      else
        let tags := work.flatMap fun w => w.2.1.flatMap fun v => match v.kind with | .replica _ _ ls => ls | _ => []
        let s := work.foldl (fun s w => adopt (mapSeq s w.1.als fun q => { q with incoming := none }) w.1 w.2.1 w.2.2) s
        let s := raiseFloor s m.tenant m.epoch
        let s := (distinct tags).foldl (fun s t => match leaseOf s (t % 65536) with
          | some l => if l.gen = t / 65536 then endLease s l.id 2 else s
          | none => s) s
        let lens := migLens s m
        .reply (mapMig s m.id fun m => { m with state := .installed, answer := lens }) stOK lens) c s)

/-- The append-class requests that wait on a set complete STALE_EPOCH. -/
def staleWaiting (s : State) (m : Mig) : State :=
  let rs := s.eng.reqs.filter fun r => (appendsTo r).any m.seqs.contains &&
    (r.phase == .turn || r.phase == .moving || r.phase == .commit || r.phase == .context || r.phase == .workspace)
  rs.foldl (fun s r =>
    let s := mapReq s r.id fun r => { r with redirect := m.peer }
    if r.op == 0x30 then runFinish s r.id stSTALE else finish s r.id stSTALE) s

/-- FINISH (R440). -/
def execMigrateCommitFinish (c : Cmd) (s : State) : Host.Outcome State Fault Refusal :=
  .next (migCommit 2 (fun _ _ m s =>
    if !m.source then .reply s stMALFORMED []
    else if m.state == .stubbed then .reply s stOK m.answer
    else if m.state != .frozen then .reply s stMALFORMED []
    else
      let s := (migSeqs s m).foldl (fun s q =>
        let s := (s.sq.spans.filter fun x => x.als == q.als).foldl (fun s x =>
          let s := freeFlash s x
          let s := if x.state == .flashOnly then s else freeSpanFrames s x
          publish s { x with state := .stub, bank := 0, frame := 0, flash := none, stubNode := m.peer }) s
        mapSeq s q.als fun q => { q with stub := some m.peer, writer := none }) s
      let s := raiseFloor s m.tenant m.epoch
      let g := s.now + 10 ^ 6 * m.graceMs
      let s := staleWaiting s m
      let s := match m.qp with
        | some n => match qpOf s n with
          | some q => dropPuts (leaveConnected (postCm s (.cmDreq q.peerQpn)) n .closing) n
          | none => s
        | none => s
      .reply (reapSeqs (mapMig s m.id fun m => { m with state := .stubbed, graceAt := g, answer := [] })) stOK []) c s)

/-! ## Abort, waits and timers -/

/-- Abort a migration (R441). -/
def abortMig (s : State) (m : Mig) : State :=
  if m.source then
    let s := setMoving s m false
    let s := match m.box with
      | some b =>
        if m.state == .freezing then mailReply s b stBUSY []
        else let (n, s) := s.draw; mailReply s b (Config.freeByte n).toNat []
      | none => s
    let s := match peerFor s m.tenant (some m.id) with
      | some p => match p.lease with
        | some (id, _, _, _, _) => if connected s p.qp then peerCommand s p 0x0102 (u16 id) else s
        | none => s
      | none => s
    let own := fun (u : Put) => match u.use with | .copy k _ _ _ _ _ => k == m.id | _ => false
    dropMig { s with fl.puts := s.fl.puts.filter fun u => !own u, fl.peers := s.fl.peers.filter fun p => p.mig != some m.id } m.id
  else
    let s := (migSeqs s m).foldl (fun s q =>
      let s := (replicasOf s m.tenant m.peer q.handle).foldl (fun s v => deleteObj s v.idx) s
      mapSeq s q.als fun q => { q with incoming := none }) s
    dropMig s m.id

/-- MIGRATE_ABORT (R441). -/
def execMigrateAbort (c : Cmd) (s : State) : Host.Outcome State Fault Refusal :=
  .next (mailRow 0x0232 .control (fun _ => 8) (fun _ b s =>
    if !zeroAt b 4 4 then .reply s stMALFORMED []
    else match migById s (fld b 0 4) with
      | none => .reply s stUNKNOWN []
      | some m =>
        match tenantOf s m.tenant with
        | some t =>
          if t.dying then .reply s stGONE []
          else if m.state == .installed || m.state == .stubbed then .reply s stMALFORMED []
          else .reply (abortMig s m) stOK []
        | none => .reply (abortMig s m) stOK []) c s)

/-- FREEZE_WAIT_EXPIRY (R438): with a binding still held the gate is undone and FREEZE completes BUSY. -/
def execFreezeWaitExpiry (mig : Nat) (s : State) : Host.Outcome State Fault Refusal :=
  match migById s mig with
  | none => .next s
  | some m =>
    if !serves s || m.state != .freezing || m.waitUntil = 0 then .next s
    else
      let s := s.at m.waitUntil
      if (migSeqs s m).all fun q => q.writer.isNone then .next (migPump s mig)
      else .next (migReply (mapMig s mig fun m => { m with state := .copying, waitUntil := 0 }) mig stBUSY [])

/-- STUB_GRACE_EXPIRY (R440): the stub entries and the aliases are freed. -/
def execStubGraceExpiry (mig : Nat) (s : State) : Host.Outcome State Fault Refusal :=
  match migById s mig with
  | none => .next s
  | some m =>
    if !serves s || m.state != .stubbed then .next s
    else
      let s := s.at m.graceAt
      let s := (migSeqs s m).foldl (fun s q =>
        let s : State := { s with sq.spans := s.sq.spans.filter fun x => x.als != q.als, sq.gen := s.sq.gen + 1 }
        mapSeq s q.als fun q => { q with gone := true }) s
      .next (reapSeqs (dropMig s mig))

/-- MIGRATION_LEASE_RENEWAL (R436, Table 15-8): the source renews its lease; where a put has failed it takes session and lease
again, where the QP has failed it connects again, and it aborts once the credential has expired (R337). -/
def execMigrationLeaseRenewal (mig : Nat) (s : State) : Host.Outcome State Fault Refusal :=
  match migById s mig with
  | none => .next s
  | some m =>
    if !serves s || !m.source || m.state == .stubbed then .next s
    else match m.qp.bind (qpOf s) with
      | some q =>
        if q.state == .connected then match peerFor s m.tenant (some mig) with
          | some p =>
            let s := settlePuts (putTimeouts s q.num)
            match (peerFor s m.tenant (some mig)).bind Peer.lease with
            | some _ => .next (migPump (renewPeer s p) mig)
            | none => .next (if m.notAfter ≤ s.now then abortMig (replicaFail s m.tenant m.peer stFENCED) m
                             else migPump (peerAgain s p m.notAfter m.sig) mig)
          | none => .next s
        else if q.state == .setup then .next s
        else
          let s := dropPuts { s with nuc.qps := s.nuc.qps.filter fun x => x.num != q.num } q.num
          if m.notAfter ≤ s.now then .next (abortMig (replicaFail s m.tenant m.peer stFENCED) m)
          else .next ((migConnect s m).getD s)
      | none =>
        if m.notAfter ≤ s.now then .next (abortMig (replicaFail s m.tenant m.peer stFENCED) m)
        else .next ((migConnect s m).getD s)

end Sys2Proof.Machine
end

