-- ==== Sys2Proof/Machine/Arms.lean ====
section
/-! DEFINITION. Request slots (R394 to R399, R306, R307): arm words, the checks every request has, and the start of each data-plane
opcode's own checks. -/

namespace Sys2Proof.Machine

open Sys2Proof

/-! ## Slots -/

def guestSlot (n : Nat) : Nat := 0x02000000 + 4096 * n

/-- Header and body of a slot. -/
def slotBytes (s : State) : Req → Bytes
  | .net n => memRead s.nuc.win (slotAddr n) 0xFF8
  | .int l n => match guestOf s l with | some k => memRead k.mem (guestSlot n) 0xFF8 | none => zeros 0xFF8

def setLast (s : State) (id : Req) (v : Nat) : State :=
  { s with nuc.slots := putBy (fun x => x.id == id) ⟨id, v⟩ s.nuc.slots }

/-- An arm word that the node ignores (R398). -/
def ignoreArm (s : State) (t : Nat) : State := mapTenant s t fun t => { t with ignored := (t.ignored + 1) % 2 ^ 64 }

def dataOps : List Nat := [0x01, 0x02, 0x03, 0x10, 0x11, 0x12, 0x20, 0x21, 0x22, 0x30, 0x31, 0x40]

/-- Step 1 of R399 on a header, with the arm word (R394, R395, R307). -/
def headOk (s : State) (id : Req) (l : Lease) (h : Bytes) (word : Nat) : Bool :=
  let c := fld h 4 2
  let own := match id with
    | .net _ => true
    | .int l _ => zeroAt h 0x10 8 && (match guestOf s l with | some k => guestOk k (fld h 8 8) 32 | none => false)
  bits word 38 0 == 0 && bfld h 1 1 7 2 == 0 && bfld h 6 1 7 1 == 0 && zeroAt h 7 1 && zeroAt h 0x18 40 &&
  dataOps.contains (fld h 0 1) && fld h 0 1 == bits word 47 40 && fld h 2 2 == l.id && fld h 8 8 % 32 == 0 &&
  (if flagAt h 6 0 then cellHeld s l.id c && decide (c < 0xFFC0) else c == 0) && own

/-- The checks of the chapter that owns the body, and the start of its work. -/
def startBody (s : State) (id : Req) (op : Nat) : State :=
  if op = 0x01 || op = 0x02 then attendStart s id
  else if op = 0x03 then mergeStart s id
  else if appendOps.contains op then appendStart s id
  else if op = 0x20 then searchStart s id
  else if op = 0x21 || op = 0x22 then vecStart s id
  else if op = 0x30 then runStart s id
  else if op = 0x31 then scoreStart s id
  else replicaStart s id

/-- A slot is armed (R397, R399): LAST, ARM_TIME and the copies, then the checks in order; `ue`: a copy cannot be had (Table 18-3). -/
def armSlot (s : State) (id : Req) (l : Lease) (via word : Nat) (ue : Bool := false) : State :=
  let all := slotBytes s id
  let h := cut all 0 64
  let seq := word / 2 ^ 48 % 65536
  let s := setLast s id seq
  let c := fld h 4 2
  let cs := if flagAt h 6 0 && cellHeld s l.id c && decide (c < 0xFFC0) then some c else none
  let r : Rq := { id := id, op := fld h 0 1, prio := bfld h 1 1 1 0, lease := l.id, tenant := l.tenant, seq := seq, via := via,
                  csync := cs, cmplAddr := fld h 8 8, cmplRkey := fld h 0x10 4, cmplQp := fld h 0x14 4, armTime := s.now,
                  order := s.eng.order + 1, deadline := s.now, snapGen := s.sq.gen, body := all.drop 64 }
  let s : State := { s with eng.reqs := s.eng.reqs ++ [r], eng.order := s.eng.order + 1 }
  if ue then finish (sramBad s r 1) id stINTERNAL
  else if !headOk s id l h word then finish s id stMALFORMED
  else if !leaseLive s l then finish s id stFENCED
  else startBody s id r.op

/-- A write of a slot's arm word (R397, R398). MARK DESIGN CHOICE (log entry 109): R11 and R398 leave open whether a word with CANCEL
set and a reserved bit of [38:0] set still cancels; here it does. -/
def armWord (s : State) (id : Req) (l : Lease) (via word : Nat) (ue : Bool := false) : State :=
  let seq := word / 2 ^ 48 % 65536
  let run := (reqOf s id).isSome
  if word.testBit 39 then
    if run && seq = lastOf s id then stopReq s id stCANCELLED else ignoreArm s l.tenant
  else if !run && seq = (lastOf s id + 1) % 65536 then armSlot s id l via word ue
  else ignoreArm s l.tenant

/-- The arm word of a row. -/
def wordOf (op : Nat) (cancel : Bool) (a : Arm) : Nat := (if cancel then 2 ^ 39 else 0) + op * 2 ^ 40 + a.seq % 65536 * 2 ^ 48

/-! ## Internal slots (R306) -/

/-- A partition's store of the arm word of internal slot `n`. -/
def armInternal (s : State) (p n word : Nat) (ue : Bool := false) : State :=
  match partOf s p with
  | none => s
  | some k => match leaseOf s k.lease with
    | none => s
    | some l =>
      if k.nslots ≤ n || !leaseLive s l then s
      else armWord (mapPart s p fun k => { k with mem := memWrite k.mem (guestSlot n + 0xFF8) (u64 word) }) (.int k.lease n) l 0 word ue

/-- SCATTER_CONTEXT_GRANT (R411): the first waiting request takes a free scatter context. -/
def scatterGrant (s : State) : State :=
  if !scatterFree s then s
  else match waiting s fun r => scatterOps.contains r.op && r.phase == .context with
    | [] => s
    | r :: _ =>
      if appendOps.contains r.op then appendGo s r.id
      else if vecClass.contains r.op then vecGo s r.id
      else replicaGo s r.id

def execScatterContextGrant (s : State) : Host.Outcome State Fault Refusal :=
  if serves s then .next (scatterGrant s) else .next s

end Sys2Proof.Machine
end

