-- ==== Sys2Proof/Machine/Guest.lean ====
section
/-! DEFINITION. Partitions at work: their start, stop and restart (R300 to R305, R317), and what their cores do: accesses to the guest
physical map, traps, SBI calls, stores of arm words and reply words (R298, R301, R306, R314, R316). -/

namespace Sys2Proof.Machine

open Sys2Proof

/-! ## The image header (Table 11-3) -/

def siCores (v : Bytes) : Nat := bfld v 6 1 5 0
def siRestarts (v : Bytes) : Nat := bfld v 7 1 3 0
def siMib (v : Bytes) : Nat := fld v 8 4
def siSlots (v : Bytes) : Nat := bfld v 0xC 2 10 0
def siRing (v : Bytes) : Nat := bfld v 0xE 2 10 0
def siEntry (v : Bytes) : Nat := fld v 0x10 8
def siLen (v : Bytes) : Nat := fld v 0x18 4
def siStage (v : Bytes) : Nat := fld v 0x1C 4

/-! ## Start -/

/-- Cores that no partition has. -/
def freeCores (s : State) : List Nat :=
  (List.range 32).filter fun c => !(s.serv.parts.any fun p => p.cores.any fun x => x.num == c)

/-- Choose `n` of the free cores (log entry 6). -/
def takeCores : Nat → State → List Nat → Option (List Nat × State)
  | 0, s, acc => some (sortBy (fun a b => decide (a < b)) acc, s)
  | n + 1, s, acc =>
    match pickOf s ((freeCores s).filter fun c => !acc.contains c) with
    | some (c, s) => takeCores n s (c :: acc)
    | none => none

/-- Cores at the start: the lowest-numbered one begins at ENTRY in VS-mode, the others wait for HSM (R305). -/
def startCores (cs : List Nat) (entry p : Nat) : List CoreSt :=
  cs.mapIdx fun i c => if i = 0 then { num := c, on := true, pc := entry, a0 := p, a1 := infoPage } else { num := c }

/-- Start a partition from an image, its private memory zero but for the payload (R300, R302, R305): none where cores, T1 quota, slots or leases are too few. -/
def startPartition (s : State) (o : Obj) (pid : Option Nat) (restarts : List Nat) : Option (Partition × State) :=
  let v := o.bytes
  let at_ := match pid with
    | some p => some (p, s)
    | none => pickRun s 0 32 1 (s.serv.parts.map fun p => (p.id, 1))
  match at_ with
  | none => none
  | some (p, s) => match takeCores (siCores v) s [] with
    | none => none
    | some (cs, s) => match allotLease s o.tenant 0 (siSlots v) 0 (siStage v) (some p) with
      | none => none
      | some (l, s) => match allocatePool s o.tenant (256 * siMib v) 2 .service l.id with
        | none => none
        | some s =>
          let info := u32 o.tenant ++ u32 p ++ u32 l.id ++ u32 s.pw.node ++ u32 (siSlots v) ++ u32 (siRing v)
          let k : Partition := { id := p, tenant := o.tenant, image := o.id, cores := startCores cs (siEntry v) p, memMib := siMib v,
                                 nslots := siSlots v, entries := siRing v, stageMib := siStage v, lease := l.id,
                                 restartMax := siRestarts v, restarts := restarts, mem := memWrite [] infoPage info }
          let s := poolWrite s (privatePool s k) 0 ((v.drop 128).take (siLen v)) 6
          some (k, { s with serv.parts := s.serv.parts ++ [k] })

/-- A service image of the tenant. -/
def imageOf (s : State) (t id : Nat) : Option Obj :=
  s.sq.objs.find? fun o => o.kind == .image && o.id == id && o.tenant == t && !o.gone

/-! ## Stop (R317) -/

/-- Steps 1 to 5 of R317: cores halt, the service lease is fenced, its SCOREs complete INTERNAL, private memory goes back. -/
def haltPartition (s : State) (k : Partition) : State :=
  let s := endLease s k.lease 5
  let ids := (s.eng.reqs.filter fun r => r.op == 0x31 && scService r.body == k.id && (r.phase == .ring || r.phase == .running)).map Rq.id
  let s := ids.foldl (fun s id => scoreStop s id stINTERNAL) s
  let s := freeOwned s .service k.tenant k.lease
  let own := fun (x : SlotSt) => match x.id with | .int l _ => l == k.lease | .net _ => false
  { s with serv.parts := s.serv.parts.filter fun p => p.id != k.id, nuc.slots := s.nuc.slots.filter fun x => !own x }

/-- PARTITION_STOP (Table 14-15). -/
def stopEvent (s : State) (k : Partition) (again : Bool) : State := raise s 6 (u8 k.id ++ u8 k.tenant ++ u8 (if again then 1 else 0))

/-- A stop that SERVICE_STOP or TENANT_DESTROY ordered. -/
def stopPartition (s : State) (p : Nat) : State :=
  match partOf s p with
  | none => s
  | some k => stopEvent (haltPartition s k) k false

/-- A stop from within the partition: it restarts while fewer than RESTART_MAX restarts lie in the last 3,600 s. -/
def partitionStops (s : State) (p : Nat) : State :=
  match partOf s p with
  | none => s
  | some k =>
    let s := haltPartition s k
    let past := k.restarts.filter fun t => decide (s.now < t + 3600 * 10 ^ 9)
    if decide (past.length < k.restartMax) then
      match imageOf s k.tenant k.image with
      | none => stopEvent s k false
      | some o => match startPartition s o (some k.id) (past ++ [s.now]) with
        | some (_, s) => stopEvent s k true
        | none => stopEvent s k false
    else stopEvent s k false

/-! ## Accesses (R301, R316) -/

inductive GuestAcc where
  | fetch | load | store
  deriving DecidableEq, Repr

/-- The access lies in Table 11-2 and keeps its access type. -/
def guestMap (k : Partition) (x : GuestAcc) (addr n : Nat) : Bool :=
  let inside := fun (a len : Nat) => decide (a ≤ addr ∧ addr + n ≤ a + len)
  inside privateBase (k.memMib * 2 ^ 20) ||
  (x != .fetch && (inside stageGuest (k.stageMib * 2 ^ 20) || inside (ringAddr 0) (4096 * k.entries) || inside (guestSlot 0) (4096 * k.nslots))) ||
  (x == .load && inside infoPage 4096)

/-- A store that touches an arm word or a reply word and is not one naturally aligned 8-byte store of it (R306, Table 11-6). -/
def narrowStore (addr n : Nat) : Bool :=
  decide (ringAddr 0 ≤ addr ∧ addr < privateBase ∧ addr % 4096 + n > 0xFF8) && !(addr % 4096 == 0xFF8 && n == 8)

/-- The 64-byte lines of a range. -/
def linesOf (addr n : Nat) : List Nat := (List.range (ceilDiv (addr % 64 + n) 64)).map (addr / 64 + ·)

def mapCore (s : State) (p core : Nat) (f : CoreSt → CoreSt) : State :=
  mapPart s p fun k => { k with cores := mapIf (fun c => c.num == core) f k.cores }

/-- A trap, taken in VS-mode; true where the trap handler itself faults while SIE is 0, which stops the partition (R316, R317). -/
def guestTrap (s : State) (p core cause : Nat) : State × Bool :=
  match (partOf s p).bind fun k => k.cores.find? fun c => c.num == core with
  | none => (s, false)
  | some c =>
    if c.trap && !c.sie then (s, true)
    else (mapCore s p core fun c => { c with scause := some cause, trap := true, spie := c.sie, sie := false, user := false }, false)

/-- Bank, frame and error source of a guest byte in T1: private memory is SEALED, staging OPEN. -/
def guestFrame (s : State) (k : Partition) (addr : Nat) : Option (Nat × Nat × Nat) :=
  if addr ≥ stageGuest then (poolFrame (stagePool s k.lease) ((addr - stageGuest) / 4096)).map fun p => (p.1.bank, p.2, 1)
  else if addr ≥ privateBase then (poolFrame (privatePool s k) ((addr - privateBase) / 4096)).map fun p => (p.1.bank, p.2, 2)
  else none

/-- An uncorrectable word met by a core: its error record; a word rewritten from a clean copy is repaired, otherwise the lines are
poisoned (R316). -/
def guestBad (s : State) (k : Partition) (x : GuestAcc) (addr n : Nat) (clean : Bool) : State :=
  let req := if x == .fetch then 4 else 5
  let s := match guestFrame s k addr with
    | some (b, f, src) => uncorrectable s b f src req (some k.tenant) clean false 0 0 0 0
    | none =>
      -- the SRAM word index is free (log entry 123)
      let (w, s) := s.word
      logErr s { recno := 0, time := 0, cls := 1, source := 5, requester := req, loctype := 2, tenant := some k.tenant,
                 repaired := clean, loc := w }
  if clean then s else mapPart s k.id fun k => { k with poison := distinct (k.poison ++ linesOf addr n) }

/-- A frame of private memory that the decoder cannot read is written back as it stands, every line of it poisoned. -/
def guestHeal (s : State) (k : Partition) (addr n : Nat) : State :=
  (frameSegs (addr - privateBase) n).foldl (fun s g => match poolFrame (privatePool s k) g.1 with
    | some (r, f) => match readRun s r.bank f 1 cleanFrame 5 with
      | (some _, s) => s
      | (none, s) =>
        mapPart (writeFrame s r.bank f (t1Read s r.bank (f * 4096) 4096)) k.id fun k =>
          { k with poison := distinct (k.poison ++ linesOf (privateBase + 4096 * g.1) 4096) }
    | none => s) s

/-- An access to private memory or staging with its frames looked at first. -/
def guestLook (s : State) (k : Partition) (addr n : Nat) : State :=
  if privateBase ≤ addr && addr < stageGuest then guestHeal s k addr n else s

/-- The access meets a poisoned line, or an uncorrectable word of the staging window. -/
def guestPoisoned (s : State) (k : Partition) (addr n : Nat) : Bool :=
  (linesOf addr n).any (((guestOf s k.lease).map Partition.poison).getD []).contains ||
  (decide (stageGuest ≤ addr) && stageBad s k.lease (addr - stageGuest) n)

/-- One access: its fault, the trap of an uncorrectable word, or its effect `go` (Table 11-6). A store of whole lines meets no word and ends
their poison. -/
def guestAccess (s : State) (k : Partition) (core : Nat) (x : GuestAcc) (addr n : Nat) (w : GuestWord) (go : State → State) :
    State × Bool :=
  let cause := match x with | .fetch => 1 | .load => 5 | .store => 7
  if !guestMap k x addr n || (x == .store && narrowStore addr n) then guestTrap s k.id core cause
  else
    let s := guestLook s k addr n
    if x == .store && addr % 64 = 0 && n % 64 = 0 then
      (go (mapPart s k.id fun k => { k with poison := k.poison.filter fun l => !(linesOf addr n).contains l }), false)
    else if guestPoisoned s k addr n then guestTrap (guestBad s k x addr n false) k.id core cause
    else if w != .good then guestTrap (guestBad s k x addr n (w == .clean)) k.id core cause
    else (go s, false)

/-- The effect of a store: an arm word arms (R306), a reply word answers (R314), any other store writes guest memory. -/
def guestStore (s : State) (k : Partition) (addr : Nat) (v : Bytes) : State :=
  if ringAddr 0 ≤ addr && addr < privateBase && addr % 4096 = 0xFF8 then
    if addr < guestSlot 0 then scoreReply s k.id ((addr - ringAddr 0) / 4096) (leNat v)
    else migAll (armInternal s k.id ((addr - guestSlot 0) / 4096) (leNat v))
  else guestWrite s k addr v

/-- One action of a started core of the partition; true where the partition stops by it. -/
def guestAct (s : State) (p : Nat) (a : GuestOp) : State × Bool :=
  match partOf s p with
  | none => (s, false)
  | some k =>
    let on := fun (c : Nat) (r : State × Bool) => if k.cores.any fun x => x.num == c && x.on then r else (s, false)
    match a with
    | .fetch c addr w => on c (guestAccess s k c .fetch addr 2 w id)
    | .load c addr n w => on c (guestAccess s k c .load addr n w id)
    | .store c addr v w => on c (guestAccess s k c .store addr v.length w fun s => guestStore s k addr v)
    | .setTimer c t => on c (mapCore s p c fun x => { x with timerAt := some t, timerInt := false }, false)
    | .start c t pc arg => on c (mapCore s p t fun x => if x.on then x else { num := x.num, on := true, pc := pc, a0 := t, a1 := arg }, false)
    | .halt c => on c (mapCore s p c fun x => { x with on := false }, false)
    | .ipi c t => on c (mapCore s p t fun x => { x with softInt := true }, false)
    | .claim c => on c (mapCore s p c fun x => { x with extInt := false }, false)
    | .ack c => on c (mapCore s p c fun x => { x with softInt := false }, false)
    | .setSie c b => on c (mapCore s p c fun x => { x with sie := b }, false)
    | .sret c u => on c (mapCore s p c fun x => { x with sie := x.spie, trap := false, user := u }, false)

/-- The actions of a partition before a row's own effect; where one of them stops it, it stops there. -/
def guestRun (p : Nat) : List GuestOp → State → State × Bool
  | [], s => (s, false)
  | a :: as, s => match guestAct s p a with
    | (s, true) => (partitionStops s p, true)
    | (s, false) => guestRun p as s

/-! ## Rows -/

/-- SCORE_REPLY (R314): the reply bytes are among the stores that come before the reply word. -/
def execScoreReply (p entry : Nat) (w : ReplyStore) (s : State) : Host.Outcome State Fault Refusal :=
  if !serves s then .next s
  else match guestRun p w.acts s with
    | (s, true) => .next (saveCfg s)
    | (s, false) => .next (scoreReply s p entry w.word.toNat)

/-- PARTITION_STOP (R317): one of the actions stops the partition, or the SBI system reset that follows them. -/
def execPartitionStop (p : PartEvent) (s : State) : Host.Outcome State Fault Refusal :=
  if !serves s then .next s
  else match guestRun p.part p.acts s with
    | (s, true) => .next (saveCfg s)
    | (s, false) => .next (saveCfg (partitionStops s p.part))

end Sys2Proof.Machine
end

