-- ==== Sys2Proof/Machine/Ingress.lean ====
section
/-! DEFINITION. Received RoCE packets: the checks before RoCE processing, access to the window (R370, R371, R404, R406, R420, R427),
acknowledgements, the answers of Communication Management to the node's own REQs, and the rows that write arm words. -/

namespace Sys2Proof.Machine

open Sys2Proof

/-! ## Before RoCE processing -/

/-- MACsec on a received frame (R474): the state after its counters, and whether the frame is accepted. -/
def secOk (s : State) (t : SecTag) : State × Bool :=
  match macsecOn s, t with
  | false, .none => (s, true)
  | false, .tag _ _ _ _ => ({ s with port.rxUnsupported := (s.port.rxUnsupported + 1) % 2 ^ 64 }, false)
  | true, .none => ({ s with port.unprotected := (s.port.unprotected + 1) % 2 ^ 64 }, false)
  | true, .tag sc an pn ok =>
    let bad : State := { s with port.icvFail := (s.port.icvFail + 1) % 2 ^ 64 }
    match s.port.rxScs.find? fun x => x.id == sc with
    | none => (bad, false)
    | some x => match x.sas.find? fun a => a.an == an with
      | none => (bad, false)
      | some a =>
        let lowest := a.pn - a.window
        if pn < lowest then ({ s with port.replay := (s.port.replay + 1) % 2 ^ 64 }, false)
        else if !ok then (bad, false)
        else
          let a' := { a with pn := max a.pn (pn + 1) }
          let put := fun (y : RxSc) => { y with sas := mapIf (fun z => z.an == an) (fun _ => a') y.sas }
          ({ s with port.rxScs := mapIf (fun y => y.id == sc) put s.port.rxScs }, true)

/-- The policer of a scope and id. -/
def policerOf (s : State) (scope id : Nat) : Option Policer := s.port.policers.find? fun p => p.scope == scope && p.id == id

/-- Charge a packet to its lease's and tenant's policers (R468); the state after it, and whether it passes. -/
def police (s : State) (rkey : Option Nat) (qp count : Nat) : State × Bool :=
  if !s.port.policeOn then (s, true)
  else
    let lease := match rkey with
      | some k => match s.own.leases.find? fun l => l.rkey == k with | some l => policerOf s 1 l.id | none => none
      | none => none
    let tenant := match qpOf s qp with
      | some q => match liveRole s q with
        | some (.tenant t) => policerOf s 2 t
        | _ => none
      | none => none
    let ps := ([lease, tenant].filterMap id).map fun p =>
      { p with credit := bucketAt p.rate p.burst p.credit p.creditAt s.now, creditAt := s.now }
    match ps.find? fun p => decide (p.credit ≤ 0) with
    | some p =>
      let n := ((s.port.policeDrops.find? fun d => d.1 == p.index).map Prod.snd).getD 0
      ({ s with port.policeDrops := putBy (fun d => d.1 == p.index) (p.index, (n + 1) % 2 ^ 64) s.port.policeDrops }, false)
    | none =>
      let charge := fun (s : State) (p : Policer) =>
        let p' : Policer := { p with credit := p.credit - (count : Rat) }
        { s with port.policers := mapIf (fun (x : Policer) => x.index == p.index) (fun _ => p') s.port.policers }
      (ps.foldl charge s, true)

/-- A packet marked CE makes the node send a CNP, at most one in CNP_GAP_US for a QP (R456). -/
def congestion (s : State) (q : Qp) (ce : Bool) : State :=
  match s.port.cfg with
  | none => s
  | some c =>
    let due := match q.cnpAt with | some t => decide (t + 1000 * c.cnpGap ≤ s.now) | none => true
    if ce && due then
      let s := mapQp s q.num fun q => { q with cnpAt := some s.now }
      let s := { s with port.cnpSent := (s.port.cnpSent + 1) % 2 ^ 64 }
      toQueue s c.cnpPcp { kind := .cnp q.num, count := roceCount s (v4Peer q) 16 0, dscp := c.cnpDscp }
    else s

/-- A received request packet reaches its QP (R444, R454, R456, R468, R474): `k` acts on it when it is the next in PSN order, `dup` when
it has been executed before. A gap is answered with one NAK for a sequence error. -/
def receive (s : State) (x : Rx) (rkey : Option Nat) (k : State → Qp → State) (dup : State → Qp → State) : State :=
  if !serves s || !s.port.link then s
  else match secOk s x.sec with
    | (s, false) => s
    | (s, true) =>
      if !x.supported then { s with port.rxUnsupported := (s.port.rxUnsupported + 1) % 2 ^ 64 }
      else match police s rkey x.qp x.count with
        | (s, false) => s
        | (s, true) =>
          if !x.icrcOk then { s with port.icrcErrors := (s.port.icrcErrors + 1) % 2 ^ 64 }
          else match qpOf s x.qp with
            | none => s
            | some q =>
              if q.state != .connected then s
              else
                let s := congestion s q x.ce
                if x.psn = q.rxPsn then k (mapQp s q.num fun q => { q with nakSent := false }) q
                else if psnLe (x.psn + 1) q.rxPsn then dup s q
                else if q.nakSent then s
                else mapQp (post s q 4 0 (.nak q.num q.rxPsn .sequence)) q.num fun q => { q with nakSent := true }

/-- The QP's next expected PSN moves on by `n` packets. -/
def advance (s : State) (q n : Nat) : State := mapQp s q fun q => { q with rxPsn := (q.rxPsn + n) % 2 ^ 24 }

/-! ## The window (Table 14-1) -/

/-- One instance of a row of Table 14-1 with the offset into it; `cells` and `leases` carry an index. -/
inductive WindowPart where
  | identity (off : Nat)
  | mbox (b : Box) (off : Nat)
  | lease (id off : Nat)
  | cell (i off : Nat)
  | record (r off : Nat)
  | slot (n off : Nat)
  | stage (l off : Nat)
  deriving DecidableEq, Repr

/-- The instance that an address range of `n` bytes lies in, for an access on a QP under an rkey. -/
def regionOf (s : State) (qp addr n rkey : Nat) : Option WindowPart :=
  let fits := fun (base size : Nat) => decide (addr + n ≤ base + size)
  if addr < 0x1000 then (if fits 0 0x1000 then some (.identity addr) else none)
  else if 0x10000 ≤ addr && addr < 0x110000 then
    let m := (addr - 0x10000) / 0x4000
    if fits (0x10000 + m * 0x4000) 0x4000 then some (.mbox (.control m) (addr - 0x10000 - m * 0x4000)) else none
  else if 0x110000 ≤ addr && addr < 0x112000 then
    if fits 0x110000 0x2000 then some (.mbox (.session qp) (addr - 0x110000)) else none
  else if 0x200000 ≤ addr && addr < 0x240000 then
    let i := (addr - 0x200000) / 64
    if fits (0x200000 + 64 * i) 64 then some (.lease i (addr - 0x200000 - 64 * i)) else none
  else if 0x400000 ≤ addr && addr < 0x480000 then
    let i := (addr - 0x400000) / 8
    if fits (0x400000 + 8 * i) 8 then some (.cell i (addr - 0x400000 - 8 * i)) else none
  else if 0x500000 ≤ addr && addr < 0x510000 then
    let i := (addr - 0x500000) / 32
    if fits (0x500000 + 32 * i) 32 then some (.record i (addr - 0x500000 - 32 * i)) else none
  else if 0x10000000 ≤ addr && addr < 0x20000000 then
    let i := (addr - 0x10000000) / 0x1000
    if fits (slotAddr i) 0x1000 then some (.slot i (addr - slotAddr i)) else none
  else if 0x40000000 ≤ addr then
    match s.own.leases.find? fun l => l.rkey == rkey with
    | some l => if fits 0x40000000 (l.stageMib * 2 ^ 20) then some (.stage l.id (addr - 0x40000000)) else none
    | none => none
  else none

def qpRole (s : State) (qp : Nat) : Option Role :=
  match qpOf s qp with | some q => liveRole s q | none => none

/-- An rkey of a live lease that the QP may use (R372). -/
def leaseKey (s : State) (qp rkey id : Nat) : Bool :=
  match leaseOf s id with
  | some l => leaseLive s l && l.service.isNone && l.rkey == rkey && qpRole s qp == some (.tenant l.tenant)
  | none => false

/-- The lease that holds a sync cell below 0xFFC0. -/
def cellLease (s : State) (i : Nat) : Option Nat :=
  if i < 0xFFC0 then (s.own.leases.find? fun l => decide (l.cellFirst ≤ i ∧ i < l.cellFirst + l.cells)).map Lease.id else none

/-- The return rkey of a QP reaches its records and its cell (R406). -/
def retOk (s : State) (qp rkey : Nat) (p : Nat → Nat → Bool) : Bool :=
  match (qpOf s qp).bind Qp.ret with
  | some (k, r, c) => k == rkey && p r c
  | none => false

/-- A control mailbox's rkey on the QP attached to it. -/
def ctlKey (s : State) (qp rkey m : Nat) : Bool := let c := ctlOf s m; c.qp == some qp && c.rkey == rkey

/-- A session that may read a lease's cell (R420). -/
def cellReader (s : State) (qp i : Nat) : Bool :=
  match qpRole s qp with
  | some .owner => true
  | some (.tenant t) => match leaseOf s i with | some l => l.tenant == t | none => false
  | none => false

/-- A range that one READ may cover (R371). -/
def readOk (s : State) (qp addr n rkey : Nat) : Bool :=
  match regionOf s qp addr n rkey with
  | some (.identity _) => rkey == 0
  | some (.mbox (.session _) _) => rkey == 0
  | some (.mbox (.control m) _) => ctlKey s qp rkey m
  | some (.mbox .sideband _) => false
  | some (.lease i _) => rkey == 0 && cellReader s qp i
  | some (.cell i _) => match cellLease s i with | some l => leaseKey s qp rkey l | none => false
  | some (.record _ _) => false
  | some (.slot i _) => match slotLease s i with | some l => leaseKey s qp rkey l.id | none => false
  | some (.stage l _) => leaseKey s qp rkey l
  | none =>
    -- the two runs that a READ may cover
    if 0x400000 ≤ addr && addr + n ≤ 0x47FE00 && addr % 8 == 0 && n % 8 == 0 && n != 0 then
      match cellLease s ((addr - 0x400000) / 8) with
      | some l => leaseKey s qp rkey l && cellLease s ((addr + n - 8 - 0x400000) / 8) == some l
      | none => false
    else if 0x200000 ≤ addr && addr + n ≤ 0x240000 && n != 0 && rkey == 0 then
      (List.range ((addr + n - 1 - 0x200000) / 64 + 1 - (addr - 0x200000) / 64)).all fun k =>
        cellReader s qp ((addr - 0x200000) / 64 + k)
    else false

/-- A range that a WRITE may cover. -/
def writeOk (s : State) (qp addr n rkey : Nat) : Bool :=
  match regionOf s qp addr n rkey with
  | some (.mbox (.session _) _) => rkey == 0
  | some (.mbox (.control m) _) => ctlKey s qp rkey m
  | some (.cell i off) => off == 0 && n == 8 && (match cellLease s i with | some l => leaseKey s qp rkey l | none => false)
  | some (.record r _) => retOk s qp rkey fun r0 _ => decide (r0 ≤ r ∧ r < r0 + retRecords)
  | some (.slot i _) => match slotLease s i with | some l => leaseKey s qp rkey l.id | none => false
  | some (.stage l _) => leaseKey s qp rkey l
  | _ => false

/-- Bytes of the window as an access on a QP reads them. -/
def windowRead (s : State) (qp addr n rkey : Nat) : Bytes :=
  match regionOf s qp addr n rkey with
  | some (.identity off) => cut (identityBlock s) off n
  | some (.mbox b off) => match boxAny s b with | some m => memRead m.mem off n | none => zeros n
  | some (.stage l off) => stageRead s l off n
  | some (.slot _ _) => memRead s.nuc.win addr n
  | some (.cell _ _) => memRead s.nuc.win addr n
  | some (.lease i off) => cut (leaseCell s i) off n
  | some (.record _ _) => memRead s.nuc.win addr n
  | none =>
    if addr < 0x240000 then
      let i := (addr - 0x200000) / 64
      cut ((List.range (n / 64 + 2)).flatMap fun k => leaseCell s (i + k)) (addr - 0x200000 - 64 * i) n
    else memRead s.nuc.win addr n

/-- Place bytes of a WRITE in the region of the message's range. -/
def windowWrite (s : State) (r : WindowPart) (at_ : Nat) (v : Bytes) : State :=
  match r with
  | .mbox b off => match boxAny s b with
    | some m => boxPut s b { m with mem := memWrite m.mem (off + at_) v }
    | none => s
  | .cell i _ => { s with nuc.win := memWrite s.nuc.win (cellAddr i + at_) v }
  | .record i off => { s with nuc.win := memWrite s.nuc.win (0x500000 + 32 * i + off + at_) v }
  | .slot i off => { s with nuc.win := memWrite s.nuc.win (slotAddr i + off + at_) v }
  | .stage l off => stageWrite s l (off + at_) v
  | _ => s

/-- A completion record that a peer has written (R336). -/
def recordCame (s : State) (qp r : Nat) : State :=
  match (qpOf s qp).bind Qp.ret with
  | none => s
  | some (_, r0, _) =>
    let b := memRead s.nuc.win (0x500000 + 32 * r) 32
    let upd := fun (u : Put) => { u with status := some (fld b 0 1) }
    settlePuts { s with fl.puts := mapIf (fun (u : Put) => u.qp == qp && u.slot == r - r0 && u.seq == fld b 2 2) upd s.fl.puts }

/-- What a whole WRITE message does once its last byte is placed: a message of exactly 8 bytes on a command word or arm word, a
change of a sync cell, a record. -/
def messageDone (s : State) (qp : Nat) (r : WindowPart) (n : Nat) (ue : Bool := false) : State :=
  match r with
  | .mbox b off =>
    if n = 8 && off = boxHalf b - 8 then
      match boxAny s b with | some m => boxWord s b (leNat (memRead m.mem off 8)) | none => s
    else s
  | .slot i off =>
    if n = 8 && off = 0xFF8 then
      match slotLease s i with
      | some l => migAll (armWord s (.net i) l qp (leNat (memRead s.nuc.win (slotAddr i + 0xFF8) 8)) ue)
      | none => s
    else s
  | .cell i _ => wake s i
  | .record i _ => recordCame s qp i
  | _ => s

/-! ## RDMA rows -/

/-- One packet of a WRITE message in PSN order (R371, R451, R454). -/
def writePacket (m : WriteMsg) (psn : Nat) (s : State) (q : Qp) : State :=
  if m.imm then nakError s q psn .invalidRequest
  else if !writeOk s q.num m.addr m.len m.rkey then nakError s q psn .remoteAccess
  else match regionOf s q.num m.addr m.len m.rkey with
    | none => s
    | some r =>
      let placed := match q.placing with
        | some (a, k, l, n) => if m.off = 0 then 0 else if a = m.addr && k = m.rkey && l = m.len then n else 2 ^ 64
        | none => 0
      if placed ≠ m.off || m.off + m.data.length > m.len then nakError s q psn .invalidRequest
      else
        let s := advance (windowWrite s r m.off m.data) q.num 1
        let n := m.off + m.data.length
        let s := postAck s q psn
        if n = m.len then messageDone (mapQp s q.num fun q => { q with placing := none }) q.num r m.len m.ue
        else mapQp s q.num fun q => { q with placing := some (m.addr, m.rkey, m.len, n) }

/-- RDMA_WRITE (R371, R454): a duplicate is acknowledged again. -/
def execRdmaWrite (x : Rx) (m : WriteMsg) (s : State) : Host.Outcome State Fault Refusal :=
  .next (receive s x (some m.rkey) (writePacket m x.psn) (fun s q => postAck s q ((q.rxPsn + 2 ^ 24 - 1) % 2 ^ 24)))

/-- Packets of a READ response. -/
def readPackets (q : Qp) (n : Nat) : Nat := max 1 (ceilDiv n (mtuBytes q.mtu))

/-- Send a READ response (R457). -/
def readReply (s : State) (q : Qp) (psn addr n rkey : Nat) : State :=
  let d := windowRead s q.num addr n rkey
  (List.range (readPackets q n)).foldl (fun s i =>
    let part := (d.drop (i * mtuBytes q.mtu)).take (mtuBytes q.mtu)
    post s q (if i = 0 || i + 1 = readPackets q n then 4 else 0) part.length (.readResponse q.num ((psn + i) % 2 ^ 24) part)) s

/-- A READ of a staging window that meets an uncorrectable word: the state with its error record (R522, Table 18-3). -/
def readBad (s : State) (q : Qp) (addr n rkey : Nat) : Option State :=
  match regionOf s q.num addr n rkey with
  | some (.stage l off) =>
    if !stageBad s l off n then none
    else
      let t := (leaseOf s l).map Lease.tenant
      (frameSegs off n).findSome? fun g => match poolFrame (stagePool s l) g.1 with
        | some (r, f) =>
          if ueIn s r.bank (f * 4096 + g.2.1) g.2.2 then some (uncorrectable s r.bank f 1 3 t false false 0 0 0 l) else none
        | none => none
  | _ => none

/-- RDMA_READ (R371); `bad` marks a packet whose operation Table 16-3 does not allow. -/
def execRdmaRead (x : Rx) (addr rkey len : Nat) (bad : Bool) (s : State) : Host.Outcome State Fault Refusal :=
  let go := fun (s : State) (q : Qp) =>
    if bad then nakError s q x.psn .invalidRequest
    else if !readOk s q.num addr len rkey then nakError s q x.psn .remoteAccess
    else match readBad s q addr len rkey with
      | some s => nakError s q x.psn .remoteAccess
      | none => readReply (advance s q.num (readPackets q len)) q x.psn addr len rkey
  let again := fun (s : State) (q : Qp) =>
    if bad then s
    else if !readOk s q.num addr len rkey then nakError s q x.psn .remoteAccess
    else match readBad s q addr len rkey with
      | some s => nakError s q x.psn .remoteAccess
      | none => readReply s q x.psn addr len rkey
  .next (receive s x (some rkey) go again)

/-- The answer to an atomic, remembered for duplicates (R455). -/
def atomicReply (s : State) (q : Qp) (psn old : Nat) : State :=
  mapQp (post s q 12 0 (.atomicResponse q.num psn old)) q.num fun q => { q with atomics := (q.atomics ++ [(psn, old)]).drop (q.atomics.length + 1 - 64) }

def atomicAgain (psn : Nat) (s : State) (q : Qp) : State :=
  match q.atomics.find? fun p => p.1 == psn with
  | some p => post s q 12 0 (.atomicResponse q.num psn p.2)
  | none => s

/-- An aligned 8-byte atomic on a sync cell that a lease rkey reaches. -/
def cellAtomic (s : State) (q : Qp) (addr rkey psn : Nat) (f : Nat → Nat) : State :=
  match regionOf s q.num addr 8 rkey with
  | some (.cell i 0) => match cellLease s i with
    | some l =>
      if leaseKey s q.num rkey l then
        let old := cellRead s i
        wake (atomicReply (advance (cellWrite s i (f old % 2 ^ 64)) q.num 1) q psn old) i
      else nakError s q psn .remoteAccess
    | none => nakError s q psn .remoteAccess
  | _ => nakError s q psn .remoteAccess

/-- COMPARE_SWAP (R404). -/
def execCompareSwap (x : Rx) (addr rkey : Nat) (old new : W64) (s : State) : Host.Outcome State Fault Refusal :=
  .next (receive s x (some rkey) (fun s q =>
    cellAtomic s q addr rkey x.psn fun v => if v = old.toNat then new.toNat else v) (atomicAgain x.psn))

/-- A renewal request through a lease cell (R420, R427): the old 64 bits are returned. -/
def cellRenew (s : State) (q : Qp) (id rkey psn : Nat) : State :=
  if !leaseKey s q.num rkey id then nakError s q psn .remoteAccess
  else match leaseOf s id with
    | none => s
    | some l =>
      let old := l.applied + l.refused * 2 ^ 32
      let l := if clockOk s then { setTerm s l with applied := (l.applied + 1) % 2 ^ 32 } else { l with refused := (l.refused + 1) % 2 ^ 32 }
      atomicReply (advance (mapLease s id fun _ => l) q.num 1) q psn old

/-- A fetch-add (R404, R406, R420). -/
def fetchAdd (s : State) (q : Qp) (addr rkey psn n : Nat) : State :=
  match regionOf s q.num addr 8 rkey with
  | some (.lease i 0x38) => if n = 1 then cellRenew s q i rkey psn else nakError s q psn .remoteAccess
  | some (.cell i 0) =>
    if 0xFFC0 ≤ i then
      if retOk s q.num rkey fun _ c => c == i then
        let old := cellRead s i
        let s := atomicReply (advance (cellWrite s i ((old + n) % 2 ^ 64)) q.num 1) q psn old
        settlePuts (mapPeer s q.num fun p => { p with incs := p.incs + n })
      else nakError s q psn .remoteAccess
    else cellAtomic s q addr rkey psn fun v => v + n
  | _ => nakError s q psn .remoteAccess

/-- FETCH_ADD (R404). -/
def execFetchAdd (x : Rx) (addr rkey : Nat) (add : W64) (s : State) : Host.Outcome State Fault Refusal :=
  .next (receive s x (some rkey) (fun s q => fetchAdd s q addr rkey x.psn add.toNat) (atomicAgain x.psn))

/-- LEASE_CELL_RENEWAL (R427). -/
def execLeaseCellRenewal (x : Rx) (lease rkey : Nat) (s : State) : Host.Outcome State Fault Refusal :=
  .next (receive s x (some rkey) (fun s q => fetchAdd s q (0x200000 + 64 * lease + 0x38) rkey x.psn 1) (atomicAgain x.psn))

/-! ## Acknowledgements (R401, R455) -/

/-- Messages up to a PSN are acknowledged in order; a completion's cell may wake a merge, and its end may end a writer binding (R180). -/
def ackTo (s : State) (qp psn : Nat) : State :=
  match qpOf s qp with
  | none => s
  | some q =>
    let done := q.unacked.takeWhile fun m => psnLe m.psn psn
    if done.isEmpty then s
    else
      let s := mapQp s qp fun q => { q with unacked := q.unacked.drop done.length, retries := 0 }
      settleBindings <| done.foldl (fun s m => match acked s m with
        | (s, some c) => wake s c
        | (s, none) => s) s

/-- ACK_RECEIVED (R401, R455). -/
def execAckReceived (qpn psn : Nat) (s : State) : Host.Outcome State Fault Refusal :=
  if serves s && s.port.link && connected s qpn then .next (ackTo s qpn psn) else .next s

/-- NAK_RECEIVED (R455): a sequence-error or RNR NAK acknowledges what comes before its PSN and sends the rest again. -/
def execNakReceived (qpn psn : Nat) (kind : NakKind) (s : State) : Host.Outcome State Fault Refusal :=
  if !(serves s && s.port.link && connected s qpn) then .next s
  else
    let s := ackTo s qpn ((psn + 2 ^ 24 - 1) % 2 ^ 24)
    match qpOf s qpn with
    | none => .next s
    | some q =>
      if kind == .sequence || kind == .rnr then .next (retryQp s q)
      else .next (leaveConnected s qpn .error)

/-! ## Answers to the node's own REQs (R378, R452) -/

def dropQp (s : State) (qpn : Nat) : State := { s with nuc.qps := s.nuc.qps.filter fun x => x.num != qpn }

/-- CM_REP: the connection is up; `status` is the peer's answer to OPEN_SESSION. -/
def execCmRep (qpn peerQpn psn status : Nat) (s : State) : Host.Outcome State Fault Refusal :=
  match qpOf s qpn with
  | none => .next s
  | some q =>
    if !serves s || !s.port.link || q.state != .setup || q.use == .host || q.unsent then .next s
    else
      let s := postCm s (.cmRtu peerQpn)
      let up := fun (s : State) => mapQp s qpn fun q => { q with state := .connected, peerQpn := peerQpn, txPsn := psn % 2 ^ 24,
                                                                 cc := { q.cc with alphaAt := s.now, incAt := s.now } }
      let down := fun (s : State) => dropQp (postCm s (.cmDreq peerQpn)) qpn
      match q.use with
      | .host => .next s
      | .peer t na b =>
        if status = stOK then .next (mailReply (peerMail (up s) qpn 0 0x0002 (openBody t na q.sig)) b stOK (u32 qpn))
        else .next (mailReply (down s) b (status % 256) [])
      | .replica t => match s.fl.withdraw.find? (fun w => w.tenant == t), tenantOf s t with
        | some w, _ =>
          if status = stOK then .next (peerMail (up s) qpn 0 0x0002 (openBody t w.until_ w.sig)) else .next (down s)
        | none, some k =>
          if status = stOK then .next (putFlushes (peerUp (up s) qpn t none k.replica k.replicaNotAfter k.replicaSig) t)
          else .next (replicaFail (down s) t k.replica status)
        | none, none => .next (down s)
      | .migration m => match migById s m with
        | some k =>
          if status = stOK then .next (migPump (peerUp (up s) qpn k.tenant (some m) k.peer k.notAfter k.sig) m)
          else .next (replicaFail (down s) k.tenant k.peer status)
        | none => .next (down s)

/-- CM_REJ (R378, R452). -/
def execCmRej (qpn reason : Nat) (s : State) : Host.Outcome State Fault Refusal :=
  match qpOf s qpn with
  | none => .next s
  | some q =>
    if !serves s || !s.port.link || q.state != .setup then .next s
    else
      let st := (Config.rejStatus reason).toNat
      let s := dropQp s qpn
      match q.use with
      | .host => .next s
      | .peer _ _ b => .next (mailReply s b st [])
      | .replica t => match tenantOf s t with
        | some k => .next (replicaFail s t k.replica st)
        | none => .next s
      | .migration m => match migById s m with
        | some k => .next (replicaFail s k.tenant k.peer st)
        | none => .next s

/-! ## The replica session of a tenant (R334, R337, R509) -/

def replicaQp (s : State) (t : Nat) : Option Qp := s.nuc.qps.find? fun q => q.use == .replica t

/-- REPLICA_RETRY (R337): puts past their deadline time out, a session and a lease that failed are established again, and blocks not acknowledged are sent again, at most once in 100 ms. -/
def execReplicaRetry (tenant : Nat) (s : State) : Host.Outcome State Fault Refusal :=
  match tenantOf s tenant with
  | none => .next s
  | some k =>
    if !serves s || k.domain ≠ 1 || k.dying then .next s
    else
      let next := match s.fl.retries.find? fun r => r.tenant == tenant with | some r => r.next | none => 0
      let s := s.at next
      let entry : Retry := ⟨tenant, s.now + 100000000, 0, [], k.replica, []⟩
      let s := { s with fl.retries := (s.fl.retries.filter fun r => r.tenant != tenant) ++ [entry] }
      match replicaQp s tenant with
      | none => .next (if k.replicaNotAfter ≤ s.now then s else connectReplica s k)
      | some q =>
        if q.state == .connected then
          let s := settlePuts (putTimeouts s q.num)
          match peerFor s tenant none with
          | some p =>
            if p.lease.isSome then .next (putFlushes s tenant)
            else .next (if k.replicaNotAfter ≤ s.now then s else putFlushes (peerAgain s p k.replicaNotAfter k.replicaSig) tenant)
          | none => .next s
        else if q.state == .setup then .next s
        else
          let (n, s) := s.draw
          let s := replicaFail (dropPuts (dropQp s q.num) q.num) tenant k.replica (Config.freeByte n).toNat
          .next (if k.replicaNotAfter ≤ s.now then s else connectReplica s k)

/-- REPLICA_LEASE_RENEWAL (R334). -/
def execReplicaLeaseRenewal (tenant : Nat) (s : State) : Host.Outcome State Fault Refusal :=
  match peerFor s tenant none with
  | some p => if serves s then .next (renewPeer s p) else .next s
  | none => .next s

/-- PEER_WITHDRAW_RETRY (R509): the drop command is issued on a connected session, which closes once it has been acknowledged; an
unreachable peer is tried every 100 ms for 600 s, and then REPLICA_FAIL is raised. -/
def execPeerWithdrawRetry (tenant : Nat) (s : State) : Host.Outcome State Fault Refusal :=
  match s.fl.withdraw.find? fun w => w.tenant == tenant with
  | none => .next s
  | some w =>
    if !serves s then .next s
    else
      let s := s.at w.next
      let drop := fun (s : State) => { s with fl.withdraw := s.fl.withdraw.filter fun x => x.tenant != tenant,
                                              fl.peers := s.fl.peers.filter fun p => !(p.tenant == tenant && p.mig.isNone) }
      let later := fun (s : State) =>
        let upd := fun (x : Retry) => { x with next := s.now + 100000000 }
        { s with fl.withdraw := mapIf (fun (x : Retry) => x.tenant == tenant) upd s.fl.withdraw }
      match s.nuc.qps.find? fun q => q.use == .replica tenant && q.state == .connected, peerFor s tenant none with
      | some q, some p =>
        if p.dropped then
          if q.unacked.isEmpty then .next (drop (leaveConnected (postCm s (.cmDreq q.peerQpn)) q.num .closing)) else .next (later s)
        else
          let s := peerCommand s p 0x0117 (u64 (wholeTenant tenant) ++ u16 s.pw.node ++ zeros 6)
          .next (later (mapPeer s p.qp fun x => { x with dropped := true }))
      | some q, none =>
        .next (later { s with fl.peers := s.fl.peers ++ [{ qp := q.num, tenant := tenant, mig := none, node := w.node, mseq := 1 }] })
      | none, _ =>
        if w.until_ ≤ s.now then .next (replicaFail (drop s) tenant w.node stGONE)
        else if (s.nuc.qps.any fun q => q.use == .replica tenant && q.state == .setup) then .next (later s)
        else match openQp (later s) (.replica tenant) (leNat (cut w.addr 0 16)) w.node w.sig with
          | some (_, s) => .next s
          | none => .next (later s)

/-! ## Rows that write arm words (R396, R397, R306) -/

/-- A row's arm word reaches its slot: as an 8-byte WRITE on the QP under the slot's lease, or as a partition's store. -/
def armRow (op : Nat) (cancel : Bool) (a : Arm) (s : State) : State :=
  if !serves s then s
  else match a.via with
    | .part p acts => match guestRun p acts s with
      | (s, true) => saveCfg s
      | (s, false) => migAll (armInternal s p a.slot (wordOf op cancel a) a.ue)
    | .qp n => match qpOf s n with
      | none => s
      | some q =>
        if !s.port.link || q.state != .connected then s
        else
          let rkey := match slotLease s a.slot with | some l => l.rkey | none => 0
          match police s (some rkey) n (roceCount s (v4Peer q) 16 8) with
          | (s, false) => s
          | (s, true) => writePacket ⟨slotAddr a.slot + 0xFF8, rkey, 8, 0, u64 (wordOf op cancel a), false, a.ue⟩ q.rxPsn s q

/-- ATTEND (R147). -/
def execAttend (a : Arm) (s : State) : Host.Outcome State Fault Refusal := .next (armRow 0x01 false a s)
/-- ATTEND_SELECT (R219). -/
def execAttendSelect (a : Arm) (s : State) : Host.Outcome State Fault Refusal := .next (armRow 0x02 false a s)
/-- MERGE_FORWARD (R173). -/
def execMergeForward (a : Arm) (s : State) : Host.Outcome State Fault Refusal := .next (armRow 0x03 false a s)
/-- APPEND_SCATTER (R187). -/
def execAppendScatter (a : Arm) (s : State) : Host.Outcome State Fault Refusal := .next (armRow 0x10 false a s)
/-- COMMIT (R195). -/
def execCommit (a : Arm) (s : State) : Host.Outcome State Fault Refusal := .next (armRow 0x11 false a s)
/-- TRUNCATE (R198). -/
def execTruncate (a : Arm) (s : State) : Host.Outcome State Fault Refusal := .next (armRow 0x12 false a s)
/-- SEARCH (R240). -/
def execSearch (a : Arm) (s : State) : Host.Outcome State Fault Refusal := .next (armRow 0x20 false a s)
/-- INSERT_VECTORS (R246). -/
def execInsertVectors (a : Arm) (s : State) : Host.Outcome State Fault Refusal := .next (armRow 0x21 false a s)
/-- DELETE_VECTORS (R246). -/
def execDeleteVectors (a : Arm) (s : State) : Host.Outcome State Fault Refusal := .next (armRow 0x22 false a s)
/-- RUN_LAYERS (R291). -/
def execRunLayers (a : Arm) (s : State) : Host.Outcome State Fault Refusal := .next (armRow 0x30 false a s)
/-- SCORE (R311). -/
def execScore (a : Arm) (s : State) : Host.Outcome State Fault Refusal := .next (armRow 0x31 false a s)
/-- REPLICA_PUT (R336). -/
def execReplicaPut (a : Arm) (s : State) : Host.Outcome State Fault Refusal := .next (armRow 0x40 false a s)
/-- CANCEL (R398, R409). -/
def execCancel (a : Arm) (s : State) : Host.Outcome State Fault Refusal := .next (armRow 0 true a s)

end Sys2Proof.Machine
end

