-- ==== Sys2Proof/Machine/Objects.lean ====
section
/-! DEFINITION. Commands on sequences, collections and loaded objects (R384 to R392, R325, R326, R283 to R287, R303, R304, R350 to
R352). -/

namespace Sys2Proof.Machine

open Sys2Proof

/-! ## Sequences -/

/-- A sequence of the tenant by handle, incoming and stubbed ones too. -/
def tenantSeq (s : State) (t h : Nat) : Option Seq :=
  match seqOf s h with
  | some q => if q.tenant = t then some q else none
  | none => none

/-- Handle that a deleted sequence goes by once its own is created anew; no handle of R7 is so large. -/
def oldHandle (q : Seq) : Nat := q.handle + 2 ^ 72 + q.als * 2 ^ 80

/-- The requests armed on a deleted sequence keep it when its handle is created again (R386). -/
def renameGone (s : State) (h : Nat) : State :=
  match s.sq.seqs.find? fun q => q.handle == h && q.gone with
  | none => s
  | some q =>
    let s := mapSeq s q.als fun q => { q with handle := oldHandle q }
    let upd := fun (r : Rq) => if r.handle == h && r.op != 0x30 then { r with handle := oldHandle q } else r
    { s with eng.reqs := s.eng.reqs.map upd }

/-- Length of a SEQ_CREATE body (Table 14-5). -/
def scNeed (b : Bytes) : Nat := 0x40 + 2 * bfld b 8 2 8 0

/-- The sequence that a SEQ_CREATE body describes. -/
def seqOfBody (b : Bytes) (t als : Nat) (k : Option Tenant) : Seq :=
  { handle := fld b 0 8, tenant := t, als := als, layers := bfld b 8 2 8 0, kvh := bfld b 0xA 1 6 0, dim := bfld b 0xB 1 1 0,
    fmt := bfld b 0xB 1 3 2, posOff := fld b 0xC 4, seed := fld b 0x10 8, rope := fld b 0x18 4,
    ctables := (List.range (bfld b 8 2 8 0)).map fun l => fld b (0x40 + 2 * l) 2,
    bound := (k.map Tenant.bound).getD 4, domain := (k.map Tenant.domain).getD 0 }

/-- Every attribute of Table 14-5 is equal. -/
def sameSeq (x y : Seq) : Bool :=
  x.layers == y.layers && x.kvh == y.kvh && x.dim == y.dim && x.fmt == y.fmt && x.posOff == y.posOff && x.seed == y.seed &&
  x.rope == y.rope && x.ctables == y.ctables

/-- SEQ_CREATE (R384, R385, R433). -/
def seqCreate (t : Nat) (b : Bytes) (s : State) : MailRes :=
  let k := tenantOf s t
  let q := seqOfBody b t 0 k
  if fld b 7 1 ≠ t || !inRange q.layers 1 256 || bfld b 8 2 15 9 ≠ 0 || !inRange q.kvh 1 64 || bfld b 0xA 1 7 7 ≠ 0 ||
      q.dim > 2 || q.fmt > 2 || bfld b 0xB 1 7 4 ≠ 0 || !zeroAt b 0x20 32 then .reply s stMALFORMED []
  else match tenantSeq s t q.handle with
    | some old => if sameSeq old q then .reply s stOK (u16 old.als) else .reply s stMALFORMED []
    | none =>
      let rope := s.sq.objs.find? fun o => o.kind == .rope && o.id == q.rope && o.tenant == t && !o.gone
      let tables := q.ctables.all fun c => c == 0xFFFF || s.sq.objs.any fun o => o.kind == .table && o.id == c && o.tenant == t && !o.gone
      if fld b 0x1C 4 < (k.map Tenant.floor).getD 0 then .reply s stSTALE []
      else if (q.rope ≠ 0xFFFFFFFF && rope.isNone) || !tables then .reply s stUNKNOWN []
      else if (match rope with | some o => decide (fld o.bytes 0 2 ≠ headDim q.dim / 2) | none => false) then .reply s stMALFORMED []
      else match freeAlias s with
        | none => .reply s stQUOTA []
        | some (a, s) =>
          let s := renameGone s q.handle
          .reply { s with sq.seqs := s.sq.seqs ++ [{ q with als := a }] } stOK (u16 a)

def execSeqCreate (c : Cmd) (s : State) : Host.Outcome State Fault Refusal :=
  .next (mailRow 0x0110 .tenant scNeed (fun x b s => seqCreate x.tenant b s) c s)

/-- SEQ_DELETE (R386). -/
def execSeqDelete (c : Cmd) (s : State) : Host.Outcome State Fault Refusal :=
  .next (mailRow 0x0111 .tenant (fun _ => 8) (fun x b s =>
    match tenantSeq s x.tenant (fld b 0 8) with
    | none => .reply s stUNKNOWN []
    | some q => if q.writer.isSome then .reply s stBUSY [] else .reply (deleteSeq s q) stOK []) c s)

/-- SPAN_INFO (R387). -/
def execSpanInfo (c : Cmd) (s : State) : Host.Outcome State Fault Refusal :=
  .next (mailRow 0x0112 .tenant (fun _ => 16) (fun x b s =>
    let n := fld b 0xC 2
    if n < 1 || n > 126 || !zeroAt b 0xE 2 then .reply s stMALFORMED []
    else match tenantSeq s x.tenant (fld b 0 8) with
      | none => .reply s stUNKNOWN []
      | some q => .reply s stOK ((List.range n).flatMap fun i =>
          match spanOf s q.als (fld b 8 1) (fld b 9 1) (fld b 0xA 2 + i) with
          | some y => spanBytes y
          | none => zeros 32)) c s)

/-- SEQ_EVICT (R325). -/
def execSeqEvict (c : Cmd) (s : State) : Host.Outcome State Fault Refusal :=
  .next (mailRow 0x0113 .tenant (fun _ => 8) (fun x b s =>
    match tenantSeq s x.tenant (fld b 0 8) with
    | none => .reply s stUNKNOWN []
    | some q =>
      .reply (((evictList s x.tenant).filter fun y => y.als == q.als).foldl evict s) stOK []) c s)

/-- The newest error record has been reported to a requester (R522). -/
def markReported (s : State) : State :=
  let upd := fun (e : ErrRec) => if e.recno + 1 = s.hl.nextRec then { e with reported := true } else e
  { s with hl.errs := s.hl.errs.map upd }

/-- Read every block of a version for an install; the first uncorrectable block ends it (R326, R356). -/
def readAll (v : FObj) (lost : List LostBlock) : List Nat → State → List (Nat × Bytes) → Sum (List (Nat × Bytes) × State) State
  | [], s, acc => .inl (acc, s)
  | i :: is, s, acc =>
    let last := (s.fl.profile.map fun p => p.retry.length).getD 0
    let fails := lost.any fun x => x.obj == v.idx && x.block == i
    match readBlock s v i ⟨last, fails⟩ with
    | (some b, s) => readAll v lost is s (acc ++ [(i, b)])
    | (none, s) => .inr (if v.blocks[i]? = some .lost then s else markReported (blockLost s v i last 2 0 0 0))

/-- Install one FLASH_ONLY span (R326): the state, or the state and status that end the command. -/
def installSpan (s : State) (c : Nat) (lost : List LostBlock) (x : Span) : Sum State (State × Nat) :=
  match x.flash.bind (objOf s) with
  | none => .inr (s, stLOST)
  | some v => match installPlace s x with
    | none => .inr (starved s x.tenant, stQUOTA)
    | some (y, s) => match readAll v lost (List.range v.blocks.length) s [] with
      | .inr s => .inr (freeSpanFrames s y, stLOST)
      | .inl (bs, s) => .inl (installBytes s y c fun i => ((bs.find? fun p => p.1 == i).map Prod.snd).getD (zeros 65536))

def installAll (c : Nat) (lost : List LostBlock) : List Span → State → State × Nat
  | [], s => (s, stOK)
  | x :: xs, s => match installSpan s c lost x with
    | .inl s => installAll c lost xs s
    | .inr r => r

/-- SEQ_INSTALL (R326); `lost` are the blocks that fail R356. -/
def execSeqInstall (c : Cmd) (lost : List LostBlock) (s : State) : Host.Outcome State Fault Refusal :=
  .next (mailRow 0x0114 .tenant (fun _ => 8) (fun x b s =>
    match tenantSeq s x.tenant (fld b 0 8) with
    | none => .reply s stUNKNOWN []
    | some q =>
      let xs := sortBy (fun (a b : Span) => decide (spanId a.als a.layer a.head a.idx < spanId b.als b.layer b.head b.idx))
        (s.sq.spans.filter fun y => y.als == q.als && y.state == .flashOnly)
      let (s, st) := installAll q.len lost xs s
      .reply s st []) c s)

/-- DURABLE_REPORT (R390): a reported sequence's RESTARTED flag is cleared (Table 12-7). -/
def execDurableReport (c : Cmd) (s : State) : Host.Outcome State Fault Refusal :=
  .next (mailRow 0x0115 .tenant (fun _ => 8) (fun x b s =>
    let qs := (sortBy (fun (a b : Seq) => decide (a.handle < b.handle))
      (s.sq.seqs.filter fun q => q.tenant == x.tenant && !q.gone && q.stub.isNone && decide (fld b 0 8 < q.handle))).take 168
    let out := u32 qs.length ++ zeros 4 ++ qs.flatMap (durBytes s)
    .reply (qs.foldl (fun s q => mapSeq s q.als fun q => { q with restarted := false }) s) stOK out) c s)

/-! ## Collections -/

/-- COLL_CREATE (R230, R392). -/
def execCollCreate (c : Cmd) (s : State) : Host.Outcome State Fault Refusal :=
  .next (mailRow 0x0120 .tenant (fun _ => 16) (fun x b s =>
    let n := fld b 0 2
    let f := fld b 2 1
    let fan := fld b 4 1
    if n < 32 || n > 2048 || n % 32 ≠ 0 || !([1, 2, 3, 5].contains f) || fld b 3 1 > 2 || !([16, 32, 64].contains fan) ||
        fld b 5 1 > 1 || !zeroAt b 6 2 then .reply s stMALFORMED []
    else match pickRun s 0 4096 1 (s.sq.colls.map fun c => (c.id, 1)) with
      | none => .reply s stQUOTA []
      | some (i, s) =>
        let c : Coll := { id := i, tenant := x.tenant, dim := n, fmt := f, width := 256 * 2 ^ fld b 3 1, fanout := fan,
                          metric := fld b 5 1, seed := fld b 8 8 }
        .reply { s with sq.colls := s.sq.colls ++ [c] } stOK (u16 i)) c s)

/-- A destroyed collection's records and nodes go once no request armed before uses it (Table 8-6). -/
def reapColls (s : State) : State :=
  (s.sq.colls.filter Coll.gone).foldl (fun s c =>
    if s.eng.reqs.any fun r => [0x20, 0x21, 0x22].contains r.op && r.tenant == c.tenant && vcColl r.body == c.id && r.phase != .finishing
    then s
    else
      let s := c.nodes.foldl (fun s n => dropCollSlot s n.slot) s
      let s := freeOwned s .vectors c.tenant c.id
      { s with sq.colls := s.sq.colls.filter fun x => x.id != c.id }) s

/-- COLL_DESTROY (R230). -/
def execCollDestroy (c : Cmd) (s : State) : Host.Outcome State Fault Refusal :=
  .next (mailRow 0x0121 .tenant (fun _ => 2) (fun x b s =>
    match collOf s x.tenant (fld b 0 2) with
    | none => .reply s stUNKNOWN []
    | some k => .reply (reapColls (setColl s { k with gone := true })) stOK []) c s)

/-! ## Load bodies (R391, Table 14-6) -/

def ldLen (b : Bytes) : Nat := fld b 4 4
def ldReplace (b : Bytes) : Nat := fld b 0x10 4

/-- Reserved fields and enumerations of a load body, and the weight-set fields of another command's (R12). -/
def loadFields (weight : Bool) (b : Bytes) : Bool :=
  zeroAt b 2 2 && zeroAt b 0x14 4 && zeroAt b 0x1B 1 && zeroAt b 0x1E 2 && zeroAt b 0x28 24 &&
  (if weight then inRange (fld b 0x18 1) 1 6 && decide (fld b 0x19 1 ≤ 2) && decide (fld b 0x1A 1 ≤ 4) && bfld b 0x1C 2 15 9 == 0
   else ldReplace b == 0xFFFFFFFF && zeroAt b 0x18 16)

/-- The staged bytes of a load, or the status it fails with. -/
def loadBytes (s : State) (weight : Bool) (t : Nat) (b : Bytes) : Sum Bytes Nat :=
  if !loadFields weight b then .inr stMALFORMED
  else match tenantLease s t (fld b 0 2) with
    | none => .inr stUNKNOWN
    | some l =>
      if l.state != .active then .inr stFENCED
      else if !stageOk s l.id (fld b 8 8) (ldLen b) then .inr stMALFORMED
      else .inl (stageRead s l.id (fld b 8 8) (ldLen b))

/-- A load command: tenant, load body, staged bytes. -/
def loadRow (code : Nat) (weight : Bool) (h : Nat → Bytes → Bytes → State → MailRes) (c : Cmd) (s : State) : State :=
  mailRow code .tenant (fun _ => 64) (fun x b s =>
    let s := settleLease s (fld b 0 2)
    match loadBytes s weight x.tenant b with
    | .inr st => .reply s st []
    | .inl v => h x.tenant b v s) c s

/-- The reply of a load. -/
def loadReply (s : State) (o : Obj) : MailRes := .reply s stOK (u32 o.id ++ zeros 4 ++ cut o.digest 0 32)

/-- The frames of an object, and a plan's workspaces with their copies (R261, R284 to R286, R68). -/
def objAlloc (s : State) (o : Obj) : Option State :=
  (if o.kind == .plan then planWork s o.tenant o.id o.bytes else some s).bind fun s =>
    allocatePool s o.tenant (objFrames o) o.store (objUse o.kind) (objOwner o)

/-- Take the frames, write the stored object, fill the frames and hold the object (R352); none where a quota, T1 or the log has no
room. -/
def keepObj (s : State) (o : Obj) (body : Bytes) : Option State :=
  match objAlloc s o with
  | none => none
  | some s => (storeObject s o.tenant o.kind o.id body o.bytes o.digest).map fun s =>
    let s := objWrite s o
    { s with sq.objs := s.sq.objs ++ [o] }

/-- NO_QUOTA of a load, which keeps nothing; where T1 is short the evictions stay (Table 12-3). -/
def loadFull (s : State) (o : Obj) : MailRes := .reply (if (objAlloc s o).isSome then s else starved s o.tenant) stQUOTA []

def usedIds (s : State) (k : ObjKind) : List (Nat × Nat) := (s.sq.objs.filter fun o => o.kind == k).map fun o => (o.id, 1)

/-! ## WEIGHT_LOAD (R261, R263, R287, R391) -/

/-- Every 2:4 tile of a set keeps the order of R263 under a cell mode. -/
def setOrdered (o : Obj) (m : CellMode) : Bool :=
  let d := tileDepth m true
  (List.range (wLayers o * matrices o m)).all fun e => (List.range (kTiles (wA o) d)).all fun kt =>
    (List.range (nTiles (wB o))).all fun nt => tileOrdered (wFmt o) d (tileAt o m e kt nt)

/-- A tiled set fits a cell mode that some activation format gives its format (log entry 18). -/
def tilesFit (o : Obj) (m : CellMode) : Bool :=
  (List.range 7).any (fun a => pairMode (wFmt o) a == some m) && decide (1 ≤ matrices o m) && (wEnc o != 1 || setOrdered o m)

def weightFits (o : Obj) : Bool := if wEnc o = 2 then rowsFit o else [CellMode.fp4, .fp8, .bf16].any (tilesFit o)

/-- A loaded plan of the tenant names a weight set. -/
def planNames (s : State) (t id : Nat) : Bool :=
  s.sq.objs.any fun o => o.kind == .plan && o.tenant == t && !o.gone && (planRecords o.bytes).any fun r => orW r.1 == id || orW2 r.1 == id

def weightObj (t id born : Nat) (b bytes : Bytes) : Obj :=
  { kind := .weight, id := id, tenant := t, bytes := bytes, digest := sha3 bytes,
    attr := [fld b 0x18 1, fld b 0x19 1, fld b 0x1A 1, fld b 0x1C 2, fld b 0x20 4, fld b 0x24 4], store := fld b 0x1A 1, born := born }

/-- Format, encoding, layout, shape and layer count of two sets are equal (R287). -/
def sameShape (x y : Obj) : Bool :=
  wFmt x == wFmt y && wEnc x == wEnc y && wLayers x == wLayers y && wA x == wA y && wB x == wB y && x.bytes.length == y.bytes.length

def weightLoad (t : Nat) (b v : Bytes) (s : State) : MailRes :=
  let rep := ldReplace b
  let o := weightObj t rep s.eng.order b v
  if !inRange (wLayers o) 1 256 || wA o = 0 || wB o = 0 || !weightFits o then
    .reply s stMALFORMED []
  else if rep = 0xFFFFFFFF then
    match pickRun s 0 0xFFFF 1 (usedIds s .weight) with
    | none => .reply s stQUOTA []
    | some (i, s') =>
      let o := { o with id := i }
      match keepObj s' o b with
      | none => loadFull s o
      | some s => loadReply s o
  else match weightOf s t rep with
    | none => .reply s stUNKNOWN []
    | some old =>
      if planNames s t rep && !sameShape old o then .reply s stBUSY []
      else match (keepObj (unstore s .weight rep) o b).bind fun s => copyNew s o with
        | none => loadFull s o
        | some s =>
          let upd := fun (x : Obj) => { x with gone := true, died := some o.born }
          loadReply (weightRelease { s with sq.objs := mapIf (fun x => x == old) upd s.sq.objs }) o

/-- WEIGHT_LOAD (R391). -/
def execWeightLoad (c : Cmd) (s : State) : Host.Outcome State Fault Refusal := .next (loadRow 0x0130 true weightLoad c s)

/-! ## PLAN_LOAD and PLAN_UNLOAD (R283 to R287) -/

def planLoad (t : Nat) (b v : Bytes) (s : State) : MailRes :=
  let rs := planRecords v
  if !headerOk v || !(rs.all fun r => recordOk v r.1) then .reply s stMALFORMED []
  else if rs.any fun r => namesMissing s t r.1 then .reply s stUNKNOWN []
  else if !(rs.all fun r => weightsOk s t v r.1 r.2) then .reply s stMALFORMED []
  else match pickRun s 0 256 1 (usedIds s .plan) with
    | none => .reply s stQUOTA []
    | some (i, s') =>
      let o : Obj := { kind := .plan, id := i, tenant := t, bytes := v, digest := sha3 v, store := 2 }
      match keepObj s' o b with
      | none => loadFull s o
      | some s => loadReply s o

/-- PLAN_LOAD (R283). -/
def execPlanLoad (c : Cmd) (s : State) : Host.Outcome State Fault Refusal := .next (loadRow 0x0131 false planLoad c s)

/-- PLAN_UNLOAD (R352, Table 10-7): runs armed before it complete. -/
def execPlanUnload (c : Cmd) (s : State) : Host.Outcome State Fault Refusal :=
  .next (mailRow 0x0132 .tenant (fun _ => 2) (fun x b s =>
    let id := fld b 0 2
    match planOf s x.tenant id with
    | none => .reply s stUNKNOWN []
    | some o =>
      let upd := fun (y : Obj) => { y with gone := true }
      let s : State := { s with sq.objs := mapIf (fun y => y == o) upd s.sq.objs }
      .reply (planRelease (unstore s .plan id) x.tenant id) stOK []) c s)

/-! ## Rotary and coding tables -/

def ropeOk (v : Bytes) : Bool :=
  let n := fld v 0 2
  [32, 64, 128].contains n && bfld v 2 1 7 1 == 0 && zeroAt v 3 61 && v.length == 64 + 8 * 17408 * n

/-- A load of an object kept SEALED at t = 16 under an id below `top`. -/
def tableLike (k : ObjKind) (top : Nat) (digest : Bytes → Bytes) (t : Nat) (b v : Bytes) (s : State) : MailRes :=
  match pickRun s 0 top 1 (usedIds s k) with
  | none => .reply s stQUOTA []
  | some (i, s') =>
    let o : Obj := { kind := k, id := i, tenant := t, bytes := v, digest := digest v, store := 2 }
    match keepObj s' o b with
    | none => loadFull s o
    | some s => loadReply s o

/-- ROPE_LOAD (R189). -/
def execRopeLoad (c : Cmd) (s : State) : Host.Outcome State Fault Refusal :=
  .next (loadRow 0x0133 false (fun t b v s =>
    if ropeOk v then tableLike .rope 0xFFFFFFFF sha3 t b v s else .reply s stMALFORMED []) c s)

/-- R348. -/
def tableOk (v : Bytes) : Bool :=
  v.length == 528 && fld v 0 4 == 0x54414E53 && inRange (fld v 4 1) 9 12 && zeroAt v 5 11 &&
  (tableFreq v).foldl (· + ·) 0 == 2 ^ fld v 4 1

/-- TABLE_LOAD (R350). -/
def execTableLoad (c : Cmd) (s : State) : Host.Outcome State Fault Refusal :=
  .next (loadRow 0x0134 false (fun t b v s =>
    if tableOk v then tableLike .table 256 sha3 t b v s else .reply s stMALFORMED []) c s)

/-- A version on the node has a block coded with a table (R351). -/
def tableUsed (s : State) (o : Obj) : Bool :=
  s.fl.objs.any fun v => v.tdig.take 8 == o.digest.take 8 && (match v.kind with | .stored _ _ => false | _ => true) &&
    (blkLsns v).any fun l => match recOf s l with | some r => flagAt (sealedOf r) 12 0 | none => false

/-- TABLE_UNLOAD (R351, R352). -/
def execTableUnload (c : Cmd) (s : State) : Host.Outcome State Fault Refusal :=
  .next (mailRow 0x0135 .tenant (fun _ => 2) (fun x b s =>
    let id := fld b 0 2
    match s.sq.objs.find? fun o => o.kind == .table && o.id == id && o.tenant == x.tenant && !o.gone with
    | none => .reply s stUNKNOWN []
    | some o =>
      if tableUsed s o then .reply s stBUSY []
      else
        let s := freeOwned (unstore s .table id) .table x.tenant (objOwner o)
        .reply { s with sq.objs := s.sq.objs.erase o } stOK []) c s)

/-! ## Service images (Table 11-3) -/

def imageOk (v : Bytes) : Bool :=
  fld v 0 4 == 0x43565253 && fld v 4 2 == 1 && inRange (siCores v) 1 32 && bfld v 6 1 7 6 == 0 && bfld v 7 1 7 4 == 0 &&
  inRange (siMib v) 16 32768 && siMib v % 16 == 0 && inRange (siSlots v) 1 1024 && bfld v 0xC 2 15 11 == 0 &&
  [64, 128, 256, 512, 1024].contains (siRing v) && bfld v 0xE 2 15 11 == 0 && inRange (siLen v) 4 67108864 &&
  decide (0x80000000 ≤ siEntry v ∧ siEntry v < 0x80000000 + siLen v) && inRange (siStage v) 2 16384 && siStage v % 2 == 0 &&
  zeroAt v 0x20 96 && decide (siLen v ≤ siMib v * 2 ^ 20) && v.length == 128 + siLen v + sigLen

def imageDigest (v : Bytes) : Bytes := sha3 (v.take (v.length - sigLen))

/-- SERVICE_LOAD (R303, R304). -/
def execServiceLoad (c : Cmd) (sig : Option Signed) (s : State) : Host.Outcome State Fault Refusal :=
  .next (loadRow 0x0136 false (fun t b v s =>
    if imageOk v && ownerVerified s serviceKeyOff (imageDigest v) sig then tableLike .image (2 ^ 32) imageDigest t b v s
    else .reply s stMALFORMED []) c s)

end Sys2Proof.Machine
end

