-- ==== Sys2Proof/Machine/Services.lean ====
section
/-! DEFINITION. The commands that start and stop partitions (R300, R305, R317). -/

namespace Sys2Proof.Machine

open Sys2Proof

/-- SERVICE_START (R300, R305, R392); the service lease is granted under R424 and R368. -/
def execServiceStart (c : Cmd) (s : State) : Host.Outcome State Fault Refusal :=
  .next (mailRow 0x0137 .tenant (fun _ => 4) (fun x b s =>
    match imageOf s x.tenant (fld b 0 4) with
    | none => .reply s stUNKNOWN []
    | some o =>
      if o.lost then .reply s stINTERNAL []
      else if !clockOk s || noSaveArea s then .reply s stBUSY []
      else match startPartition s o none [] with
        | none => .reply s stQUOTA []
        | some (p, s) => .reply s stOK (u8 p.id)) c s)

/-- SERVICE_STOP (R317). -/
def execServiceStop (c : Cmd) (s : State) : Host.Outcome State Fault Refusal :=
  .next (mailRow 0x0138 .tenant (fun _ => 1) (fun x b s =>
    match partOf s (fld b 0 1) with
    | none => .reply s stUNKNOWN []
    | some k => if k.tenant ≠ x.tenant then .reply s stUNKNOWN [] else .reply (stopPartition s k.id) stOK []) c s)

end Sys2Proof.Machine
end

