-- ==== Sys2Proof/Machine/Tenants.lean ====
section
/-! DEFINITION. Commands on tenants: creation, quotas, durability, destruction, retirement of a key (R260, R414 to R418, R501,
R505 to R510). -/

namespace Sys2Proof.Machine

open Sys2Proof

/-! ## TENANT_CREATE -/

/-- TENANT_CREATE (R414, R415). -/
def execTenantCreate (c : Cmd) (s : State) : Host.Outcome State Fault Refusal :=
  .next (mailRow 0x0210 .control (fun _ => 8) (fun _ b s =>
    if !zeroAt b 1 7 then .reply s stMALFORMED []
    else match tenantOf s (fld b 0 1) with
      | some k => .reply s (if k.dying then stBUSY else stMALFORMED) []
      | none => .reply { s with own.tenants := s.own.tenants ++ [{ id := fld b 0 1 }] } stOK []) c s)

/-! ## TENANT_QUOTA -/

/-- A pass that waits for a group its tenant has given up moves to another, or its request completes NO_QUOTA (R260 step 3). -/
def moveQueued (s : State) (t : Nat) (gone : List Nat) : State :=
  (s.arr.jobs.filter fun j => gone.contains j.group && !j.ready && jobTenant s j == some t).foldl (fun s j =>
    if s.arr.jobs.contains j then (requeue s j t).getD (stopReq s j.req stQUOTA) else s) s

/-- Set a tenant's groups: the lowest free ones are granted, the highest are given up (R417). -/
def setGroups (s : State) (k : Tenant) (n : Nat) : State :=
  let mine := sortBy (fun a b => decide (a < b)) k.groups
  let free := (List.range 8).filter fun g => s.own.tenants.all fun x => !x.groups.contains g
  let new := mine.take n ++ free.take (n - mine.length)
  let gone := mine.drop n
  let s := mapTenant s k.id fun k => { k with groups := new }
  let upd := fun (g : Group) =>
    if new.contains g.id then { g with tenant := some k.id } else if gone.contains g.id then { g with tenant := none } else g
  let s : State := { s with arr.groups := s.arr.groups.map upd }
  moveQueued s k.id gone

def quotaRange (b : Bytes) : Bool :=
  decide (bfld b 1 1 2 0 ≤ 4) && bfld b 1 1 7 3 == 0 && decide (bfld b 2 1 3 0 ≤ 8) && bfld b 2 1 7 4 == 0 &&
  decide (bfld b 3 1 5 0 ≤ 32) && bfld b 3 1 7 6 == 0 && decide (bfld b 4 2 12 0 ≤ 4096) && bfld b 4 2 15 13 == 0 && zeroAt b 6 2 &&
  decide (bfld b 8 4 16 0 ≤ 65536) && bfld b 8 4 31 17 == 0 && zeroAt b 0xC 4

/-- A sum of a quota over all tenants, with a new value for one. -/
def quotaSum (s : State) (t : Nat) (f : Tenant → Nat) (v : Nat) : Nat := sumBy (fun k => if k.id = t then v else f k) s.own.tenants

/-- TENANT_QUOTA (R416, R417). -/
def tenantQuota (b : Bytes) (s : State) : MailRes :=
  let t := fld b 0 1
  if !quotaRange b then .reply s stMALFORMED []
  else withTenant s t fun k =>
    let groups := bfld b 2 1 3 0
    let free := ((List.range 8).filter fun g => s.own.tenants.all fun x => !x.groups.contains g).length
    if quotaSum s t (fun k => k.groups.length) groups > 8 || quotaSum s t Tenant.flashMib (bfld b 3 1 5 0) > 32 ||
        quotaSum s t Tenant.t2Units (fld b 0x18 8) > usableT2 s || quotaSum s t Tenant.t1Frames (fld b 0x10 8) > allocatable s ||
        groups > k.groups.length + free then .reply s stQUOTA []
    else
      let upd := fun (k : Tenant) => { k with kvClass := bfld b 1 1 2 0, flashMib := bfld b 3 1 5 0, leaseMax := bfld b 4 2 12 0,
                                              slotMax := bfld b 8 4 16 0, t1Frames := fld b 0x10 8, t2Units := fld b 0x18 8 }
      let s := setGroups (mapTenant s t upd) k groups
      .reply (evictUntil (fun s => t1Fits s t 0) (evictList s t) s) stOK []

def execTenantQuota (c : Cmd) (s : State) : Host.Outcome State Fault Refusal :=
  .next (mailRow 0x0211 .control (fun _ => 0x20) (fun _ b s => tenantQuota b s) c s)

/-! ## DURABILITY_SET -/

/-- The replica session over an earlier credential closes. -/
def closeReplica (s : State) (t : Nat) : State :=
  match replicaQp s t with
  | some q =>
    let s := if q.state == .connected then leaveConnected (postCm s (.cmDreq q.peerQpn)) q.num .closing
      else { s with nuc.qps := s.nuc.qps.filter fun x => x.num != q.num }
    dropPuts s q.num
  | none => s

/-- DURABILITY_SET (R418, R331); `sig` is what SIG verifies as. -/
def durabilitySet (sig : Option Signed) (b : Bytes) (s : State) : MailRes :=
  let t := fld b 0 1
  let dom := fld b 2 1
  let node := fld b 4 2
  let na := fld b 8 8
  if !inRange (fld b 1 1) 1 64 || dom > 1 || !zeroAt b 3 1 || !zeroAt b 6 2 ||
      (if dom = 0 then !zeroAt b 4 (0x1C + sigLen) else decide (node = 0)) then .reply s stMALFORMED []
  else withTenant s t fun k =>
    if dom = 0 then
      .reply (setTenant s { k with bound := fld b 1 1, domain := 0, replica := 0, replicaNotAfter := 0, replicaAddr := [],
                                   replicaSig := [] }) stOK []
    else if node = s.pw.node || !ownerVerified s sessionKeyOff (credential 1 node 1 t na []) sig then .reply s stMALFORMED []
    else
      let k := { k with bound := fld b 1 1, domain := 1, replica := node, replicaNotAfter := na, replicaAddr := cut b 0x10 16,
                        replicaSig := cut b 0x20 sigLen }
      .reply (connectReplica (setTenant (closeReplica s t) k) k) stOK []

def execDurabilitySet (c : Cmd) (sig : Option Signed) (s : State) : Host.Outcome State Fault Refusal :=
  .next (mailRow 0x0212 .control (fun _ => 0x20 + sigLen) (fun _ b s => durabilitySet sig b s) c s)

/-! ## TENANT_DESTROY -/

/-- End the sessions of a tenant, and the QPs the node opened for it (R378, R506 step 1). -/
def endSessions (s : State) (t : Nat) : State :=
  s.nuc.qps.foldl (fun s q =>
    let s := match q.session with
      | some x => if x.role == .tenant t then endSession s q.num else s
      | none => s
    match q.use with
    | .peer u _ _ => if u = t then leaveConnected (postCm s (.cmDreq q.peerQpn)) q.num .closing else s
    | _ => s) s

/-- CANCEL goes to every REPLICA_PUT that the node has armed for a tenant (R506 step 3). -/
def cancelPuts (s : State) (t : Nat) : State :=
  let s := s.fl.puts.foldl (fun s u => match s.fl.peers.find? fun p => p.qp == u.qp && p.tenant == t with
    | some p => match p.lease with
      | some (_, _, rkey, slot0, _) =>
        let word := 0x40 * 2 ^ 40 + 2 ^ 39 + p.seqs.getD u.slot 0 * 2 ^ 48
        if connected s p.qp then send s p.qp (.write (slotAddr (slot0 + u.slot) + 0xFF8) rkey (u64 word)) (.replica t 0) else s
      | none => s
    | none => s) s
  let own := fun (u : Put) => s.fl.peers.any fun p => p.qp == u.qp && p.tenant == t
  { s with fl.puts := s.fl.puts.filter fun u => !own u }

/-- Steps 1 to 3 of R506. -/
def destroyStart (s : State) (t : Nat) : State :=
  let s := mapTenant s t fun k => { k with dying := true, epoch := (k.epoch + 1) % 2 ^ 32 }
  let s := ((s.own.leases.filter fun l => l.tenant == t).map Lease.id).foldl (fun s l => endLease s l 3) s
  let s := endSessions s t
  let s := ((s.serv.parts.filter fun p => p.tenant == t).map Partition.id).foldl stopPartition s
  let s := (s.fl.migs.filter fun m => m.tenant == t).foldl (fun s m =>
    if m.state == .installed || m.state == .stubbed then dropMig s m.id else abortMig s m) s
  cancelPuts { s with fl.jobs := s.fl.jobs.filter fun j => j.tenant != t } t

/-- TENANT_DESTROY (R506): the reply follows once nothing of the tenant is in flight. -/
def execTenantDestroy (c : Cmd) (s : State) : Host.Outcome State Fault Refusal :=
  .next (mailRow 0x0213 .control (fun _ => 8) (fun x b s =>
    let t := fld b 0 1
    if !zeroAt b 1 7 then .reply s stMALFORMED []
    else match tenantOf s t with
      | none => .reply s stUNKNOWN []
      | some k =>
        if k.dying then .reply s stBUSY []
        else .wait (settleDestroy (mapTenant (destroyStart s t) t fun k => { k with killBox := some x.box }) t)) c s)

/-! ## KEY_RETIRE -/

/-- A current version, replica object or stored object of the tenant holds a block under a key generation. -/
def keyUsed (s : State) (t g : Nat) : Bool :=
  s.fl.objs.any fun v => v.tenant == t && (blkLsns v).any fun l =>
    match recOf s l with | some r => fld (sealedOf r) 6 2 == g | none => false

/-- KEY_RETIRE (R501). -/
def execKeyRetire (c : Cmd) (s : State) : Host.Outcome State Fault Refusal :=
  .next (mailRow 0x0221 .control (fun _ => 8) (fun _ b s =>
    let g := fld b 2 2
    if !zeroAt b 1 1 || !zeroAt b 4 4 then .reply s stMALFORMED []
    else withTenant s (fld b 0 1) fun k =>
      if (keyGenOf k g).isNone then .reply s stUNKNOWN []
      else if (newestKey k).map KeyGen.gen == some g then .reply s stMALFORMED []
      else if keyUsed s k.id g then .reply s stBUSY []
      else .reply (setTenant s { k with keys := k.keys.filter fun x => x.gen != g, rekey := false }) stOK []) c s)

end Sys2Proof.Machine
end

