-- ==== Sys2Proof/Machine/Flash.lean ====
section
/-! DEFINITION. The flash tier at work (chapters 12 and 13): the flash profile and format, flushes and their completion, NAND reads,
programs and erases, checkpoints, and the duties of Mace in T2 (Table 13-6). -/

namespace Sys2Proof.Machine

open Sys2Proof

/-! ## FLASH_PROFILE_LOAD and FLASH_FORMAT (R358 to R360, R367) -/

def profileCount (b : Bytes) : Nat := fld b 2 1

/-- The profile in a FLASH_PROFILE_LOAD body, whose layout the spec does not give (log entry 22). -/
def profileOf (b : Bytes) : Profile :=
  { slcFeature := fld b 0 1, slcValue := fld b 4 4, retryFeature := fld b 1 1,
    retry := (List.range (profileCount b)).map fun i => fld b (0x20 + 4 * i) 4,
    trMax := fld b 8 4, tprog := fld b 0xC 4, tprogSlc := fld b 0x10 4, tbers := fld b 0x14 4, endurance := fld b 0x18 4,
    disturb := fld b 0x1C 4, refreshDays := if fld b 3 1 = 0 then 7 else fld b 3 1 }

/-- Ranges of Table 13-4. -/
def profileOk (b : Bytes) : Bool :=
  let p := profileOf b
  decide (profileCount b ≤ 16) && inRange p.endurance 100 100000 && inRange p.disturb 1000 10000000 && inRange p.refreshDays 1 90

def execFlashProfileLoad (c : Cmd) (s : State) : Host.Outcome State Fault Refusal :=
  .next (mailRow 0x0240 .control (fun b => 0x20 + 4 * min 16 (profileCount b)) (fun _ b s =>
    if profileOk b then .reply { s with fl.profile := some (profileOf b) } stOK [] else .reply s stMALFORMED []) c s)

/-- Table 13-3. -/
def geomOk (g : FlashGeom) : Bool :=
  inRange g.targets 1 8 && inRange g.luns 1 4 && [1, 2, 4].contains g.planes && [8192, 16384, 32768].contains g.pageMain &&
  [36, 24, 16, 8].contains g.bytesPerNs10 && decide (0 < g.pages) && decide (saveBlocks g ≤ g.blocks)

/-- The largest flash strength whose check records fit in the spare area (R359). -/
def flashStrength (g : FlashGeom) : Option Nat := [128, 64, 32].find? fun t => decide (g.pageMain / 4096 * (3 * t) ≤ g.pageSpare)

/-- T_save in ns (R367). -/
def saveTime (g : FlashGeom) (p : Profile) : Nat :=
  let luns := max 1 (g.targets * g.luns)
  let pages := ceilDiv (12 * 2 ^ 20) (max 1 (g.pageMain * luns))
  pages * luns * (g.pageMain + g.pageSpare) * 10 / max 1 g.bytesPerNs10 + ceilDiv pages (max 1 g.planes) * p.tprogSlc * 1000

/-- Direct reads from objects that a format erases end their requests (log entry 23). -/
def dropDirect (s : State) : State :=
  s.fl.jobs.foldl (fun s j => match j.kind with
    | .direct r u p => match reqOf s r with
      | some q => match (q.units[u]?).bind fun w => w.passes[p]? with
        | some k => if q.stop.isSome then s else stopLost s r (pageDetail k.entry 0)
        | none => s
      | none => s
    | _ => s) s

/-- The frames that an install has allocated go back where it ends without them. -/
def freePlace (s : State) (j : FJob) : State :=
  match j.place with
  | some (b, f) => match s.mem.regions.find? fun r => r.bank == b && r.first == f && r.use == .span with
    | some r => freeRegion s r
    | none => s
  | none => s

/-- Page steps that waited for an install go on. -/
def feedAll (s : State) : State :=
  (s.eng.reqs.filter fun r => r.op == 0x10 && r.phase == .running && r.stop.isNone).foldl (fun s r => appendFeed s r.id) s

/-- The log, the map and the save areas as a format leaves them; a FLASH_ONLY span keeps an object whose blocks are all lost, and no
page of a span in T1 is durable (log entry 23). -/
def formatT2 (s : State) (g : FlashGeom) (t : Nat) : State :=
  let s := s.fl.jobs.foldl freePlace (dropDirect s)
  let used := (s.sq.spans.filter fun x => x.state == .flashOnly).filterMap Span.flash
  let lose := fun (v : FObj) => { v with blocks := v.blocks.map fun _ => BlkRef.lost, index := 0 }
  let fresh := fun (x : Seg) => { x with use := if x.use == .retired then .retired else .free, fill := 0, reads := 0, failing := [] }
  let here := fun (x : Span) =>
    if x.state == .flashOnly then x
    else { x with flash := none, pages := x.pages.map fun (p : PageSt) => { p with drows := 0, snap := none, lw := 16 } }
  let s : State := { s with fl.geom := some g, fl.strength := t, fl.segs := s.fl.segs.map fresh, fl.log := [],
                            fl.objs := (s.fl.objs.filter fun v => used.contains v.idx).map lose, fl.jobs := [], fl.repair := [],
                            fl.areaA := { erased := true }, fl.areaB := { erased := true }, fl.ckObjs := [], fl.ckSpans := [],
                            fl.ckSeqs := [], fl.ckLsn := s.fl.lsn, fl.ckSpanLsn := s.fl.lsn, sq.spans := s.sq.spans.map here, sq.gen := s.sq.gen + 1 }
  feedAll (noteSave s)

/-- FLASH_FORMAT on the NAND that `g` describes; none where no NAND is fitted or its targets' geometries differ. -/
def execFlashFormat (c : Cmd) (g : Option FlashGeom) (s : State) : Host.Outcome State Fault Refusal :=
  .next (mailRow 0x0241 .control (fun _ => 0) (fun _ _ s =>
    match g, s.fl.profile with
    | some g, some p => match flashStrength g with
      | some t =>
        if geomOk g && decide (saveTime g p ≤ 30 * 10 ^ 6) then .reply (formatT2 s g t) stOK [] else .reply s stMALFORMED []
      | none => .reply s stMALFORMED []
    | _, _ => .reply s stMALFORMED []) c s)

/-! ## Choice of a page to flush (R332) -/

/-- A page to flush, the durability domain under which the flush completes, and whether it takes its sequence's turn. -/
structure FlushPick where
  span   : Span
  page   : Nat
  domain : Nat
  turn   : Bool

/-- The length that a waiting COMMIT, or the commit of a run, is to set, with its sequence (R196, R291). -/
def commitWait (s : State) (r : Rq) : Option (Seq × Nat) :=
  if r.op = 0x11 then (seqAny s r.handle).map fun q => (q, cmNew r.body)
  else match (rlSeqs r.body)[r.count]? with
    | none => none
    | some h => (seqAny s h).map fun q => (q, q.len + ((List.range (rlRows r.body)).filter fun i => rlSeq r.body i == h).length)

/-- Order of pages: position, layer, KV head. -/
def pickBefore (a b : FlushPick) : Bool :=
  let k := fun (p : FlushPick) => ((p.span.idx * 64 + p.page) * 256 + p.span.layer) * 64 + p.span.head
  decide (k a < k b)

def picksOf (s : State) (q : Seq) (domain : Nat) (turn : Bool) (want : Span → Nat → PageSt → Bool) : List FlushPick :=
  sortBy pickBefore ((s.sq.spans.filter fun x => x.als == q.als && x.state == .resident).flatMap fun x =>
    (List.range 64).filterMap fun p => match x.pages[p]? with
      | some y => if want x p y then some ⟨x, p, domain, turn⟩ else none
      | none => none)

/-- Class 1: whole pages below the durable length that a waiting COMMIT needs. -/
def picksCommit (s : State) : List FlushPick :=
  (sortBy (fun (a b : Rq) => decide (a.order < b.order)) (s.eng.reqs.filter fun r => r.phase == .commit)).flatMap fun r =>
    match commitWait s r with
    | none => []
    | some (q, n) => match tenantOf s q.tenant with
      | none => []
      | some t => picksOf s q t.domain false fun x p y => dirty y && decide ((x.idx * 64 + p + 1) * 16 + boundOf t.bound n ≤ n)

/-- Sequences in the turn of classes 2 and 3: tenants round-robin, and the sequences of each tenant round-robin (R332). -/
def flushTurn (s : State) : List Seq :=
  let last := fun (t : Nat) => ((s.fl.rrSeqs.find? fun p => p.1 == t).map Prod.snd).getD 65535
  let k := fun (q : Seq) => (q.tenant + 255 - s.fl.rrTenant) % 256 * 65536 + (q.als + 65535 - last q.tenant) % 65536
  sortBy (fun a b => decide (k a < k b)) (s.sq.seqs.filter fun q => !q.gone)

def flushPicks (s : State) : List FlushPick :=
  let turn := flushTurn s
  picksCommit s ++
  (turn.flatMap fun q => picksOf s q q.domain true fun x p y => dirty y && decide ((x.idx * 64 + p) * 16 < q.len)) ++
  (turn.flatMap fun q => picksOf s q q.domain true fun _ _ y => dirty y && decide (y.wr = 16))

/-! ## Checkpoints (R362, R567) -/

/-- MAP_CHECKPOINT. -/
def execMapCheckpoint (s : State) : Host.Outcome State Fault Refusal :=
  if serves s && s.fl.geom.isSome then .next (mapCheckpoint s) else .next s

/-- SPAN_TABLE_CHECKPOINT: with it a restored state is journalled (R368; log entry 25). -/
def execSpanTableCheckpoint (s : State) : Host.Outcome State Fault Refusal :=
  if serves s && s.fl.geom.isSome then
    .next { s with fl.ckSpans := s.sq.spans, fl.ckSeqs := s.sq.seqs, fl.ckSpanLsn := s.fl.lsn, fl.ckSpanTime := s.now,
                   fl.journalled := true }
  else .next s

/-! ## FLUSH (R328, R333, R346, R347, R354) -/

/-- A flush of the span is outstanding. -/
def flushing (s : State) (a l h i : Nat) : Bool :=
  s.fl.jobs.any fun j => match j.kind with
    | .flush a' l' h' i' _ _ _ => a' == a && l' == l && h' == h && i' == i
    | _ => false

/-- What an attempt to start a flush comes to. -/
inductive FlushTry where
  | started (s : State)
  /-- Held, with the cause of its T2_HOLD event. -/
  | held (s : State) (cause : Nat)
  | skip (s : State)

/-- The version that a new object of a span starts from (Table 13-1). -/
def newObj (s : State) (q : Seq) (x : Span) : FObj :=
  { idx := s.fl.nextIdx, tenant := x.tenant, kind := .span, spanId := spanId x.als x.layer x.head x.idx, seq := q.handle,
    shape := shapeOf x, table := 0, tdig := [], gen := 0, committed := 0,
    blocks := List.replicate (64 / pagesPerBlock x.fmt x.dim) .unwritten, index := 0 }

/-- The coded payload that may be stored, with its table (R347). -/
def codedWith (s : State) (q : Seq) (x : Span) (v : FObj) (raw : Bytes) (payload : Option Bytes) : Option (Bytes × Obj) :=
  match payload, (q.ctables[x.layer]?).bind (tableObj s) with
  | some p, some o =>
    if codedOk o.bytes raw p && (zeroAt v.tdig 0 8 || cut v.tdig 0 8 == cut o.digest 0 8) then some (p, o) else none
  | _, _ => none

/-- A block's record and the INDEX record of its version `v`; the version, its records' LSNs and the sealed bytes. -/
def writeVersion (s : State) (v : FObj) (i : Nat) (sealed : Bytes) : Option (FObj × List Nat × State) :=
  match logAppend s false 2 i (objField v) v.gen sealed none with
  | none => none
  | some (r, s) =>
    let v := { v with blocks := v.blocks.set i (.at r.lsn) }
    match logAppend s false 1 0 (objField v) v.gen (indexPayload s v) (some v) with
    | none => none
    | some (d, s) => some ({ v with index := d.lsn }, [r.lsn, d.lsn], s)

/-- The versions that outstanding flushes are to publish count as published. -/
def withFlushes (s : State) : State :=
  s.fl.jobs.foldl (fun (a : State) j => match j.kind with | .flush _ _ _ _ _ _ _ => setObj a j.ver | _ => a) s

/-- The version counts within the tenant's T2 quota, beside every outstanding flush (R321, R323). -/
def t2Fits (s : State) (v : FObj) : Bool :=
  match tenantOf s v.tenant with
  | some t => decide (t2Use (setObj (withFlushes s) v) v.tenant ≤ t.t2Units)
  | none => false

/-- The turn of classes 2 and 3 moves past a sequence. -/
def takeTurn (s : State) (t a : Nat) : State :=
  { s with fl.rrTenant := t, fl.rrSeqs := (s.fl.rrSeqs.filter fun p => p.1 != t) ++ [(t, a)] }

/-- Start the flush of the block that holds a page; its snapshot is taken at a break of its bank (R63, R106, R328). -/
def startFlush (s : State) (c : FlushPick) (payload : Option Bytes) : FlushTry :=
  let x := c.span
  let n := pagesPerBlock x.fmt x.dim
  let i := c.page / n
  let ps := (x.pages.drop (i * n)).take n
  let cap := capOf ps
  match seqByAlias s x.als, tenantOf s x.tenant with
  | some q, some t =>
    if t.dying || flushing s x.als x.layer x.head x.idx || !atBreak s x.bank then .skip s
    else match moverBlock s x i cap with
      | (none, s) => .skip s
      | (some raw, s) => match takeCtr s x.tenant with
        | none => .held s (keyCause s x.tenant)
        | some (k, s1) =>
          let v0 := (x.flash.bind (objOf s)).getD (newObj s q x)
          let v0 := settleTable s { v0 with blocks := v0.blocks.set i .unwritten }
          let coded := codedWith s q x v0 raw payload
          let v1 := { v0 with gen := (v0.gen + 1) % 65536, committed := q.len, shape := shapeOf x }
          let v2 := match coded with | some (_, o) => { v1 with table := o.id, tdig := cut o.digest 0 8 } | none => v1
          let body := match coded with | some (p, _) => p | none => raw
          let sealed := sealBlock k.key (sealHead k.ctr v2.gen k.gen s.pw.node cap coded.isSome i) v2.spanId (aadOf v2)
            (body ++ u32 (crc32c raw) ++ u32 65536)
          match writeVersion s1 v2 i sealed with
          | none => match reclaim s with
            | some s => .skip s
            | none => .held s 1
          | some (v, lsns, s2) =>
            if !t2Fits s2 v then .held s 0
            else
              let snaps := (List.range n).map fun j => ({ page := i * n + j, n := ((ps[j]?).map PageSt.wr).getD 0 } : Snap)
              let mark := fun (p : Nat) (y : PageSt) => if p / n = i then { y with snap := some y.wr, lw := 16 } else y
              let job : FJob := ⟨s2.fl.nextJob, x.tenant, t.epoch, .flush x.als x.layer x.head x.idx snaps (c.domain == 1) false,
                                 v, lsns, [(i, sealed)], none⟩
              -- the page states as the reads of the block have left them
              let y := (spanOf s2 x.als x.layer x.head x.idx).getD x
              let s3 := setSpan s2 { y with pages := y.pages.mapIdx mark }
              let s4 : State := { s3 with fl.nextJob := s2.fl.nextJob + 1, fl.jobs := s2.fl.jobs ++ [job],
                                          fl.nextIdx := max s2.fl.nextIdx (v.idx + 1) }
              let s5 := if c.turn then takeTurn s4 x.tenant x.als else s4
              .started (putFlushes (releaseHold s5 x.tenant (v2.spanId, i)) x.tenant)
  | _, _ => .skip s

/-- The first page in order whose flush can start (R332); a tenant whose flush is held keeps its pages dirty (R323). -/
def flushFirst (payload : Option Bytes) : List FlushPick → State → State
  | [], s => s
  | c :: cs, s => match startFlush s c payload with
    | .started s => s
    | .held s cause =>
      let x := c.span
      flushFirst payload cs (holdT2 s x.tenant cause (spanId x.als x.layer x.head x.idx, c.page / pagesPerBlock x.fmt x.dim))
    | .skip s => flushFirst payload cs s

/-- Jobs that read flash blocks. -/
def readJobs (s : State) : List FJob := s.fl.jobs.filter fun j => match j.kind with | .flush _ _ _ _ _ _ _ => false | _ => true

/-- Tier movers that flush a block or copy one for a migration. -/
def flushMovers (s : State) : Nat :=
  (s.fl.jobs.filter fun j => match j.kind with | .flush _ _ _ _ _ _ _ => !j.todo.isEmpty | _ => false).length +
  sumBy (fun m => if m.source then m.sent.length else 0) s.fl.migs

/-- One of the 64 tier movers is there for a flush: at least 16 are while any is pending (R333). -/
def flushMover (s : State) : Bool := decide (flushMovers s + min (readJobs s).length 48 < 64)

/-- A reading job has a tier mover: the first 48 always, others while no flush is pending (R333). -/
def onMover (s : State) (j : FJob) : Bool :=
  let k := ((readJobs s).findIdx? fun x => x.id == j.id).getD 0
  decide (k + flushMovers s < 64) && (decide (k < 48) || (flushPicks s).isEmpty)

/-- FLUSH; `payload` is what the node's encoder offers for the block, any stream that R349 reads back (log entry 24). -/
def execFlush (payload : Option Bytes) (s : State) : Host.Outcome State Fault Refusal :=
  if serves s && s.fl.geom.isSome && flushMover s then .next (flushFirst payload (flushPicks s) s) else .next s

/-! ## NAND programs (R364) -/

def jobOf (s : State) (j : Nat) : Option FJob := s.fl.jobs.find? fun x => x.id == j

/-- A job's epoch is still the tenant's (R505). -/
def jobLive (s : State) (j : FJob) : Bool := match tenantOf s j.tenant with | some t => t.epoch == j.epoch && !t.dying | none => false

/-- The span of a flush still stands as it was snapshot: every page of the block awaits this flush. -/
def flushSpan (s : State) (j : FJob) : Option (Span × List Snap) :=
  match j.kind with
  | .flush a l h i snaps _ _ => match spanOf s a l h i with
    | some x => if snaps.all (fun (p : Snap) => ((x.pages[p.page]?).bind PageSt.snap) == some p.n) then some (x, snaps) else none
    | none => none
  | _ => none

/-- Forget a job; a flush that is not complete credits nothing, an install gives its frames back. -/
def dropJob (s : State) (j : FJob) : State :=
  let s := match flushSpan s j with
    | some (x, snaps) =>
      setSpan s (snaps.foldl (fun (x : Span) (p : Snap) => mapPage x p.page fun y => { y with snap := none, lw := 16 }) x)
    | none => s
  freePlace { s with fl.jobs := s.fl.jobs.filter fun x => x.id != j.id } j

/-- Plane that holds an offset of a segment (R361). -/
def planeAt (g : FlashGeom) (x : Seg) (off : Nat) : Nat :=
  let ps := goodPlanes g x
  ps.getD (off / max 1 g.pageMain % max 1 ps.length) 0

/-- A record whose program failed takes the next free location; its segment is closed, and its block is to be retired (R364). -/
def placeAgain (s : State) (lsn : Nat) : Option State :=
  match s.fl.geom, recOf s lsn with
  | some g, some r =>
    let x := segOf s r.seg
    let p := planeAt g x r.off
    let s := setSeg s { x with use := .closed, failing := if x.failing.contains p then x.failing else x.failing ++ [p] }
    match place s false (recBytes r.payload.length) with
    | none => none
    | some (seg, off, s) =>
      some { s with fl.log := mapIf (fun (y : LogRec) => y.lsn == lsn) (fun (y : LogRec) => { y with seg := seg, off := off }) s.fl.log }
  | _, _ => none

/-- The INDEX record of a version not yet published follows its block's record. -/
def refreshIndex (s : State) (v : FObj) : State :=
  let upd := fun (r : LogRec) => { r with payload := indexPayload s v }
  { s with fl.log := mapIf (fun (r : LogRec) => r.lsn == v.index) upd s.fl.log }

/-- Publish a flush's version (R333, R362): the map entry names its INDEX record and the span names the object. -/
def publishFlush (s : State) (j : FJob) : State :=
  match flushSpan s j, j.data with
  | some (x, _), (i, _) :: _ =>
    let v := match objOf s j.ver.idx with
      | some w => { j.ver with blocks := w.blocks.set i (j.ver.blocks.getD i .unwritten) }
      | none => j.ver
    publish (setObj s v) { x with flash := some v.idx }
  | _, _ => dropJob s j

/-- FLASH_PROGRAM_DONE for the next record of a flush. -/
def programDone (s : State) (j : FJob) (ok : Bool) : State :=
  match j.kind, j.todo with
  | .flush _ _ _ _ _ _ _, lsn :: rest =>
    if !jobLive s j then dropJob s j
    else if ok then
      let s : State := { s with fl.jobs := mapIf (fun (x : FJob) => x.id == j.id) (fun (x : FJob) => { x with todo := rest }) s.fl.jobs }
      if rest.isEmpty then publishFlush s j else s
    else
      let loc := match recOf s lsn with | some r => locOf r | none => 0
      match placeAgain (flashFault s loc (some j.tenant)) lsn with
      | some s => refreshIndex s j.ver
      | none => holdT2 (dropJob (flashFault s loc (some j.tenant)) j) j.tenant 1 (j.ver.spanId, ((j.data.head?).map Prod.fst).getD 0)
  | _, _ => s

def execFlashProgramDone (job : Nat) (ok : Bool) (s : State) : Host.Outcome State Fault Refusal :=
  if !serves s then .next s
  else match jobOf s job with
    | some j => .next (programDone s j ok)
    | none => .next s

/-! ## FLUSH_COMPLETE (R328, R196, R291) -/

/-- Waiting COMMITs and runs look at the bound again, in arm order. -/
def commitsGo (s : State) : State :=
  (sortBy (fun (a b : Rq) => decide (a.order < b.order)) (s.eng.reqs.filter fun r => r.phase == .commit)).foldl (fun s r =>
    if r.op = 0x11 then commitTry s r.id else if r.op = 0x30 then runTail s r.id else s) s

/-- DROWS advances to the rows that the snapshot held and no write has touched. -/
def creditPage (n : Nat) (y : PageSt) : PageSt := { y with drows := max y.drows (min n y.lw), snap := none, lw := 16 }

def flushDone (s : State) (j : FJob) : State :=
  match j.kind with
  | .flush _ _ _ _ _ fabric acked =>
    if !j.todo.isEmpty then s
    else if !jobLive s j then dropJob s j
    else if fabric && !acked then s
    else match flushSpan s j with
      | none => dropJob s j
      | some (x, snaps) =>
        let y := snaps.foldl (fun (x : Span) (p : Snap) => mapPage x p.page (creditPage p.n)) x
        let s : State := { setSpan s y with fl.jobs := s.fl.jobs.filter fun x => x.id != j.id }
        commitsGo s
  | _ => s

def execFlushComplete (job : Nat) (s : State) : Host.Outcome State Fault Refusal :=
  if !serves s then .next s
  else match jobOf s job with
    | some j => .next (flushDone s j)
    | none => .next s

/-! ## FLASH_READ_DONE (R326, R339, R356, R357) -/

/-- The request a job reads for. -/
def jobReq (j : FJob) : Option Req := match j.kind with | .install r _ _ _ _ => some r | .direct r _ _ => some r | _ => none

def installFail (s : State) (r : Req) (detail status : Nat) : State :=
  let s := match reqOf s r with
    | some x => if x.phase == .running && x.stop.isNone then appendStop (mapReq s r fun x => { x with detail := detail }) r status else s
    | none => s
  feedAll s

/-- An install has read every block: its frames are filled and the entry published (steps 3 to 6 of R326). -/
def installDone (s : State) (j : FJob) (a l h i : Nat) : State :=
  match spanOf s a l h i, seqByAlias s a, j.place with
  | some x, some q, some (b, f) =>
    if x.state != .flashOnly || x.flash != some j.ver.idx then feedAll (dropJob s j)
    else
      let s : State := { s with fl.jobs := s.fl.jobs.filter fun x => x.id != j.id }
      feedAll (installBytes s { x with bank := b, frame := f } q.len fun k =>
        ((j.data.find? fun p => p.1 == k).map Prod.snd).getD (zeros 65536))
  | _, _, _ => feedAll (dropJob s j)

/-- A block that a job needs cannot be read: the request completes DATA_LOST with the block's first page. -/
def readFails (s : State) (j : FJob) (k : Nat) : State :=
  match j.kind with
  | .install r a l h i =>
    let s := dropJob s j
    match spanOf s a l h i with
    | some x => installFail s r (pageDetail x (k * pagesPerBlock x.fmt x.dim)) stLOST
    | none => feedAll s
  | .direct r u p =>
    match (reqOf s r).bind fun q => (q.units[u]?).bind fun w => w.passes[p]? with
    | some w =>
      let x := w.entry
      stopLost (dropJob s j) r (pageDetail x (k * pagesPerBlock x.fmt x.dim))
    | none => dropJob s j
  | _ => s

/-- A direct read's reservation of 128 KiB holds two decoded blocks, so a third is read once the array has left the first (R339). -/
def readsOn (j : FJob) : Bool := match j.kind with | .direct _ _ _ => decide (j.data.length < 2) | _ => true

/-- The next block of an install or a direct read has been read. -/
def readDone (s : State) (j : FJob) (e : FlashEnv) : State :=
  match j.kind, j.todo with
  | .flush _ _ _ _ _ _ _, _ => s
  | _, [] => s
  | _, k :: rest =>
    if !jobLive s j then dropJob s j
    else match readBlock s j.ver k e with
      | (none, s) =>
        let (op, slot, lease) := reqTags s (jobReq j)
        let s := if j.ver.blocks[k]? = some .lost then s else blockLost s j.ver k e.level 2 op slot lease
        readFails s j k
      | (some b, s) =>
        let j' := { j with todo := rest, data := j.data ++ [(k, b)] }
        match j.kind with
        | .install _ a l h i =>
          if rest.isEmpty then installDone s j' a l h i
          else { s with fl.jobs := mapIf (fun (x : FJob) => x.id == j.id) (fun _ => j') s.fl.jobs }
        | _ => { s with fl.jobs := mapIf (fun (x : FJob) => x.id == j.id) (fun _ => j') s.fl.jobs }

def execFlashReadDone (job : Nat) (e : FlashEnv) (s : State) : Host.Outcome State Fault Refusal :=
  if !serves s then .next s
  else match jobOf s job with
    | some j => if onMover s j && readsOn j then .next (readDone s j e) else .next s
    | none => .next s

/-! ## FLASH_ERASE_DONE (R364) -/

def execFlashEraseDone (seg : Nat) (ok : Bool) (s : State) : Host.Outcome State Fault Refusal :=
  match s.fl.geom with
  | none => .next s
  | some g =>
    let x := segOf s seg
    if serves s && x.use == .erasing then .next (eraseDone s g x ok) else .next s

/-! ## Garbage collection (R366) -/

def execGarbageCollection (s : State) : Host.Outcome State Fault Refusal :=
  match s.fl.geom with
  | some g => if serves s then .next (collect s g) else .next s
  | none => .next s

/-- Close a segment before its records leave it. -/
def closeSeg (s : State) (seg : Nat) : State :=
  let x := segOf s seg
  if x.use == .flush || x.use == .reloc then setSeg s { x with use := .closed } else s

/-- READ_DISTURB: page reads of a block have reached DISTURB_LIMIT. -/
def execReadDisturb (seg : Nat) (s : State) : Host.Outcome State Fault Refusal :=
  match s.fl.profile with
  | some p =>
    if serves s && s.hl.maceT2 && decide ((segOf s seg).reads ≥ p.disturb) then
      .next (relocAll (closeSeg s seg) fun r => r.seg == seg)
    else .next s
  | none => .next s

/-- A record lies in one of a segment's 4 KiB frames. -/
def inFrames (weak : List Nat) (r : LogRec) : Bool :=
  weak.any fun f => decide (r.off / 4096 ≤ f ∧ f ≤ (r.off + recBytes r.payload.length - 1) / 4096)

/-- Blocks whose records lie in frames of a segment that cannot be read are lost (R356, R357). -/
def losePages (s : State) (seg : Nat) (f : SegFind) : State :=
  s.fl.objs.foldl (fun s v => (v.blocks.mapIdx fun i b => (i, b)).foldl (fun s p => match p.2 with
    | .at l => match recOf s l with
      | some r => if r.seg == seg && inFrames f.bad r then blockLost s v p.1 f.level 8 0 0 0 else s
      | none => s
    | _ => s) s) s

/-- READ_REFRESH reads the valid pages of one segment. -/
def execReadRefresh (seg : Nat) (found : SegFind) (s : State) : Host.Outcome State Fault Refusal :=
  match s.fl.geom with
  | some g =>
    if serves s && s.hl.maceT2 then
      let x := segOf s seg
      let s := if x.fill = 0 then s else setSeg s { x with reads := x.reads + ceilDiv x.fill (max 1 g.pageMain) }
      .next (relocAll (losePages { s with fl.walk := seg + 1 } seg found) fun r =>
        r.seg == seg && inFrames found.weak r && !inFrames found.bad r)
    else .next s
  | none => .next s

/-- WEAR_LEVELLING on LUN number `i`: the segment with the lowest erase count among those in use, where a count of the LUN exceeds it
by more than 10 % of ENDURANCE. -/
def levelWear (s : State) (g : FlashGeom) (p : Profile) (i : Nat) : State :=
  let xs := s.fl.segs.filter fun x => segLun x.id == segLun (lunSeg g i 0)
  let low := (sortBy (fun (a b : Seg) => decide (a.erases < b.erases) || (a.erases == b.erases && decide (a.id < b.id)))
    (xs.filter fun x => x.use == .closed)).head?
  match low with
  | none => s
  | some x => if (maxNat (xs.map Seg.erases) - x.erases) * 10 > p.endurance then relocAll s fun r => r.seg == x.id else s

def execWearLevelling (lun : Nat) (s : State) : Host.Outcome State Fault Refusal :=
  match s.fl.geom, s.fl.profile with
  | some g, some p => if serves s && s.hl.maceT2 && decide (lun < lunCount g) then .next (levelWear s g p lun) else .next s
  | _, _ => .next s

/-! ## BLOCK_REPAIR (R357) -/

/-- The index entry of a lost block is marked lost (R344). -/
def markBlock (s : State) (v : FObj) (i : Nat) : State := setObj s { v with blocks := v.blocks.set i .lost }

def repairBlock (s : State) (v : FObj) (i : Nat) : State :=
  let done := fun (s : State) => { s with fl.repair := s.fl.repair.filter fun p => p != (v.idx, i) }
  match s.sq.spans.find? fun x => x.flash == some v.idx && x.state == .resident with
  | none => done (markBlock s v i)
  | some x =>
    let n := pagesPerBlock x.fmt x.dim
    let ps := (x.pages.drop (i * n)).take n
    if ps.any dirty then done (markBlock s v i)
    else match moverBlock s x i (capOf ps) with
      | (none, s) => done (markBlock s v i)
      | (some raw, s) => match takeCtr s v.tenant with
        | none => s
        | some (k, s1) =>
          let w := { v with gen := (v.gen + 1) % 65536 }
          let sealed := sealBlock k.key (sealHead k.ctr w.gen k.gen s.pw.node (capOf ps) false i) w.spanId (aadOf w)
            (raw ++ u32 (crc32c raw) ++ u32 65536)
          match writeVersion s1 (settleTable s { w with blocks := w.blocks.set i .unwritten }) i sealed with
          | none => s
          | some (w, _, s2) => if t2Fits s2 w then done (setObj s2 w) else s

def execBlockRepair (obj block : Nat) (s : State) : Host.Outcome State Fault Refusal :=
  if !serves s || !s.fl.repair.contains (obj, block) || objFlushing s obj then .next s
  else match objOf s obj with
    | some v => .next (repairBlock s v block)
    | none => .next { s with fl.repair := s.fl.repair.filter fun p => p != (obj, block) }

/-! ## RE_KEY_WALK (R500) -/

/-- Key generation of a block's seal. -/
def blockKeyGen (s : State) (b : BlkRef) : Option Nat :=
  match b with
  | .at l => (recOf s l).map fun r => fld (sealedOf r) 6 2
  | _ => none

/-- The object has a block under a generation other than the newest. -/
def oldKeyed (s : State) (v : FObj) (gen : Nat) : Bool :=
  v.blocks.any fun b => match blockKeyGen s b with | some k => k != gen | none => false

/-- Order of the walk: spans by index, replicas by source and handle, stored objects by kind and id. -/
def walkKey (v : FObj) : Nat × Nat × Nat :=
  match v.kind with
  | .span => (0, v.idx, 0)
  | .replica src seq _ => (1, src, seq)
  | .stored k id => (2, kindCode k, id)

def walkBefore (a b : FObj) : Bool :=
  let x := walkKey a
  let y := walkKey b
  decide (x.1 < y.1) || (x.1 == y.1 && (decide (x.2.1 < y.2.1) || (x.2.1 == y.2.1 && (decide (x.2.2 < y.2.2) ||
    (x.2.2 == y.2.2 && decide (a.idx < b.idx))))))

/-- The plaintext of a block of any object that passes R356. -/
def plainOf (s : State) (v : FObj) (t : Tenant) (i : Nat) (r : LogRec) : Option Bytes :=
  match v.kind with
  | .stored _ _ => match openSealed t noSpan (storedAad v) r.payload with
    | some pt =>
      let c := pt.take (pt.length - 12)
      let tr := pt.drop (pt.length - 12)
      if fld tr 0 4 = i && fld tr 4 4 = crc32c c && fld tr 8 4 = c.length then some pt else none
    | none => none
  | _ => match openBlock s v i with
    | none => none
    | some _ =>
      if r.typ = 3 then openSealed t (fld r.payload 8 6) (cut r.payload 8 16) (sealedOf r)
      else openSealed t v.spanId (aadOf v) (sealedOf r)

/-- Re-seal one block under the newest generation: the new reference; none where no counter or segment is left. -/
def rekeyBlock (s : State) (v : FObj) (gen i : Nat) (b : BlkRef) : Option (BlkRef × State) :=
  match b with
  | .at l => match recOf s l, tenantOf s v.tenant with
    | some r, some t =>
      let old := sealedOf r
      let stored := match v.kind with | .stored _ _ => true | _ => false
      if fld old 6 2 = gen && !stored then some (b, s)
      else match plainOf s v t i r with
        | none => some (.lost, blockLost s v i 0 2 0 0 0)
        | some pt => match takeCtr s v.tenant with
          | none => none
          | some (k, s) =>
            let bgen := if stored then 0 else v.gen
            let hd := sealHead k.ctr bgen k.gen s.pw.node (fld old 0xA 2) (flagAt old 0xC 0) (fld old 0xD 1)
            let (span, aad, top) : Nat × Bytes × Bytes :=
              if stored then (noSpan, storedAad v, [])
              else if r.typ = 3 then (fld r.payload 8 6, cut r.payload 8 16, r.payload.take 64)
              else (v.spanId, aadOf v, [])
            match logAppend s false r.typ r.block r.obj bgen (top ++ sealBlock k.key hd span aad pt) none with
            | some (n, s) => some (.at n.lsn, s)
            | none => none
    | _, _ => some (b, s)
  | _ => some (b, s)

def rekeyBlocks (v : FObj) (gen : Nat) : List (Nat × BlkRef) → List BlkRef → State → Option (List BlkRef × State)
  | [], acc, s => some (acc, s)
  | (i, b) :: rest, acc, s => match rekeyBlock s v gen i b with
    | some (c, s) => rekeyBlocks v gen rest (acc ++ [c]) s
    | none => none

/-- The next object of the walk; the position is journalled (R499). -/
def rekeyStep (s : State) (t : Tenant) (gen : Nat) : State :=
  let vs := sortBy walkBefore (s.fl.objs.filter fun v => v.tenant == t.id && oldKeyed s v gen)
  match vs with
  | [] => if s.fl.jobs.any fun j => j.tenant == t.id && !j.todo.isEmpty then s
          else saveCfg (mapTenant s t.id fun k => { k with rekey := false })
  | _ => match vs.find? fun v => !objFlushing s v.idx && !(s.fl.repair.any fun p => p.1 == v.idx) with
    | none => s
    | some v =>
      let w := { v with gen := (v.gen + 1) % 65536 }
      match rekeyBlocks w gen (w.blocks.mapIdx fun i b => (i, b)) [] s with
      | none => s
      | some (bs, s') => match publishVer s' { w with blocks := bs } with
        | some s' => saveCfg (mapTenant s' t.id fun k => { k with rekeyPos := k.rekeyPos + 1 })
        | none => s

def execReKeyWalk (tenant : Nat) (s : State) : Host.Outcome State Fault Refusal :=
  if !serves s then .next s
  else match tenantOf s tenant with
    | some t => match t.rekey && !t.dying, newestKey t with
      | true, some k => .next (rekeyStep s t k.gen)
      | _, _ => .next s
    | none => .next s

/-! ## SAVE_AREA_ERASE (R368) -/

/-- The area that holds an image is erased; a block that fails its erase is replaced by one of a free log segment. -/
def eraseArea (s : State) (g : FlashGeom) (ok : Bool) : State :=
  let s := if ok then s
    else
      let s := flashFault s 0 none
      match pickOf s ((List.range (lunCount g)).filter fun i => (freeSeg s g i).isSome) with
      | some (i, s) => match freeSeg s g i with
        | some x => setSeg s { x with use := .retired }
        | none => s
      | none => s
  let s : State :=
    if s.fl.areaA.image.isSome then { s with fl.areaA := { erased := true } } else { s with fl.areaB := { erased := true } }
  noteSave s

def execSaveAreaErase (ok : Bool) (s : State) : Host.Outcome State Fault Refusal :=
  match s.fl.geom with
  | some g =>
    if serves s && s.fl.journalled && (s.fl.areaA.image.isSome || s.fl.areaB.image.isSome) then .next (eraseArea s g ok) else .next s
  | none => .next s

end Sys2Proof.Machine
end

