-- ==== Sys2Proof/Machine/Mace.lean ====
section
/-! DEFINITION. Mace in T1 (R527, R528, R519), bank retirement (R64 to R66, R531), background zeroing (R504), and the fail-stop that an
uncorrectable frame of the node reserve causes (R536, R537). -/

namespace Sys2Proof.Machine

open Sys2Proof

/-! ## Fail-stop (R30, R537) -/

/-- Every stack enters self-refresh. -/
def allSelfRefresh (s : State) : State :=
  (List.range 18).foldl (fun s i => setStack s { stackOf s i with selfRefresh := true, srSince := s.now }) s

/-- SOURCE of the FATAL record of a cause (R536, Table 18-5). -/
def fatalSource (code : Nat) : Nat := if code = 1 then 8 else if code = 2 then 2 else 9

/-- Engines and sequencers halt: requests in flight end with no record (R31), bank operations already issued are complete. -/
def dropFlight (s : State) : State :=
  let bank := fun (k : Bank) => { k with queue := [], backlog := [], pins := [], running := none, held := false, pass := none,
                                         refreshing := false, clear := false }
  { s with eng.reqs := [], eng.walks := [], eng.waits := [], arr.jobs := [], mem.banks := s.mem.banks.map bank }

/-- Movers halt and publish nothing: unprogrammed records of flushes do not count, open segments are closed, and frames that an install
has taken go back (R361, R564). -/
def haltMovers (s : State) : State :=
  let s := s.fl.jobs.foldl freePlace s
  let cutOff := s.fl.jobs.flatMap fun j => match j.kind with | .flush _ _ _ _ _ _ _ => j.todo | _ => []
  let page := fun (p : PageSt) => { p with snap := none, lw := 16 }
  let span := fun (x : Span) => { x with pages := x.pages.map page }
  let seg := fun (x : Seg) => if x.use == .flush || x.use == .reloc then { x with use := .closed } else x
  { s with fl.log := s.fl.log.filter fun r => !cutOff.contains r.lsn, fl.jobs := [], fl.space := [], fl.segs := s.fl.segs.map seg,
           sq.spans := s.sq.spans.map span }

/-- Steps 1 to 5 of R537. -/
def failStop (s : State) (f : FailRegs) : State :=
  let s := haltMovers (dropFlight (setBand (dropLink s) 3))
  let s := logErr s { recno := 0, time := 0, cls := 3, source := fatalSource f.code, code := f.code,
                      loctype := if f.code = 2 then 0 else 3, loc := if f.code = 2 then f.npa else 0 }
  let s := allSelfRefresh s
  { s with pw.boot := .failStop, pw.failN := true, pw.thermtrip := s.pw.thermtrip || f.code == 3, pw.fail := f }

/-! ## Tree frames on Mace's walk (R211, R215, R248) -/

/-- Clear the stale edges of a sequence-tree node and recompute it and its ancestors. -/
def clearStale (s : State) (n : TreeNode) : State :=
  if staleKids s n = 0 then s
  else
    let live := fun (p : Ptr) => if ptrLive s p then some p else none
    recomputeUp 5 n.slot (recompute (setNode s { n with kids := n.kids.map fun k => k.bind live }) n.slot)

/-- The same for a collection's node, with the compaction of a leaf. -/
def tidyColl (s : State) (c : Coll) (slot : Nat) : State :=
  match cnode c slot with
  | none => s
  | some n =>
    let kids := liveKids s n
    let c := if kids.length = n.kids.length then c else revalue s (putNode c { n with kids := kids })
    compactLeaf (setColl s c) c slot

/-- A VALID pointer or a directory entry addresses the slot. -/
def slotNamed (s : State) (slot : Nat) : Bool :=
  (s.sq.nodes.any fun n => (kidPtrs n).any fun p => p.slot == slot) || (s.sq.roots.any fun r => r.ptr.slot == slot) ||
  (s.sq.colls.any fun c => c.root.map Ptr.slot == some slot || c.nodes.any fun n => n.kids.any fun p => p.slot == slot)

/-- A tree frame whose slots are all free and addressed by no pointer goes back (R211). -/
def reapTree (s : State) (r : Region) : State :=
  let mine := fun (x : TreeSlot) => x.slot / 2 ^ 17 == r.bank && decide (r.first ≤ x.slot / 2 % 2 ^ 16 ∧ x.slot / 2 % 2 ^ 16 < r.first + r.frames)
  if s.sq.slots.any fun x => mine x && (x.used || slotNamed s x.slot) then s
  else freeRegion { s with sq.slots := s.sq.slots.filter fun x => !mine x } r

/-- The duties at a frame of a tree region. -/
def tidyFrame (s : State) (b f : Nat) : State :=
  match s.mem.regions.find? fun r => r.use == .tree && r.bank == b && decide (r.first ≤ f ∧ f < r.first + r.frames) with
  | none => s
  | some r =>
    let s := [slotNo b f 0, slotNo b f 1].foldl (fun s slot =>
      let s := match nodeAt s slot with | some n => clearStale s n | none => s
      (s.sq.colls.filter fun c => (cnode c slot).isSome).foldl (fun s c => tidyColl s c slot) s) s
    reapTree s r

/-! ## One frame (R527) -/

/-- The span in T1 that a frame belongs to. -/
def spanAt (s : State) (b f : Nat) : Option Span :=
  s.sq.spans.find? fun x => (x.state == .resident || x.state == .moving) && x.bank == b &&
    decide (x.frame ≤ f ∧ f < x.frame + spanFrames x.fmt x.dim)

/-- Pages of a span with bytes in a frame; those whose last byte it holds. -/
def pagesIn (x : Span) (f : Nat) (wholly : Bool) : List Nat :=
  let pb := pageBytes x.fmt x.dim
  let lo := (f - x.frame) * 4096
  (List.range 64).filter fun p =>
    if wholly then decide (lo < (p + 1) * pb ∧ (p + 1) * pb ≤ lo + 4096) else decide (p * pb < lo + 4096 ∧ lo < (p + 1) * pb)

/-- A page found uncorrectable by Mace is repaired from T2 or receives a loss mark (R523). -/
def macePage (s : State) (x : Span) (f source p : Nat) : State :=
  if isLost s x p then s
  else match refetch s x p with
    | some s => uncorrectable s x.bank f source 8 (some x.tenant) true false (pageDetail x p) 0 0 0
    | none => uncorrectable (markLost s x p) x.bank f source 8 (some x.tenant) false true (pageDetail x p) 0 0 0

/-- Frames of the node reserve, a share moved out of a retired bank among them (R41, R515; log entry 111). -/
def isReserve (s : State) (b f : Nat) : Bool := (sealedRegion s b f).map Region.use == some .reserve

/-- Guest addresses of a frame of a partition's private memory are poisoned (R316). -/
def poisonFrame (s : State) (r : Region) (f : Nat) : State :=
  match guestOf s r.owner with
  | none => s
  | some k =>
    let before := (privatePool s k).takeWhile (· != r)
    let at_ := privateBase + 4096 * (sumBy dataFrames before + (f - r.first))
    mapPart s k.id fun k => { k with poison := distinct (k.poison ++ linesOf at_ 4096) }

/-- An object of whose frames one cannot be read is marked lost (Table 18-3). -/
def objLost (s : State) (r : Region) : State :=
  let hit := fun (o : Obj) => o.tenant == r.tenant && objUse o.kind == r.use && objOwner o == r.owner
  { s with sq.objs := mapIf hit (fun (o : Obj) => { o with lost := true }) s.sq.objs }

/-- Vector records that lie in a frame. -/
def vectorsIn (s : State) (b f : Nat) : List (Coll × VecEnt) :=
  s.sq.colls.flatMap fun c => (c.nodes.flatMap CollNode.ents).filterMap fun e =>
    if e.live && e.bank == b && e.addr / 4096 == f then some (c, e) else none

/-- An uncorrectable frame met by Mace, or by a retirement copy (R522, R523). A weight frame stays as it is, so that each use of its tile
meets it again. -/
def maceBad (s : State) (b f : Nat) : State :=
  if isReserve s b f then failStop s { code := 2, npa := npa b f 0 }
  else match spanAt s b f with
    | some x => (pagesIn x f false).foldl (fun s p => macePage s x f (if x.strength = 0 then 1 else 2) p) s
    | none => match vectorsIn s b f with
      | (c, e) :: rest =>
        let s := uncorrectable (markVector s c.id e.vid) b f 1 8 (some c.tenant) false true (vecDetail c e.vid) 0 0 0
        rest.foldl (fun s p => uncorrectable (markVector s p.1.id p.2.vid) b f 1 8 (some p.1.tenant) false true (vecDetail p.1 p.2.vid) 0 0 0) s
      | [] => match s.mem.regions.find? fun r => r.holds b f with
        | some r =>
          let src := if r.strength = 0 then 1 else 2
          let log := fun (s : State) => uncorrectable s b f src 8 (some r.tenant) false (r.use == .weights) 0 0 0 0
          match r.use with
          | .tree =>
            let pages := [slotNo b f 0, slotNo b f 1].filter fun n => s.sq.nodes.any fun x => x.slot == n
            let colls := [slotNo b f 0, slotNo b f 1].filter fun n => s.sq.colls.any fun c => c.nodes.any fun x => x.slot == n
            if pages.isEmpty && colls.isEmpty then uncorrectable s b f 2 8 (some r.tenant) true false 0 0 0 0
            else colls.foldl (fun s n => (rebuildColl s n 8).2) (pages.foldl (fun s n => (rebuildNode s n 8).2) s)
          | .plan => objLost (log s) r
          | .table => objLost (log s) r
          | .service => poisonFrame (log s) r f
          | _ => log s
        | none => uncorrectable s b f 1 8 none false false 0 0 0 0

/-- Mace reads one frame, and writes it back where it was corrected or queued. -/
def maceFrame (s : State) (b f : Nat) (e : FrameEnv) : State :=
  let queued := s.hl.repairs.any fun r => r.bank == b && r.frame == f
  let s : State := { s with hl.repairs := s.hl.repairs.filter fun r => !(r.bank == b && r.frame == f) }
  if isReserve s b f && e.ue then maceBad s b f
  else
    let (rd, s) := readFrame s b f e 8
    match rd.bytes with
    | none => maceBad s b f
    | some v =>
      let s := if rd.fixed || queued then writeFrame s b f v else s
      match spanAt s b f with
      | some x =>
        if x.strength = 0 then
          (pagesIn x f true).foldl (fun s p =>
            match readPage s x p cleanFrame 8 with
            | (⟨some _, _⟩, s) => s
            | (⟨none, src⟩, s) => macePage s x f src p) s
        else s
      | none => tidyFrame s b f

def walkAt (s : State) (b : Nat) : Nat := ((s.hl.walk.find? fun p => p.1 == b).map Prod.snd).getD 0

/-- The pass ends when every bank in service has been read through; the next starts (R527). -/
def passStep (s : State) (b f : Nat) : State :=
  let w := (s.hl.walk.filter fun p => p.1 != b) ++ [(b, f + 1)]
  let s : State := { s with hl.walk := w }
  if f + 1 < frameCount then s
  else if (List.range bankCount).all fun i => (bankOf s i).retired || decide (frameCount ≤ walkAt s i) then
    { s with hl.walk := [], hl.passEnd := s.now }
  else s

/-- MACE_T1_FRAME (R527, R528). -/
def execMaceT1Frame (b : Nat) (e : FrameEnv) (s : State) : Host.Outcome State Fault Refusal :=
  if b < bankCount then
    let f := walkAt s b
    if s.hl.maceT1 && atBreak s b && decide (f < frameCount) then .next (passStep (maceFrame s b f e) b f) else .next s
  else .fault .noSuchBank

/-- MACE_REPAIR (R519): it runs though the walk is stopped. -/
def execMaceRepair (b : Nat) (s : State) : Host.Outcome State Fault Refusal :=
  if b < bankCount then
    match s.hl.repairs.find? fun r => r.bank == b with
    | some r => if atBreak s b then .next (maceFrame s b r.frame cleanFrame) else .next s
    | none => .next s
  else .fault .noSuchBank

/-! ## Background zeroing (R25, R42, R504) -/

/-- BACKGROUND_ZEROING of a tenant's freed frames. -/
def zeroFreed (s : State) (t : Nat) : State :=
  let s := (s.mem.freed.filter fun x => x.tenant == t && canZero s x).foldl zeroRun s
  dropTenant (reapColls (reapSeqs s)) t

def execBackgroundZeroing (tenant : Nat) (s : State) : Host.Outcome State Fault Refusal :=
  if serves s then .next (zeroFreed s tenant) else .next s

/-! ## Bank retirement (R64 to R66, R531) -/

/-- The bank that its stack retires now: the earliest trigger. -/
def retiresNow (s : State) (b : Nat) : Option Retiring :=
  match sortBy (fun (x y : Retiring) => decide (x.time < y.time)) (s.hl.retiring.filter fun r => r.bank / 512 == b / 512) with
  | r :: _ => if r.bank = b then some r else none
  | [] => none

/-- A migration keeps the span MOVING (R438). -/
def frozen (s : State) (x : Span) : Bool :=
  match (seqByAlias s x.als).bind fun q => migOf s q.handle with
  | some m => m.source && (m.state == .frozen || (m.state == .freezing && m.waitUntil == 0))
  | none => false

/-- Page steps in a span that becomes MOVING: those no operation of which has begun wait for the new entry (R53); true where others still
run on the old frames. -/
def holdSteps (s : State) (x : Span) : State × Bool :=
  let k := bankOf s x.bank
  (s.eng.reqs.filter fun r => r.op == 0x10 && apLayer r.body == x.layer).foldl (fun (a : State × Bool) r =>
    match seqAny a.1 r.handle with
    | none => a
    | some q =>
      if q.als != x.als then a
      else (r.pages.mapIdx fun i w => (i, w)).foldl (fun (a : State × Bool) p =>
        let (i, w) := p
        if w.stage != 1 || w.head != x.head || w.span != x.idx then a
        else
          let own : Own := .page r.id i
          let all := if x.strength = 0 then (storeOps x w.page w.row (List.replicate w.rows ([], [])) ++ sketchOps q x w.page 0).length
            else (pageFrames x w.page).length
          let still := if x.strength = 0 then ((k.queue ++ k.backlog).filter fun o => o.own == own).length
            else (k.pins.filter fun j => j.own == own && j.write.isNone).length
          if still = all then
            let s := cutOps a.1 (fun _ o => o.own == own) fun j => j.own == own
            (mapReq (setStep s r.id i fun w => { w with stage := 0 }) r.id fun r =>
              if r.phase == .running then { r with phase := .moving } else r, a.2)
          else (a.1, true)) a) (s, false)

/-- Copy one page to the new frames with its sketch; a page that cannot be read keeps its loss mark (R64 step 2). -/
def copyPage (s : State) (x y : Span) (p : Nat) : State :=
  let pb := pageBytes x.fmt x.dim
  let (v, s) := pageGet s x p 6
  let s := writePage s y p (v.getD (t1Read s x.bank (x.frame * 4096 + p * pb) pb))
  match loadSk s x p, seqByAlias s x.als with
  | some k, _ => storeSk s y p k
  | none, some q => (pinSketch s q y p (writtenRows x p) 6).2
  | none, none => s

/-- Copy a span out of a retiring bank and publish its new entry; none where no bank can hold it, or writes to it still run. -/
def moveSpan (s : State) (x : Span) : State × Bool :=
  let st := kvStrength s x.tenant
  let keep := frozen s x
  match holdSteps s x with
  | (s, true) => (s, false)
  | (s, false) => match placeIn s x.tenant (spanRun x.fmt x.dim st) st .span x.als (spanBanks x.als x.layer x.head x.idx) with
    | none => (s, false)
    | some (r, s) =>
      let y := { x with bank := r.bank, frame := r.first, strength := st }
      let s := (List.range 64).foldl (fun s p => copyPage s x y p) s
      match spanOf s x.als x.layer x.head x.idx with
      | none => (s, true)
      | some z =>
        let s := match spanRegion s z with
          | some g => freeRegion s g
          | none => s
        (touchSpan (publish s { z with bank := r.bank, frame := r.first, strength := st, state := if keep then .moving else .resident }) x, true)

/-- The frames of one region take the contents of another's; a frame that cannot be read is reported and stays unreadable. -/
def moveFrames (s : State) (r n : Region) : State :=
  let k := dataFrames r
  (List.range k).foldl (fun s i => match readRun s r.bank (r.first + i) 1 cleanFrame 6 with
    | (some v, s) => writeFrame s n.bank (n.first + i) v
    | (none, s) =>
      let s := maceBad s r.bank (r.first + i)
      let s := t1Write s n.bank ((n.first + i) * 4096) (t1Read s r.bank ((r.first + i) * 4096) 4096)
      if r.strength = 0 then ueMark s n.bank (n.first + i)
      else t1Write s n.bank (checkAddr n.first k r.strength i) (t1Read s r.bank (checkAddr r.first k r.strength i) (checkLen r.strength))) s

/-- A region takes the place of another in the order of its object; the old frames wait for older requests (R25). -/
def swapRegion (s : State) (old new : Region) : State :=
  let s := freeRegion { s with mem.regions := (s.mem.regions.erase new).map fun g => if g == old then new else g } old
  { s with sq.gen := s.sq.gen + 1 }

/-- Move a region of an object held in several (R49; log entry 15). -/
def movePool (s : State) (r : Region) (banks : List Nat) : State × Bool :=
  match placeIn s r.tenant r.frames r.strength r.use r.owner banks with
  | none => (s, false)
  | some (n, s) => (swapRegion (moveFrames s r n) r n, true)

/-- Move a workspace row, with the copies that its bank needs (R285, R286). -/
def moveRow (s : State) (r : Region) : State × Bool :=
  let plan := r.owner % 256
  let i := r.owner / 256 / 2048
  let k := r.owner / 256 % 2048
  let copies := s.mem.regions.filter fun g => g.use == .copy && g.tenant == r.tenant && g.owner % 256 == plan && g.bank == r.bank
  let sets := copies.flatMap fun g =>
    (s.sq.objs.filter fun o => o.kind == .weight && o.tenant == r.tenant && o.id + 65536 * o.born == g.owner / 512).map fun o =>
      (g.owner / 256 % 2 == 1, o)
  match placeRow r.tenant plan i k r.frames ((workBase r.tenant i + k) % 9216) sets s with
  | none => (s, false)
  | some s => match s.mem.regions.find? fun g => g.use == .workspace && g.tenant == r.tenant && g.owner == r.owner && g != r with
    | some n => (swapRegion (moveFrames s r n) r n, true)
    | none => (s, false)

/-- A copy goes with the last row of its plan in the bank. -/
def dropCopy (s : State) (r : Region) : State × Bool :=
  if s.mem.regions.any fun g => g.use == .workspace && g.tenant == r.tenant && g.owner % 256 == r.owner % 256 && g.bank == r.bank then (s, false)
  else (freeRegion s r, true)

/-- Move the records of a frame of a collection, each to a place under R233; a record that cannot be read keeps its loss mark. -/
def moveRecords (s : State) (r : Region) : State × Bool :=
  match collAny s r.owner with
  | none => (s, false)
  | some c =>
    let es := (c.nodes.flatMap CollNode.ents).filter fun e => r.holds e.bank (e.addr / 4096)
    let (s, ok) := es.foldl (fun (a : State × Bool) e =>
      match collAny a.1 r.owner with
      | none => a
      | some c => match placeRecord a.1 c e.vid with
        | none => (a.1, false)
        | some (b, addr, s) =>
          let bad := ueIn s e.bank e.addr (recSize c)
          let s := pinWrite s b addr (t1Read s e.bank e.addr (recSize c))
          let ent := fun (x : VecEnt) =>
            if x.bank = e.bank && x.addr = e.addr then { x with bank := b, addr := addr, lost := x.lost || bad } else x
          let node := fun (x : CollNode) => { x with ents := x.ents.map ent }
          let s := if bad then uncorrectable s e.bank (e.addr / 4096) 1 6 (some c.tenant) false true (vecDetail c e.vid) 0 0 0 else s
          (setColl s { c with nodes := c.nodes.map node }, a.2)) (s, true)
    if ok then ({ freeRegion s r with sq.gen := s.sq.gen + 1 }, true) else (s, false)

/-- Slots of a tree region. -/
def slotsIn (s : State) (r : Region) : List TreeSlot :=
  s.sq.slots.filter fun x => r.holds (x.slot / 2 ^ 17) (x.slot / 2 % 2 ^ 16)

/-- Move the nodes of a tree region to slots of GEN 0 in a new one; the old nodes stay for the walks that started before (R211, R229). -/
def moveTree (s : State) (r : Region) : State × Bool :=
  if (slotsIn s r).all fun x => !x.used || x.moved.isSome then (s, false)
  else match placeIn s r.tenant r.frames r.strength .tree r.owner (bankOrder (s.sq.turn % 9216)) with
    | none => (s, false)
    | some (n, s) =>
      let s := (List.range (dataFrames r)).foldl (fun s i => match readRun s r.bank (r.first + i) 1 cleanFrame 6 with
        | (some _, s) => s
        | (none, s) => maceBad s r.bank (r.first + i)) s
      let xs := (slotsIn s r).filter fun x => x.moved.isNone
      let here := fun (k : Nat) => xs.any fun x => x.slot == k
      let re := fun (k : Nat) => slotNo n.bank (k / 2 % 2 ^ 16 - r.first + n.first) (k % 2)
      let ptr := fun (p : Ptr) => if here p.slot then (if ptrLive s p then some ⟨re p.slot, 0⟩ else none) else some p
      let node := fun (x : TreeNode) => { x with slot := if here x.slot then re x.slot else x.slot, kids := x.kids.map fun k => k.bind ptr }
      let cn := fun (x : CollNode) => { x with slot := if here x.slot then re x.slot else x.slot, kids := x.kids.filterMap ptr }
      let coll := fun (c : Coll) => { c with root := c.root.bind ptr, nodes := c.nodes.map cn,
                                             old := c.old ++ c.nodes.filter fun x => here x.slot }
      let new := xs.map fun x => { x with slot := re x.slot, gen := 0 }
      let keep := fun (x : TreeSlot) => if here x.slot && x.used then { x with moved := some s.sq.gen } else x
      let nodes := s.sq.nodes.map node
      let roots := s.sq.roots.filterMap fun t => (ptr t.ptr).map fun p => { t with ptr := p }
      let changed := (s.sq.nodes.zip nodes).filter fun p => p.1 != p.2
      let cchanged := s.sq.colls.flatMap fun c => (c.nodes.filter fun x => cn x != x).map fun x => ((cn x).slot, nodeSlots c x.level)
      let s : State := { s with sq.nodes := nodes, sq.old := s.sq.old ++ s.sq.nodes.filter (fun x => here x.slot), sq.roots := roots,
                                sq.slots := s.sq.slots.map keep ++ new, sq.colls := s.sq.colls.map coll, sq.turn := s.sq.turn + 1,
                                sq.gen := s.sq.gen + 1 }
      let s := changed.foldl (fun s p => writeSlots s p.2.slot 1) s
      (cchanged.foldl (fun s p => writeSlots s p.1 p.2) s, true)

/-- Free the old slots whose last walk has ended, then the tree frames that hold none any more (R211, R229). -/
def dropMoved (s : State) (b : Nat) : State :=
  let ended := fun (g : Nat) => !(s.eng.walks.any fun w => decide (w.gen ≤ g)) &&
    !(s.eng.reqs.any fun r => r.coll.isSome && decide (r.snapGen ≤ g))
  let gone := (s.sq.slots.filter fun x => x.slot / 2 ^ 17 == b && (match x.moved with | some g => ended g | none => false)).map TreeSlot.slot
  let s := gone.foldl (fun s n => dropCollSlot (dropSlot s n) n) s
  (s.mem.regions.filter fun r => r.use == .tree && r.bank == b).foldl reapTree s

/-- The share of the node reserve of a stack-0 bank moves to other stack-0 banks: in one run, or in runs of 22 frames (R41, R139; log
entry 111). -/
def moveShare (s : State) (b : Nat) : State × Bool :=
  if b ≥ 512 || s.mem.regions.any (fun g => g.use == .reserve && g.owner == b) then (s, true)
  else
    let whole := (placeIn s nodeTenant 2048 4 .reserve b (List.range 512)).map Prod.snd
    let pieces := (List.replicate 93 22 ++ [2]).foldl (fun (a : Option State) k =>
      a.bind fun s => (placeIn s nodeTenant k 4 .reserve b (List.range 512)).map Prod.snd) (some s)
    match whole.orElse fun _ => pieces with
    | none => (s, false)
    | some s =>
      let s := (List.range (dataFrames (reserveShare b))).foldl (fun s i => match readRun s b (720 + i) 1 cleanFrame 6 with
        | (some v, s) => poolWrite s (poolOf s .reserve nodeTenant b) (4096 * i) v 6
        | (none, s) => maceBad s b (720 + i)) s
      (s, s.pw.boot == .running)

/-- Frames that an install has allocated in the bank are allocated elsewhere; nothing stands in them yet. -/
def movePlaces (s : State) (b : Nat) : State :=
  s.fl.jobs.foldl (fun s j => match j.place with
    | some (pb, f) => match s.mem.regions.find? fun r => r.use == .span && r.bank == pb && r.first == f with
      | some r =>
        if pb != b then s
        else match j.kind with
          | .install _ a l h i => match placeIn s r.tenant r.frames r.strength .span r.owner (spanBanks a l h i) with
            | some (n, s) =>
              let upd := fun (x : FJob) => { x with place := some (n.bank, n.first) }
              freeRegion { s with fl.jobs := mapIf (fun (x : FJob) => x.id == j.id) upd s.fl.jobs } r
            | none => s
          | _ => s
      | none => s
    | none => s) s

/-- Move one region out of a retiring bank; false where it has to stay for now. -/
def moveRegion (s : State) (r : Region) : State × Bool :=
  match r.use with
  | .span => (s, false)
  | .tree => moveTree s r
  | .vectors => moveRecords s r
  | .workspace => moveRow s r
  | .copy => dropCopy s r
  | .reserve => movePool s r (List.range 512)
  | _ => movePool s r (pieceBanks s r.tenant)

/-- A span that no bank can hold stays MOVING and goes on being read (R531). -/
def setMovingIn (s : State) (b : Nat) : State :=
  (s.sq.spans.filter fun x => x.bank == b && x.state == .resident).foldl (fun s x => publish s { x with state := .moving }) s

/-- Step 5 of R64: the record, its copy, the error record and the event. The class of the record is free (log entry 27). -/
def retired (s : State) (r : Retiring) : State :=
  let (c, s) := s.word
  let s := setBank s { bankOf s r.bank with retired := true }
  let s : State := { s with hl.retiring := s.hl.retiring.erase r, mem.freed := s.mem.freed.filter fun x => x.bank != r.bank,
                            hl.repairs := s.hl.repairs.filter fun x => x.bank != r.bank }
  let s := logErr s { recno := 0, time := 0, cls := c % 4, source := 11, loc := npa r.bank 0 0, aux := r.trigger }
  saveCfg (reapColls (reapSeqs (raise s 7 (u16 r.bank))))

/-- BANK_RETIREMENT: what is still in the bank is copied out; the bank is retired once all has gone and its old frames are free of
older requests (R64). -/
def retireBank (s : State) (r : Retiring) : State :=
  let b := r.bank
  let s := setMovingIn s b
  let s := (s.sq.spans.filter fun x => x.bank == b && x.state == .moving).foldl (fun s x => (moveSpan s x).1) s
  let s := movePlaces s b
  let (s, shared) := moveShare s b
  let order := fun (g : Region) => if g.use == .copy then 1 else 0
  let s := (sortBy (fun (x y : Region) => decide (order x < order y)) (s.mem.regions.filter fun g => g.bank == b)).foldl
    (fun s g => (moveRegion s g).1) s
  let s := dropMoved s b
  if shared && (s.mem.regions.all fun g => g.bank != b) && s.mem.freed.all (fun x => x.bank != b || genOver s x.gen) then retired s r else s

def execBankRetirement (b : Nat) (s : State) : Host.Outcome State Fault Refusal :=
  if b < bankCount then
    if !serves s then .next s
    else match retiresNow s b with
      | some r => .next (if atBreak s b then retireBank s r else s)
      | none => .next s
  else .fault .noSuchBank

end Sys2Proof.Machine
end

