-- ==== Sys2Proof/Machine/Power.lean ====
section
/-! DEFINITION. Power states (R549 to R554), the SBI timer (R298) and the wake for Mace (R553). -/

namespace Sys2Proof.Machine

open Sys2Proof

/-- Exit time of a power state in µs (Table 19-4). -/
def exitUs (p : Nat) : Nat := [0, 2, 60, 350, 2500].getD p 2500

/-- Bank operations or pin accesses wait in a stack. -/
def stackWork (s : State) (i : Nat) : Bool :=
  s.mem.banks.any fun k => k.id / 512 == i && (!k.queue.isEmpty || !k.backlog.isEmpty || !k.pins.isEmpty || k.running.isSome || k.clear)

/-- A stack leaves self-refresh, and its banks take up what waits. -/
def wakeStack (s : State) (i : Nat) : State :=
  let k := stackOf s i
  if !k.selfRefresh then s
  else
    let s := setStack s { k with selfRefresh := false, srSince := s.now }
    ((s.mem.banks.filter fun b => b.id / 512 == i).map Bank.id).foldl (fun s b => pump s b noEnv) s

def wakeAll (s : State) : State := (List.range 18).foldl wakeStack s

/-- The node is in N0 again; only the stacks that work needs wake (R552). -/
def leaveState (s : State) : State :=
  let s : State := { s with pw.pstate := 0 }
  (List.range 18).foldl (fun s i => if stackWork s i then wakeStack s i else s) s

/-- WAKE_BUDGET_SET (R550, R551). -/
def execWakeBudgetSet (c : Cmd) (s : State) : Host.Outcome State Fault Refusal :=
  .next (mailRow 0x0251 .control (fun _ => 16) (fun _ b s =>
    let us := fld b 0 4
    if us > 100000 || !inRange (fld b 4 4) 10 1000000 || !zeroAt b 8 8 then .reply s stMALFORMED []
    else
      let s : State := { s with pw.budgetUs := us, pw.dwellUs := fld b 4 4 }
      .reply (if exitUs s.pw.pstate > us then leaveState s else s) stOK []) c s)

/-- Conditions of N1 and N2: no bank operation and no array pass queued or running. -/
def idleBanks (s : State) : Bool :=
  (s.mem.banks.all fun k => k.queue.isEmpty && k.backlog.isEmpty && k.running.isNone) && s.arr.jobs.isEmpty

/-- Conditions of N4 beside those of N3; `cores` says that every core of a partition is idle in WFI. -/
def idleNode (s : State) (cores : Bool) : Bool :=
  (s.serv.parts.isEmpty || cores) && s.fl.jobs.isEmpty && s.eng.walks.isEmpty &&
  !(s.eng.reqs.any fun r => scatterOps.contains r.op && r.ctx)

/-- The deepest state whose conditions hold and whose exit time is within the budget. -/
def deepest (s : State) (cores : Bool) : Nat :=
  let ok := fun (p : Nat) => decide (exitUs p ≤ s.pw.budgetUs) && (p == 0 || idleBanks s) && (p != 4 || idleNode s cores)
  ([4, 3, 2, 1].find? ok).getD 0

/-- Stacks that a state puts in self-refresh: the cold ones, or every one but stack 0. -/
def sleeps (s : State) (p i : Nat) : Bool :=
  i != 0 && (p == 4 || (p == 3 && !(s.mem.banks.any fun k => k.id / 512 == i && !k.pins.isEmpty)))

/-- POWER_STATE_ENTRY (R551): the conditions have held for the dwell time; whether the cores idle is free (log entry 28). -/
def execPowerStateEntry (s : State) : Host.Outcome State Fault Refusal :=
  if !serves s then .next s
  else
    let (w, s) := s.word
    let p := deepest s (w % 2 == 1)
    if p ≤ s.pw.pstate then .next s
    else
      let down := fun (s : State) (i : Nat) =>
        let k := stackOf s i
        if sleeps s p i && !k.selfRefresh then setStack s { k with selfRefresh := true, srSince := s.now } else s
      .next { (List.range 18).foldl down s with pw.pstate := p }

/-- POWER_STATE_EXIT (R552); every cause begins the same exit. -/
def execPowerStateExit (v : PowerWake) (s : State) : Host.Outcome State Fault Refusal :=
  if serves s then
    let n := leaveState s
    .next (trainFail n v.train fun i => (stackOf s i).selfRefresh && !(stackOf n i).selfRefresh)
  else .next s

/-- PARTITION_TIMER (R298, R552): the node clock reaches the compare that a core has set; its supervisor timer interrupt is pending. -/
def execPartitionTimer (v : CoreEvent) (s : State) : Host.Outcome State Fault Refusal :=
  if !serves s then .next s
  else match guestRun v.part v.acts s with
    | (s, true) => .next (saveCfg s)
    | (s, false) =>
      match ((partOf s v.part).bind fun k => k.cores.find? fun c => c.num == v.core).bind CoreSt.timerAt with
      | none => .next s
      | some t => .next (leaveState (mapCore (s.at t) v.part v.core fun c => { c with timerAt := none, timerInt := true }))

/-- MACE_SELF_REFRESH_WAKE (R553): 600 s in self-refresh. -/
def execMaceSelfRefreshWake (v : StackWake) (s : State) : Host.Outcome State Fault Refusal :=
  if v.stack < 18 then
    let k := stackOf s v.stack
    if serves s && k.selfRefresh then
      .next (trainFail (wakeStack { s.at (k.srSince + 600 * 10 ^ 9) with pw.pstate := 0 } v.stack) v.train (· == v.stack))
    else .next s
  else .fault .noSuchBank

end Sys2Proof.Machine
end

