-- ==== Sys2Proof/Machine/Resets.lean ====
section
/-! DEFINITION. Resets, boot, recovery, the Clove save and what firmware restores (R340, R353, R443, R482 to R489, R499, R525, R555 to
R571, R595, R597), and the supply and clock events that start them. -/

namespace Sys2Proof.Machine

open Sys2Proof

/-! ## Halting -/

/-- Sessions, QPs, mailboxes and what runs over them are gone. -/
def dropSessions (s : State) : State :=
  { s with nuc.qps := [], nuc.ctl := [], nuc.sideband := {}, nuc.subs := [], fl.peers := [], fl.puts := [],
           sec.evidence := [], sec.lcsNonce := none, port.queues := s.port.queues.map fun q => { q with frames := [] },
           port.txSci := [], port.txSas := [], port.rxScs := [], port.txAn := none, port.txSwitch := none }

/-- What ROM handed over is gone until it runs again. -/
def dropKeys (s : State) : State :=
  { s with sec.ks := [], sec.cdi1 := [], sec.fwDig := [], sec.fwRev := 0, sec.svn := 0, sec.locked := false, sec.recState := 0,
           sec.recCause := .none, sec.recBytes := 0, sec.recLen := 0, sec.debug := false }

/-! ## Cold reset (R558, R595) -/

/-- What outlives the loss of every supply but STBY_3V3: NAND, fuses, the boot flash, the thermal readings and the registers of the
standby domain. The span table, the trees, T1 and the clock's state are lost. -/
def coldState (s : State) : State :=
  let s := dropKeys (haltMovers s)
  let f := s.fl
  let therm := fun (k : Stack) => ({ id := k.id, temp := k.temp, step := k.step, hot := k.hot } : Stack)
  { State.reset with
    clock := { now := s.clock.now }, pending := s.pending, free := s.free, sec := { s.sec with lcsNonce := none, evidence := [] },
    mem := { stks := s.mem.stks.map therm }, own := { gens := s.own.gens },
    nuc := { sbEvents := s.nuc.sbEvents, evLost := s.nuc.evLost },
    hl := { noSave := if f.areaA.erased || f.areaB.erased then none else some s.clock.now },
    pw := { dieTemp := s.pw.dieTemp, dieStep := s.pw.dieStep, thermtrip := s.pw.thermtrip, fail := s.pw.fail, save := s.pw.save,
            dynAddr := s.pw.dynAddr, eid := s.pw.eid, sent := s.pw.sent, wrstLow := s.pw.wrstLow, pwrfailLow := s.pw.pwrfailLow,
            refclk := s.pw.refclk, porstLow := true },
    port := { wire := s.port.wire, netclk := s.port.netclk },
    fl := { f with objs := [], peers := [], puts := [], migs := [], retries := [], withdraw := [], repair := [], journalled := false } }

/-- COLD_RESET (R558, R560): PORST_N falls; it is ignored while SAVE_ACT is high. -/
def execColdReset (s : State) : Host.Outcome State Fault Refusal :=
  if s.pw.boot == .off || s.pw.saveAct then .next s else .next (coldState s)

/-- STBY_3V3 leaves its range: the latched cause and the standby registers go with it (R537). -/
def standbyLost (s : State) : State :=
  let s := coldState s
  { s with nuc.sbEvents := [], nuc.evLost := false,
           pw := { boot := .off, porstLow := true, sent := s.pw.sent, wrstLow := s.pw.wrstLow, pwrfailLow := s.pw.pwrfailLow,
                   refclk := s.pw.refclk },
           mem := {} }

/-- STANDBY_POWER_LOSS (R537). -/
def execStandbyPowerLoss (s : State) : Host.Outcome State Fault Refusal := .next (standbyLost s)

/-- RAIL_COLLAPSE (R591): a save in progress stays without its commit pages. -/
def execRailCollapse (s : State) : Host.Outcome State Fault Refusal := .next (standbyLost s)

/-- STANDBY_POWER_UP (R28): the sideband answers, PORST_N is low. -/
def execStandbyPowerUp (s : State) : Host.Outcome State Fault Refusal :=
  if s.pw.boot == .off then .next { s with pw.boot := .rom, pw.porstLow := true } else .next s

/-! ## Warm reset (R555, R558) -/

/-- Where a warm reset can start (R538, R560). -/
def warmable (s : State) : Bool :=
  !s.pw.saveAct && (match s.pw.boot with | .running | .warmReset | .booting | .recovery => true | _ => false)

/-- Steps 1 and 2: arming stops, the link goes down, engines and sequencers halt, every stack enters self-refresh. Operations already
issued are complete. -/
def warmStart (s : State) : State :=
  let s := allSelfRefresh (haltMovers (dropFlight (dropLink s)))
  dropKeys { s with pw.boot := .warmReset, pw.pstate := 0 }

/-- WARM_RESET (R555): WRST_N falls. -/
def execWarmReset (s : State) : Host.Outcome State Fault Refusal :=
  if s.pw.boot == .off then .next s
  else
    let s : State := { s with pw.wrstLow := true }
    .next (if warmable s then warmStart s else s)

/-- WRST_N_RISE (R556): a warm reset held at step 2 goes on with ROM_BOOT. -/
def execWrstNRise (s : State) : Host.Outcome State Fault Refusal := .next { s with pw.wrstLow := false }

/-- RESET_WARM (R556): no reply. -/
def execResetWarm (c : Cmd) (s : State) : Host.Outcome State Fault Refusal :=
  .next (mailRow 0x0252 .control (fun _ => 0) (fun _ _ s => .silent (warmStart s)) c s)

/-- SB_CTRL_WARM (R28, R560). -/
def sbWarm (s : State) : State := if warmable s then warmStart s else s
def execSbCtrlWarm (s : State) : Host.Outcome State Fault Refusal := .next (sbWarm s)

/-! ## Register writes over the sideband (R579) -/

/-- REG_WRITE reaches SB.STATUS, SB.CTRL and SB.FAILCAUSE; anything else is MALFORMED. -/
def execRegWrite (tag addr : Nat) (data : Bytes) (s : State) : Host.Outcome State Fault Refusal :=
  if !standby s then .next s
  else if !sbOk addr data.length || !(data.isEmpty || (data.length = 8 && [0x10000, 0x10018, 0x10038].contains addr)) then
    .next (vendorReply s 0x11 tag stMALFORMED addr [])
  else
    let w := leNat data
    let s := vendorReply s 0x11 tag stOK addr []
    if data.isEmpty then .next s
    else if addr = 0x10000 then .next (if w.testBit 21 then clearEvlost s else s)
    else if addr = 0x10018 then .next (if w.testBit 63 then ackFail s else s)
    else
      let s := if w.testBit 1 then flushEvents s else s
      .next (if w.testBit 0 then sbWarm s else s)

/-! ## What firmware rebuilds at a cold reset -/

/-- Banks of the retired-bank record (R65). -/
def retireAll (s : State) (banks : List Nat) : State :=
  banks.foldl (fun s b => setBank s { bankOf s b with retired := true }) s

/-- The configuration copy takes effect (R353, R446, R499, R568). -/
def applyCfg (s : State) (c : CfgCopy) : State :=
  let queue := fun (i : Nat) (q : Queue) => match c.queues[i]? with
    | some r => { q with quantum := r.quantum, rate := r.rate, burst := r.burst, credit := r.burst, creditAt := s.now }
    | none => q
  let ptp : PtpSt := { c.ptp with good := 0, bad := 0, lastSync := none, interval := 0, offset := 0, pdelaySeq := 0, linkDelay := none,
                                  ppsHigh := none, ppsIn := [] }
  -- a journal sealed under another KS cannot be read (R482, R489, R499; log entry 122)
  let tenant := fun (t : Tenant) => { t with keys := if c.ks == s.sec.ks then t.keys else [], hold := none, killBox := none, stale := 0, ignored := 0, noRecord := 0, timedOut := 0,
                                             fenced := 0, cancelled := 0, lostCount := 0, noNotice := 0 }
  let pol := fun (p : Policer) => { p with credit := p.burst, creditAt := s.now }
  let group := fun (g : Group) => { g with allowance := c.groups.getD g.id 140,
                                           tenant := (c.tenants.find? fun t => t.groups.contains g.id).map Tenant.id }
  let s : State :=
    { s with pw.node := c.node, pw.appW := c.appW, pw.budgetUs := c.budget, pw.dwellUs := c.dwell, port.cfg := c.port, port.ptp := ptp,
             port.queues := s.port.queues.mapIdx queue, port.gclOn := c.gclOn, port.gcl := c.gcl, port.cycle := c.cycle,
             port.base := c.base, port.policers := c.policers.map pol, arr.groups := s.arr.groups.map group, hl.passMin := c.passMin,
             hl.t2Days := c.t2Days, own.tenants := c.tenants.map tenant }
  let s := c.stks.foldl (fun s p => setStack s { stackOf s p.1 with envelope := p.2 }) s
  retireAll s c.retired

/-- The error log: the copies of R525 and the tail of a save image. -/
def restoreErrs (s : State) (copies tail : List ErrRec) : State :=
  let es := copies ++ tail.filter fun e => !(copies.any fun c => c.recno == e.recno)
  let es := sortBy (fun (a b : ErrRec) => decide (a.recno < b.recno)) es
  { s with hl.errs := es, hl.nextRec := match es.getLast? with | some e => e.recno + 1 | none => 0 }

/-- The flash object map from the newest checkpoint and the records with larger LSNs (R362), without destroyed tenants (R508). -/
def rebuildMap (s : State) : List FObj :=
  let vs := s.fl.log.foldl (fun (vs : List FObj) r =>
    if r.lsn ≤ s.fl.ckLsn then vs
    else match r.typ, r.ver with
      | 1, some v => putBy (fun x => x.idx == v.idx) { v with index := r.lsn } vs
      | 4, some v => vs.filter fun x => x.idx != v.idx
      | _, _ => vs) s.fl.ckObjs
  vs.filter fun v => !(s.fl.destroyed.any fun d => d.1 == v.tenant && decide (v.index < d.2))

/-- Where the save area yields no counter: the largest CTR in the log under this node and generation, plus 2^20 (R355). -/
def logCtr (s : State) (t g : Nat) : Nat :=
  let own := s.fl.log.filter fun r => (r.typ == 2 || r.typ == 3 || r.typ == 6) && r.obj / 2 ^ 48 % 256 == t &&
    fld (sealedOf r) 6 2 == g && fld (sealedOf r) 8 2 == s.pw.node
  min 0xFFFFFFFF (own.foldl (fun m r => max m (fld (sealedOf r) 0 4)) 0 + 2 ^ 20)

def restoreCtrs (s : State) (ctrs : List (Nat × Nat × Nat)) : State :=
  let key := fun (t : Nat) (k : KeyGen) => match ctrs.find? fun c => c.1 == t && c.2.1 == k.gen with
    | some c => { k with ctr := c.2.2 }
    | none => { k with ctr := logCtr s t k.gen }
  { s with own.tenants := s.own.tenants.map fun t => { t with keys := t.keys.map (key t.id) } }

/-- Spans after a restart: those with a T2 copy FLASH_ONLY, stubs as they are, the others freed (R340). SPAN_GEN rises where STATE or
the place changes (R52). -/
def restoreSpans (s : State) (xs : List Span) (len : Nat → Nat) : List Span :=
  xs.filterMap fun x =>
    if x.state == .stub then some x
    else if !((x.flash.bind (objOf s)).isSome && s.sq.seqs.any fun q => q.als == x.als) then none
    else
      let rows := fun (p : Nat) => rowsBelow x.idx p (len x.als)
      let ps := (List.range 64).map fun p => ({ wr := rows p, drows := rows p } : PageSt)
      let gen := if x.state == .flashOnly && x.bank = 0 && x.frame = 0 then x.gen else (x.gen + 1) % 65536
      some { x with state := .flashOnly, bank := 0, frame := 0, pages := ps, gen := gen, lastRead := s.readTime }

def restartSeq (q : Seq) (n lost : Nat) : Seq :=
  { q with len := n, wBase := n, fronts := [], writer := none, lost := lost, restarted := true, rebuild := true }

/-- Sequences and spans from a save image (R340). -/
def fromImage (s : State) (g : SaveImage) : State :=
  let dl := fun (a : Nat) => ((g.durs.find? fun p => p.1 == a).map Prod.snd).getD 0
  let qs := (g.seqs.filter fun q => !q.gone).map fun q => restartSeq q (dl q.als) (q.len - dl q.als)
  let s : State := { retireAll s g.retired with fl.objs := g.objs, fl.destroyed := g.destroyed, sq.seqs := qs }
  { s with sq.spans := restoreSpans s g.spans dl }

/-- Leading positions that versions hold in every layer and KV head (R329, R346). -/
def heldAll (s : State) (vs : List FObj) (q : Seq) : Nat :=
  (List.range q.layers).foldl (fun m l => (List.range q.kvh).foldl (fun m h => min m (heldHead s vs l h (vs.length + 1) 0)) m) (2 ^ 24)

/-- A span-table entry for a version that no checkpointed entry names: the span it was created for. -/
def spanOfObj (s : State) (v : FObj) : Option Span :=
  match s.sq.seqs.find? fun q => q.handle == v.seq && q.tenant == v.tenant with
  | some q => some { als := q.als, layer := idLayer v.spanId, head := idHead v.spanId, idx := idIndex v.spanId, tenant := v.tenant,
                     gen := 0, state := .flashOnly, dim := q.dim, fmt := q.fmt, strength := v.shape / 32, bank := 0, frame := 0,
                     flash := some v.idx }
  | none => none

/-- Sequences and spans from the log alone (R571). -/
def fromLog (s : State) : State :=
  let s : State := { s with fl.objs := rebuildMap s, sq.seqs := s.fl.ckSeqs.filter fun q => !q.gone }
  let new := (s.fl.objs.filter fun v => v.kind == .span && !(s.fl.ckSpans.any fun x => x.flash == some v.idx)).filterMap (spanOfObj s)
  let old := s.fl.ckSpans.filter fun x => !(new.any x.same)
  let xs := old ++ new
  let held := fun (q : Seq) => heldAll s ((xs.filter fun x => x.als == q.als).filterMap fun x => x.flash.bind (objOf s)) q
  let lens := s.sq.seqs.map fun q => (q.als, held q)
  let len := fun (a : Nat) => ((lens.find? fun p => p.1 == a).map Prod.snd).getD 0
  let s : State := { s with sq.seqs := s.sq.seqs.map fun q => restartSeq q (len q.als) 0xFFFFFFFF }
  { s with sq.spans := restoreSpans s xs len }

/-- A stored object comes back under its id and to its frames (R261, R284 to R286); one whose chunks or digest fail, or for which T1 has no
room, is marked lost, with an error record (R353). -/
def restoreObj (s : State) (v : FObj) : State :=
  match v.kind with
  | .stored k id =>
    let got := loadStored s v
    let b := got.getD []
    let o : Obj := if k == .weight then weightObj v.tenant id 0 v.meta_ b
      else { kind := k, id := id, tenant := v.tenant, bytes := b, digest := v.tdig, store := 2 }
    let o := { o with digest := v.tdig }
    let placed := got.bind fun _ => objAlloc s o
    let o := { o with lost := placed.isNone }
    let s := (placed.map fun s => objWrite s o).getD s
    let s := if placed.isSome then s
      else logErr s { recno := 0, time := 0, cls := 1, source := 3, loctype := 1, tenant := some v.tenant,
                      loc := match recOf s v.index with | some r => locOf r | none => 0 }
    { s with sq.objs := s.sq.objs ++ [o] }
  | _ => s

/-- Weight sets come first: the copies of a plan's norms are made from them (R286). -/
def restoreObjs (s : State) : State :=
  let ks := s.fl.objs.filter fun v => match v.kind with | .stored _ _ => true | _ => false
  let weight := fun (v : FObj) => match v.kind with | .stored .weight _ => true | _ => false
  (ks.filter weight ++ ks.filter fun v => !weight v).foldl restoreObj s

/-- Partitions that the configuration copy lists restart from their images (R305, R353). -/
def restartParts (s : State) (ps : List Partition) : State :=
  ps.foldl (fun s p => match imageOf s p.tenant p.image with
    | some o => if o.lost then stopEvent s p false
      else match startPartition s o (some p.id) p.restarts with
        | some (_, s) => s
        | none => stopEvent s p false
    | none => stopEvent s p false) s

/-- Migrations after a reset (Table 15-7): a source still copying is aborted, commands without a reply are as not issued. -/
def restoreMigs (s : State) : State :=
  let dead := s.fl.migs.filter fun m => m.source && (m.state == .copying || m.state == .freezing)
  let clean := fun (m : Mig) => { m with box := none, qp := none, todo := [], sent := [] }
  let s := dead.foldl (fun s m => setMoving s m false) s
  { s with fl.migs := (s.fl.migs.filter fun m => !dead.contains m).map clean }

/-- A destruction that a reset met goes on (Table 17-13). -/
def resumeDestroys (s : State) : State :=
  (s.own.tenants.filter Tenant.dying).foldl (fun s t =>
    destroyDone { s with fl.migs := s.fl.migs.filter fun m => m.tenant != t.id } t.id none) s

/-- FABRIC tenants' replica sessions are opened again (R337). -/
def reconnect (s : State) : State :=
  (s.own.tenants.filter fun t => t.replica != 0 && !t.dying).foldl connectReplica s

/-- Every credit stands at its full depth (R134, R267). -/
def fullCredit (s : State) : State :=
  let stack := fun (s : State) (i : Nat) =>
    let k := stackOf s i
    setStack s { k with credit := creditDepth k, creditAt := s.now }
  let s := (List.range 18).foldl stack s
  { s with arr.groups := s.arr.groups.map fun g => { g with credit := groupDepth s g, creditAt := s.now } }

/-- Firmware has finished a reset: the identity block, the RESTART event, mailboxes answer (R342, R574). -/
def upAgain (s : State) : State :=
  let s := fullCredit s
  let n := (s.sq.seqs.filter fun q => q.lost != 0).length
  let s : State := { s with pw.boot := .running, pw.restored := true, pw.bootTime := s.now, pw.upd := (s.pw.upd + 2) % 65536,
                            hl.walk := [], clock.ptp := .unlocked, port.ptp.good := 0, port.ptp.bad := 0 }
  noteSave (saveCfg (reconnect (resumeDestroys (raise s 1 (u32 n)))))

/-! ## COLD_RESTORE (R571) -/

/-- The image to restore from: complete on every channel, the largest LSN; and whether it stands in area B. -/
def bestImage (s : State) (v : SaveVerdict) : Option (SaveImage × Bool) :=
  let good := fun (a : SaveArea) (ok : Bool) => match a.image with | some g => if g.commit && ok then some g else none | none => none
  match good s.fl.areaA v.commitA, good s.fl.areaB v.commitB with
  | some a, some b => if a.lsn < b.lsn then some (b, true) else some (a, false)
  | some a, none => some (a, false)
  | none, some b => some (b, true)
  | none, none => none

/-- SB.SAVE after a cold reset (Table 20-11). -/
def saveRegs (s : State) (best : Option (SaveImage × Bool)) : SaveRegs :=
  let r := s.pw.save
  match best with
  | some (g, b) => { last := 1, area := if b then 1 else 0, restore := 1, time := g.dur / 100000 % 65536, kib := g.kib % 2 ^ 32 }
  | none =>
    if s.fl.areaA.image.isSome || s.fl.areaB.image.isSome then { r with last := 3, restore := 2 }
    else { r with restore := if s.fl.geom.isSome then 2 else 0 }

def coldRestore (s : State) (v : SaveVerdict) : State :=
  let best := bestImage s v
  let cfg := s.fl.cfg
  let s := match cfg with | some c => applyCfg s c | none => s
  let tail := match best with | some (g, _) => g.errs | none => []
  let s := restoreErrs s (match cfg with | some c => c.errs | none => []) tail
  let s := match best with
    | some (g, _) => restoreCtrs (fromImage { s with fl.migs := g.migs } g) g.ctrs
    | none => restoreCtrs (fromLog s) []
  let s : State := { s with pw.save := saveRegs s best, fl.journalled := best.isNone }
  let s := restoreMigs (restoreObjs s)
  let s := trainFail s v.train fun _ => true
  -- the egress scheduler starts with the node, and its list with it (R463)
  upAgain (beginList (restartParts s (match cfg with | some c => c.parts | none => [])))

/-- COLD_RESTORE. -/
def execColdRestore (v : SaveVerdict) (s : State) : Host.Outcome State Fault Refusal :=
  if s.pw.boot == .booting then .next (coldRestore s v) else .next s

/-! ## The end of a warm reset (steps 4 to 7 of R555) -/

/-- Every lease ends with CAUSE 4 and every sequence's uncommitted rows are discarded (R200, R341). -/
def warmLeases (s : State) : State :=
  let s := (s.own.leases.map Lease.id).foldl (fun s l => endLease s l 4) s
  (s.sq.seqs.filter fun q => !q.gone && q.stub.isNone && q.incoming.isNone).foldl discard s

/-- Partitions halt and restart from their images. -/
def warmParts (s : State) : State :=
  let ps := s.serv.parts
  restartParts (ps.foldl haltPartition s) ps

/-- Steps 5 to 7 of R555; a channel or die that fails as its stack leaves self-refresh is set to retire. -/
def warmFinish (s : State) (t : Train) : State :=
  let s := dropSessions s
  let up := fun (s : State) (i : Nat) => setStack s { stackOf s i with selfRefresh := false, srSince := s.now }
  let s : State := (List.range 18).foldl up { s with clock.ptp := .unlocked, fl.space := [], pw.boot := .running }
  let s := trainFail s t fun _ => true
  upAgain (warmParts (restoreMigs (reapColls (reapSeqs (warmLeases s)))))

/-! ## ROM (R485, R486) -/

def imageRange : Nat := 0x3000000

/-- Header checks of step 3 (Table 17-6). -/
def imageHeaderOk (h : Bytes) : Bool :=
  let n := fld h 8 4
  fld h 0 4 == 0x4657584B && fld h 4 2 == 1 && decide (fld h 6 1 ≤ 64) && bfld h 7 1 7 2 == 0 && n % 4096 == 0 && fld h 0xF 1 == 0 &&
  inRange (fld h 0x10 4) 4096 3145728 && decide (fld h 0x10 4 ≤ n) && zeroAt h 0x14 44 &&
  decide (64 + n + sigLen + (if flagAt h 7 1 then sigLen else 0) ≤ imageRange)

/-- Steps 3 to 6: the cause of a failure, or the image's header and digest. -/
def romCheck (s : State) (v : BootSigs) : Sum (Bytes × Bytes) RecCause :=
  let h := norRead s 0 64
  if v.flashError then .inr .flash
  else if !imageHeaderOk h then .inr .header
  else
    let dig := sha3 (norRead s 0 (64 + fld h 8 4))
    if !verified Config.vendorKey dig v.vsig then .inr .vendorSig
    else if s.sec.ownerFlags % 2 = 1 && s.sec.record.isNone then .inr .ownerRecord
    else if s.sec.ownerFlags % 2 = 1 && !(flagAt h 7 1 && ownerRootVerified s dig v.osig) then .inr .ownerSig
    else if fld h 6 1 < s.sec.svnCount then .inr .svn
    else .inl (h, dig)

/-- Steps 6 to 8: the SVN fuses, the derived keys, the image range locked, Anise released. -/
def romHand (s : State) (h dig : Bytes) (t : Train) : State :=
  let svn := fld h 6 1
  let s : State := { s with sec.svnCount := if flagAt h 7 0 then max s.sec.svnCount svn else s.sec.svnCount }
  let s : State := { s with sec.fwDig := dig, sec.svn := svn, sec.fwRev := fld h 0xC 3, sec.cdi1 := cdi1Of s dig svn,
                            sec.ks := storageKey s, sec.locked := true, sec.recState := 0, sec.recCause := .none,
                            nuc.eseq := 0 }
  if s.pw.restored then warmFinish s t else { s with pw.boot := .booting }

/-- ROM runs; a failure enters the recovery loader. -/
def romRun (s : State) (v : BootSigs) : State :=
  if s.sec.lcs == .void then { s with pw.boot := .void, pw.failN := true }
  else match romCheck s v with
    | .inl (h, dig) => romHand s h dig v.train
    | .inr cause => { s with pw.boot := .recovery, sec.recState := 0, sec.recCause := cause, sec.recBytes := 0 }

/-- THERMTRIP_N is released at a rise of PORST_N at which every reading is below 110 °C (R595). -/
def coolEnough (s : State) : Bool :=
  (s.mem.stks.all fun k => match k.temp with | some t => decide (t < 880) | none => true) &&
  (match s.pw.dieTemp with | some t => decide (t < 880) | none => true)

/-- ROM_BOOT (R485, R597): PORST_N rises, or a warm reset goes on once WRST_N is high. -/
def execRomBoot (v : BootSigs) (s : State) : Host.Outcome State Fault Refusal :=
  match s.pw.boot with
  | .rom =>
    let s : State := { s with pw.porstLow := false, pw.thermtrip := s.pw.thermtrip && !coolEnough s }
    if s.pw.pwrfailLow then .next { s with pw.romHeld := true } else .next (romRun { s with pw.romHeld := false } v)
  | .warmReset => if s.pw.wrstLow then .next s else .next (romRun s v)
  | _ => .next s

/-- PWRFAIL_N_RISE (R597): a held ROM may start, by ROM_BOOT. -/
def execPwrfailNRise (s : State) : Host.Outcome State Fault Refusal :=
  .next { s with pw.pwrfailLow := false, pw.romHeld := false }

/-! ## The recovery loader (R487, Table 17-7) -/

def recCode : RecCause → Nat
  | .none => 0
  | .header => 1
  | .vendorSig => 2
  | .ownerRecord => 3
  | .ownerSig => 4
  | .svn => 5
  | .flash => 6

/-- A recovery message: BUSY outside RECOVERY (R580). -/
def recRow (cmd tag addr : Nat) (f : State → State) (s : State) : State :=
  if !standby s then s
  else if s.pw.boot != .recovery then vendorReply s cmd tag stBUSY addr []
  else f s

def execRecStatus (tag : Nat) (s : State) : Host.Outcome State Fault Refusal :=
  .next (recRow 1 tag 0 (fun s => vendorReply s 1 tag stOK 0
    (u8 (lcsCode s.sec.lcs) ++ u8 s.sec.recState ++ u8 (recCode s.sec.recCause) ++ u8 0 ++ u32 s.sec.recBytes)) s)

/-- REC_BEGIN erases the image range; an image longer than it is refused. -/
def execRecBegin (tag len : Nat) (s : State) : Host.Outcome State Fault Refusal :=
  .next (recRow 2 tag len (fun s =>
    if len > imageRange then vendorReply s 2 tag stMALFORMED len []
    else vendorReply { s with sec.flash := memZero s.sec.flash 0 imageRange, sec.recState := 1, sec.recCause := .none,
                              sec.recBytes := 0, sec.recLen := len } 2 tag stOK len []) s)

/-- REC_WRITE at the next offset; any other is refused and the state becomes failed. -/
def execRecWrite (tag off : Nat) (data : Bytes) (s : State) : Host.Outcome State Fault Refusal :=
  .next (recRow 3 tag off (fun s =>
    let n := data.length
    if n = 0 || n > 1024 || s.sec.recState ≠ 1 then vendorReply s 3 tag stMALFORMED off []
    else if off ≠ s.sec.recBytes || off + n > s.sec.recLen then
      vendorReply { s with sec.recState := 3 } 3 tag stMALFORMED off []
    else vendorReply { norWrite s off data with sec.recBytes := off + n } 3 tag stOK off []) s)

/-- REC_END verifies the written image and boots it. -/
def execRecEnd (tag : Nat) (v : BootSigs) (s : State) : Host.Outcome State Fault Refusal :=
  .next (recRow 4 tag 0 (fun s =>
    if s.sec.recState ≠ 1 then vendorReply s 4 tag stMALFORMED 0 []
    else
      let s := vendorReply s 4 tag stOK 0 []
      match romCheck s v with
      | .inl (h, dig) => romHand s h dig v.train
      | .inr cause => { s with sec.recState := 3, sec.recCause := cause }) s)

/-! ## RETURN (R482) -/

/-- LIFECYCLE_RETURN: both save areas with the configuration copy and the key journal are erased, keys zeroed, the fuse blown, and the
retired-bank record cleared (R65); the node reboots and no reply follows (log entry 29). -/
def execLifecycleReturn (c : Cmd) (osig vsig : Option Signed) (s : State) : Host.Outcome State Fault Refusal :=
  .next (lcsRow 4 (2 * sigLen) (fun _ _ s => s.sec.lcs == .field) (fun nonce _ s =>
    let d := lcsDigest 4 nonce
    if !ownerRootVerified s d osig || !verified Config.vendorKey d vsig then .reply s stFENCED []
    else if !s.own.tenants.isEmpty then .reply s stBUSY []
    else
      let bank := fun (k : Bank) => { k with retired := false }
      .silent (warmStart { s with fl.areaA := { erased := s.fl.geom.isSome }, fl.areaB := { erased := s.fl.geom.isSome },
                                  fl.cfg := none, sec.lcs := .return_, mem.banks := s.mem.banks.map bank })) c s)

/-! ## The Clove save (R564 to R571) -/

/-- The save image (Table 19-9); its size is free (log entry 30). -/
def saveImage (s : State) (dur : Nat) : SaveImage × State :=
  let (k, s) := s.word
  ({ commit := false, lsn := s.fl.lsn, start := s.now, dur := dur, kib := k % 196609, seqs := s.sq.seqs, spans := s.sq.spans,
     objs := s.fl.objs, migs := s.fl.migs, destroyed := s.fl.destroyed, segs := s.fl.segs,
     errs := s.hl.errs.drop (s.hl.errs.length - 98304), durs := s.sq.seqs.map fun q => (q.als, durable s q),
     ctrs := s.own.tenants.flatMap fun t => t.keys.map fun k => (t.id, k.gen, k.ctr),
     retired := (s.mem.banks.filter Bank.retired).map Bank.id }, s)

/-- Steps 6 and 7: SAVE_DONE rises and SAVE_ACT falls (R569). -/
def saveEnd (s : State) (last area dur : Nat) : State :=
  { s with pw.boot := .saved, pw.saveAct := false, pw.saveDone := true,
           pw.save := { s.pw.save with last := last, area := area, time := dur / 100000 % 65536 } }

/-- Steps 1 to 5. With no erased image part, or before a restore has run, nothing is written (R570). -/
def cloveSave (s : State) (dur : Nat) : State :=
  let s : State := { s with pw.boot := .saving, pw.saveAct := true }
  let s := haltMovers (dropFlight (dropLink s))
  let sleep := fun (s : State) (i : Nat) => setStack s { stackOf s (i + 1) with selfRefresh := true, srSince := s.now }
  let s : State := (List.range 17).foldl sleep { s with pw.pstate := 0 }
  if !s.pw.restored || (!s.fl.areaA.erased && !s.fl.areaB.erased) then saveEnd (s.at (s.now + dur)) 2 s.pw.save.area dur
  else
    let (g, s) := saveImage s dur
    if s.fl.areaA.erased then { s with fl.areaA := ⟨false, some g⟩ } else { s with fl.areaB := ⟨false, some g⟩ }

/-- The states in which a fall of PWRFAIL_N starts the save; fail-stop ignores it (R537). -/
def savable (s : State) : Bool := match s.pw.boot with | .running | .warmReset | .booting => true | _ => false

/-- CLOVE_SAVE: PWRFAIL_N falls. -/
def execCloveSave (durNs : Nat) (s : State) : Host.Outcome State Fault Refusal :=
  let s : State := { s with pw.pwrfailLow := true }
  if savable s then .next (cloveSave s durNs) else .next s

/-- The image being written. -/
def savingImage (s : State) : Option (SaveImage × Bool) :=
  let open_ := fun (a : SaveArea) => a.image.bind fun g => if g.commit then none else some g
  match open_ s.fl.areaB, open_ s.fl.areaA with
  | some b, some a => if a.start < b.start then some (b, true) else some (a, false)
  | some b, none => some (b, true)
  | none, some a => some (a, false)
  | none, none => none

/-- SAVE_COMMIT: the commit pages are programmed last. -/
def saveCommit (s : State) : State :=
  match savingImage s with
  | none => s
  | some (g, b) =>
    let s := s.at (g.start + g.dur)
    let a : SaveArea := ⟨false, some { g with commit := true }⟩
    let s : State := if b then { s with fl.areaB := a } else { s with fl.areaA := a }
    let s := saveEnd s 1 (if b then 1 else 0) g.dur
    { s with pw.save := { s.pw.save with kib := g.kib } }

def execSaveCommit (s : State) : Host.Outcome State Fault Refusal :=
  if s.pw.boot == .saving then .next (saveCommit s) else .next s

/-- REFCLK_LOSS (R542): the save starts on the internal oscillator; its length is free (log entry 30). -/
def execRefclkLoss (s : State) : Host.Outcome State Fault Refusal :=
  let s : State := { s with pw.refclk := false }
  if savable s then
    let (d, s) := s.word
    .next (cloveSave s (d % (40 * 10 ^ 6 + 1)))
  else .next s

/-! ## FAIL_STOP (R536, R537) -/

def failRegs : FailCause → FailRegs
  | .lockstep => { code := 1 }
  | .frame npa => { code := 2, npa := npa % 2 ^ 42 }
  | .thermtripDie t => { code := 3, temp := t }
  | .thermtripStack k t => { code := 3, site := 1, stack := k, temp := t }

def execFailStop (cause : FailCause) (s : State) : Host.Outcome State Fault Refusal :=
  match s.pw.boot with
  | .off | .failStop | .void => .next s
  | _ => .next (failStop s (failRegs cause))

end Sys2Proof.Machine
end

