-- ==== Sys2Proof/Machine/Dispatch.lean ====
section
/-! DEFINITION. One arm per command: a direct call of its meaning. -/

namespace Sys2Proof.Machine

open Sys2Proof

/-- The effect of a command on everything but the queue. -/
def exec (i : Instr) (s : State) : Host.Outcome State Fault Refusal :=
  match i with
  | .attend a => Sys2Proof.Machine.execAttend a s
  | .attendSelect a => Sys2Proof.Machine.execAttendSelect a s
  | .mergeForward a => Sys2Proof.Machine.execMergeForward a s
  | .appendScatter a => Sys2Proof.Machine.execAppendScatter a s
  | .commit a => Sys2Proof.Machine.execCommit a s
  | .truncate a => Sys2Proof.Machine.execTruncate a s
  | .search a => Sys2Proof.Machine.execSearch a s
  | .insertVectors a => Sys2Proof.Machine.execInsertVectors a s
  | .deleteVectors a => Sys2Proof.Machine.execDeleteVectors a s
  | .runLayers a => Sys2Proof.Machine.execRunLayers a s
  | .score a => Sys2Proof.Machine.execScore a s
  | .replicaPut a => Sys2Proof.Machine.execReplicaPut a s
  | .cancel a => Sys2Proof.Machine.execCancel a s
  | .nonceGet c => Sys2Proof.Machine.execNonceGet c s
  | .openSession c sig => Sys2Proof.Machine.execOpenSession c sig s
  | .closeSession c => Sys2Proof.Machine.execCloseSession c s
  | .mboxAttach c => Sys2Proof.Machine.execMboxAttach c s
  | .mboxDetach c => Sys2Proof.Machine.execMboxDetach c s
  | .peerConnect c => Sys2Proof.Machine.execPeerConnect c s
  | .slotQuery c => Sys2Proof.Machine.execSlotQuery c s
  | .statsGet c => Sys2Proof.Machine.execStatsGet c s
  | .leaseGrant c => Sys2Proof.Machine.execLeaseGrant c s
  | .leaseRenew c => Sys2Proof.Machine.execLeaseRenew c s
  | .leaseRelease c => Sys2Proof.Machine.execLeaseRelease c s
  | .seqCreate c => Sys2Proof.Machine.execSeqCreate c s
  | .seqDelete c => Sys2Proof.Machine.execSeqDelete c s
  | .spanInfo c => Sys2Proof.Machine.execSpanInfo c s
  | .seqEvict c => Sys2Proof.Machine.execSeqEvict c s
  | .seqInstall c lost => Sys2Proof.Machine.execSeqInstall c lost s
  | .durableReport c => Sys2Proof.Machine.execDurableReport c s
  | .replicaPromote c => Sys2Proof.Machine.execReplicaPromote c s
  | .replicaDrop c => Sys2Proof.Machine.execReplicaDrop c s
  | .collCreate c => Sys2Proof.Machine.execCollCreate c s
  | .collDestroy c => Sys2Proof.Machine.execCollDestroy c s
  | .weightLoad c => Sys2Proof.Machine.execWeightLoad c s
  | .planLoad c => Sys2Proof.Machine.execPlanLoad c s
  | .planUnload c => Sys2Proof.Machine.execPlanUnload c s
  | .ropeLoad c => Sys2Proof.Machine.execRopeLoad c s
  | .tableLoad c => Sys2Proof.Machine.execTableLoad c s
  | .tableUnload c => Sys2Proof.Machine.execTableUnload c s
  | .serviceLoad c sig => Sys2Proof.Machine.execServiceLoad c sig s
  | .serviceStart c => Sys2Proof.Machine.execServiceStart c s
  | .serviceStop c => Sys2Proof.Machine.execServiceStop c s
  | .evidenceGet c asig => Sys2Proof.Machine.execEvidenceGet c asig s
  | .nodeIdSet c => Sys2Proof.Machine.execNodeIdSet c s
  | .eventSubscribe c => Sys2Proof.Machine.execEventSubscribe c s
  | .tenantCreate c => Sys2Proof.Machine.execTenantCreate c s
  | .tenantQuota c => Sys2Proof.Machine.execTenantQuota c s
  | .durabilitySet c sig => Sys2Proof.Machine.execDurabilitySet c sig s
  | .tenantDestroy c => Sys2Proof.Machine.execTenantDestroy c s
  | .keyInstall c sig key => Sys2Proof.Machine.execKeyInstall c sig key s
  | .keyRetire c => Sys2Proof.Machine.execKeyRetire c s
  | .lifecycleNonce c => Sys2Proof.Machine.execLifecycleNonce c s
  | .lifecycleField c sig => Sys2Proof.Machine.execLifecycleField c sig s
  | .ownerClaim c => Sys2Proof.Machine.execOwnerClaim c s
  | .ownerRecord c sig => Sys2Proof.Machine.execOwnerRecord c sig s
  | .lifecycleReturn c osig vsig => Sys2Proof.Machine.execLifecycleReturn c osig vsig s
  | .lifecycleVoid c sig => Sys2Proof.Machine.execLifecycleVoid c sig s
  | .migrateBeginDest c => Sys2Proof.Machine.execMigrateBeginDest c s
  | .migrateBeginSource c => Sys2Proof.Machine.execMigrateBeginSource c s
  | .migrateCommitFreeze c => Sys2Proof.Machine.execMigrateCommitFreeze c s
  | .migrateCommitInstall c => Sys2Proof.Machine.execMigrateCommitInstall c s
  | .migrateCommitFinish c => Sys2Proof.Machine.execMigrateCommitFinish c s
  | .migrateAbort c => Sys2Proof.Machine.execMigrateAbort c s
  | .flashProfileLoad c => Sys2Proof.Machine.execFlashProfileLoad c s
  | .flashFormat c g => Sys2Proof.Machine.execFlashFormat c g s
  | .powerLimitSet c => Sys2Proof.Machine.execPowerLimitSet c s
  | .wakeBudgetSet c => Sys2Proof.Machine.execWakeBudgetSet c s
  | .resetWarm c => Sys2Proof.Machine.execResetWarm c s
  | .funcStopEgressSched c => Sys2Proof.Machine.execFuncStopEgressSched c s
  | .funcStartEgressSched c => Sys2Proof.Machine.execFuncStartEgressSched c s
  | .funcStopIngressPolice c => Sys2Proof.Machine.execFuncStopIngressPolice c s
  | .funcStartIngressPolice c => Sys2Proof.Machine.execFuncStartIngressPolice c s
  | .funcStopMaceT1 c => Sys2Proof.Machine.execFuncStopMaceT1 c s
  | .funcStartMaceT1 c => Sys2Proof.Machine.execFuncStartMaceT1 c s
  | .funcStopMaceT2 c => Sys2Proof.Machine.execFuncStopMaceT2 c s
  | .funcStartMaceT2 c => Sys2Proof.Machine.execFuncStartMaceT2 c s
  | .funcStopLink c => Sys2Proof.Machine.execFuncStopLink c s
  | .funcStartLink c => Sys2Proof.Machine.execFuncStartLink c s
  | .portConfig c => Sys2Proof.Machine.execPortConfig c s
  | .schedConfigQueue c => Sys2Proof.Machine.execSchedConfigQueue c s
  | .schedConfigGcl c => Sys2Proof.Machine.execSchedConfigGcl c s
  | .policerConfig c => Sys2Proof.Machine.execPolicerConfig c s
  | .installTransmitSa c sig key => Sys2Proof.Machine.execInstallTransmitSa c sig key s
  | .installReceiveSa c sig key => Sys2Proof.Machine.execInstallReceiveSa c sig key s
  | .switchTransmitSa c => Sys2Proof.Machine.execSwitchTransmitSa c s
  | .deleteReceiveSa c => Sys2Proof.Machine.execDeleteReceiveSa c s
  | .ptpConfig c => Sys2Proof.Machine.execPtpConfig c s
  | .errorLogRead c => Sys2Proof.Machine.execErrorLogRead c s
  | .healthGet c => Sys2Proof.Machine.execHealthGet c s
  | .maceRateSet c => Sys2Proof.Machine.execMaceRateSet c s
  | .rdmaRead x addr rkey len bad => Sys2Proof.Machine.execRdmaRead x addr rkey len bad s
  | .rdmaWrite x m => Sys2Proof.Machine.execRdmaWrite x m s
  | .compareSwap x addr rkey old new => Sys2Proof.Machine.execCompareSwap x addr rkey old new s
  | .fetchAdd x addr rkey add => Sys2Proof.Machine.execFetchAdd x addr rkey add s
  | .leaseCellRenewal x lease rkey => Sys2Proof.Machine.execLeaseCellRenewal x lease rkey s
  | .cmReq q => Sys2Proof.Machine.execCmReq q s
  | .cmRtu qpn => Sys2Proof.Machine.execCmRtu qpn s
  | .cmDreq qpn => Sys2Proof.Machine.execCmDreq qpn s
  | .cmDrep qpn => Sys2Proof.Machine.execCmDrep qpn s
  | .ackReceived qpn psn => Sys2Proof.Machine.execAckReceived qpn psn s
  | .nakReceived qpn psn kind => Sys2Proof.Machine.execNakReceived qpn psn kind s
  | .ackTimeout qpn => Sys2Proof.Machine.execAckTimeout qpn s
  | .cnpReceived qpn => Sys2Proof.Machine.execCnpReceived qpn s
  | .alphaTimer qpn => Sys2Proof.Machine.execAlphaTimer qpn s
  | .increaseTimer qpn => Sys2Proof.Machine.execIncreaseTimer qpn s
  | .increaseBytes qpn => Sys2Proof.Machine.execIncreaseBytes qpn s
  | .pfcReceived prio pauseNs => Sys2Proof.Machine.execPfcReceived prio pauseNs s
  | .pfcPauseExpiry prio => Sys2Proof.Machine.execPfcPauseExpiry prio s
  | .egressFrameBoundary => Sys2Proof.Machine.execEgressFrameBoundary s
  | .gateChange => Sys2Proof.Machine.execGateChange s
  | .arpRequest target sender senderMac => Sys2Proof.Machine.execArpRequest target sender senderMac s
  | .neighborSolicitation target sender senderMac => Sys2Proof.Machine.execNeighborSolicitation target sender senderMac s
  | .icmpEcho v6 src data => Sys2Proof.Machine.execIcmpEcho v6 src data s
  | .syncReceived domain offset intervalNs => Sys2Proof.Machine.execSyncReceived domain offset intervalNs s
  | .syncTimeout => Sys2Proof.Machine.execSyncTimeout s
  | .pdelayReqReceived seq rxTime => Sys2Proof.Machine.execPdelayReqReceived seq rxTime s
  | .pdelayTimer => Sys2Proof.Machine.execPdelayTimer s
  | .pdelayRespReceived seq t1 t2 t3 t4 => Sys2Proof.Machine.execPdelayRespReceived seq t1 t2 t3 t4 s
  | .ppsOut => Sys2Proof.Machine.execPpsOut s
  | .ppsIn ts => Sys2Proof.Machine.execPpsIn ts s
  | .linkDown => Sys2Proof.Machine.execLinkDown s
  | .linkUp => Sys2Proof.Machine.execLinkUp s
  | .netclkLoss => Sys2Proof.Machine.execNetclkLoss s
  | .refclkLoss => Sys2Proof.Machine.execRefclkLoss s
  | .recStatus tag => Sys2Proof.Machine.execRecStatus tag s
  | .recBegin tag len => Sys2Proof.Machine.execRecBegin tag len s
  | .recWrite tag off data => Sys2Proof.Machine.execRecWrite tag off data s
  | .recEnd tag v => Sys2Proof.Machine.execRecEnd tag v s
  | .regRead tag addr len => Sys2Proof.Machine.execRegRead tag addr len s
  | .regWrite tag addr data => Sys2Proof.Machine.execRegWrite tag addr data s
  | .sbStatusEvlost => Sys2Proof.Machine.execSbStatusEvlost s
  | .sbCtrlWarm => Sys2Proof.Machine.execSbCtrlWarm s
  | .sbCtrlEvflush => Sys2Proof.Machine.execSbCtrlEvflush s
  | .sbFailcauseAck => Sys2Proof.Machine.execSbFailcauseAck s
  | .mboxWrite tag addr data => Sys2Proof.Machine.execMboxWrite tag addr data s
  | .mboxRead tag addr len => Sys2Proof.Machine.execMboxRead tag addr len s
  | .eventRead tag len => Sys2Proof.Machine.execEventRead tag len s
  | .setEndpointId eid => Sys2Proof.Machine.execSetEndpointId eid s
  | .getEndpointId => Sys2Proof.Machine.execGetEndpointId s
  | .getMctpVersionSupport => Sys2Proof.Machine.execGetMctpVersionSupport s
  | .getMessageTypeSupport => Sys2Proof.Machine.execGetMessageTypeSupport s
  | .pldmSensorReading id => Sys2Proof.Machine.execPldmSensorReading id s
  | .setdasa static addr => Sys2Proof.Machine.execSetdasa static addr s
  | .entdaa addr => Sys2Proof.Machine.execEntdaa addr s
  | .standbyPowerUp => Sys2Proof.Machine.execStandbyPowerUp s
  | .coldReset => Sys2Proof.Machine.execColdReset s
  | .romBoot v => Sys2Proof.Machine.execRomBoot v s
  | .pwrfailNRise => Sys2Proof.Machine.execPwrfailNRise s
  | .coldRestore v => Sys2Proof.Machine.execColdRestore v s
  | .warmReset => Sys2Proof.Machine.execWarmReset s
  | .cloveSave durNs => Sys2Proof.Machine.execCloveSave durNs s
  | .saveCommit => Sys2Proof.Machine.execSaveCommit s
  | .failStop cause => Sys2Proof.Machine.execFailStop cause s
  | .deadlineExpiry r => Sys2Proof.Machine.execDeadlineExpiry r s
  | .leaseExpiry id => Sys2Proof.Machine.execLeaseExpiry id s
  | .leaseFree id => Sys2Proof.Machine.execLeaseFree id s
  | .sessionExpiry qpn => Sys2Proof.Machine.execSessionExpiry qpn s
  | .stubGraceExpiry mig => Sys2Proof.Machine.execStubGraceExpiry mig s
  | .migrationLeaseRenewal mig => Sys2Proof.Machine.execMigrationLeaseRenewal mig s
  | .replicaRetry tenant => Sys2Proof.Machine.execReplicaRetry tenant s
  | .peerWithdrawRetry tenant => Sys2Proof.Machine.execPeerWithdrawRetry tenant s
  | .appendClassTurn r => Sys2Proof.Machine.execAppendClassTurn r s
  | .attentionContextGrant => Sys2Proof.Machine.execAttentionContextGrant s
  | .pepperContextGrant => Sys2Proof.Machine.execPepperContextGrant s
  | .scatterContextGrant => Sys2Proof.Machine.execScatterContextGrant s
  | .workspaceInstanceGrant => Sys2Proof.Machine.execWorkspaceInstanceGrant s
  | .flashReadSpaceGrant => Sys2Proof.Machine.execFlashReadSpaceGrant s
  | .spanMovingWaitEnd r => Sys2Proof.Machine.execSpanMovingWaitEnd r s
  | .truncateZeroing r => Sys2Proof.Machine.execTruncateZeroing r s
  | .treeNodeRead ctx ue => Sys2Proof.Machine.execTreeNodeRead ctx ue s
  | .scoreDelivery p => Sys2Proof.Machine.execScoreDelivery p s
  | .scoreReply p entry w => Sys2Proof.Machine.execScoreReply p entry w s
  | .partitionStop p => Sys2Proof.Machine.execPartitionStop p s
  | .spanAttend k => Sys2Proof.Machine.execSpanAttend k s
  | .spanQk k => Sys2Proof.Machine.execSpanQk k s
  | .spanPv k => Sys2Proof.Machine.execSpanPv k s
  | .pageTagCheck k => Sys2Proof.Machine.execPageTagCheck k s
  | .pageTagWrite k => Sys2Proof.Machine.execPageTagWrite k s
  | .sketchPage k => Sys2Proof.Machine.execSketchPage k s
  | .quantStore k => Sys2Proof.Machine.execQuantStore k s
  | .ropeApply k => Sys2Proof.Machine.execRopeApply k s
  | .normRms k => Sys2Proof.Machine.execNormRms k s
  | .normLayer k => Sys2Proof.Machine.execNormLayer k s
  | .elem k => Sys2Proof.Machine.execElemOp k s
  | .dotRows k => Sys2Proof.Machine.execDotRows k s
  | .distExact k => Sys2Proof.Machine.execDistExact k s
  | .fillZero k => Sys2Proof.Machine.execFillZero k s
  | .copyInBank k => Sys2Proof.Machine.execCopyInBank k s
  | .loadReg k => Sys2Proof.Machine.execLoadReg k s
  | .clear k => Sys2Proof.Machine.execClear k s
  | .storeReg k => Sys2Proof.Machine.execStoreReg k s
  | .bankOperationOutcome b e => Sys2Proof.Machine.execBankOperationOutcome b e s
  | .governorRelease b e => Sys2Proof.Machine.execGovernorRelease b e s
  | .refreshDue b => Sys2Proof.Machine.execRefreshDue b s
  | .refreshDone b => Sys2Proof.Machine.execRefreshDone b s
  | .tilePass ar sram ue => Sys2Proof.Machine.execTilePass ar sram ue s
  | .arraySpanPassPage ar e => Sys2Proof.Machine.execArraySpanPassPage ar e s
  | .arrayGovernorRelease g => Sys2Proof.Machine.execArrayGovernorRelease g s
  | .gemm r => Sys2Proof.Machine.execGemm r s
  | .gemmSparse24 r => Sys2Proof.Machine.execGemmSparse24 r s
  | .expertRoute r => Sys2Proof.Machine.execExpertRoute r s
  | .expertGemm r => Sys2Proof.Machine.execExpertGemm r s
  | .norm r => Sys2Proof.Machine.execPlanNorm r s
  | .rope r => Sys2Proof.Machine.execPlanRope r s
  | .act r => Sys2Proof.Machine.execAct r s
  | .planElem r => Sys2Proof.Machine.execPlanElem r s
  | .attendLocal r => Sys2Proof.Machine.execAttendLocal r s
  | .appendLocal r => Sys2Proof.Machine.execAppendLocal r s
  | .embedLookup r => Sys2Proof.Machine.execEmbedLookup r s
  | .scoreHead r => Sys2Proof.Machine.execScoreHead r s
  | .quant r => Sys2Proof.Machine.execPlanQuant r s
  | .reduce r => Sys2Proof.Machine.execReduce r s
  | .flush payload => Sys2Proof.Machine.execFlush payload s
  | .flushComplete job => Sys2Proof.Machine.execFlushComplete job s
  | .flashReadDone job e => Sys2Proof.Machine.execFlashReadDone job e s
  | .flashProgramDone job ok => Sys2Proof.Machine.execFlashProgramDone job ok s
  | .flashEraseDone seg ok => Sys2Proof.Machine.execFlashEraseDone seg ok s
  | .mapCheckpoint => Sys2Proof.Machine.execMapCheckpoint s
  | .spanTableCheckpoint => Sys2Proof.Machine.execSpanTableCheckpoint s
  | .garbageCollection => Sys2Proof.Machine.execGarbageCollection s
  | .readDisturb seg => Sys2Proof.Machine.execReadDisturb seg s
  | .readRefresh seg found => Sys2Proof.Machine.execReadRefresh seg found s
  | .wearLevelling lun => Sys2Proof.Machine.execWearLevelling lun s
  | .blockRepair obj block => Sys2Proof.Machine.execBlockRepair obj block s
  | .reKeyWalk tenant => Sys2Proof.Machine.execReKeyWalk tenant s
  | .saveAreaErase ok => Sys2Proof.Machine.execSaveAreaErase ok s
  | .maceT1Frame b e => Sys2Proof.Machine.execMaceT1Frame b e s
  | .maceRepair b => Sys2Proof.Machine.execMaceRepair b s
  | .maceSelfRefreshWake stack => Sys2Proof.Machine.execMaceSelfRefreshWake stack s
  | .bucketLeak channel n => Sys2Proof.Machine.execBucketLeak channel n s
  | .bankRetirement b => Sys2Proof.Machine.execBankRetirement b s
  | .backgroundZeroing tenant => Sys2Proof.Machine.execBackgroundZeroing tenant s
  | .healthSample => Sys2Proof.Machine.execHealthSample s
  | .stackTemperatureReading stack temps => Sys2Proof.Machine.execStackTemperatureReading stack temps s
  | .dieTemperatureReading temp => Sys2Proof.Machine.execDieTemperatureReading temp s
  | .appGovernorStep watts => Sys2Proof.Machine.execAppGovernorStep watts s
  | .powerEstimateUpdate dieDw stacksDw pkgDw => Sys2Proof.Machine.execPowerEstimateUpdate dieDw stacksDw pkgDw s
  | .powerStateEntry => Sys2Proof.Machine.execPowerStateEntry s
  | .powerStateExit why => Sys2Proof.Machine.execPowerStateExit why s
  | .wrstNRise => Sys2Proof.Machine.execWrstNRise s
  | .standbyPowerLoss => Sys2Proof.Machine.execStandbyPowerLoss s
  | .railCollapse => Sys2Proof.Machine.execRailCollapse s
  | .netclkReturn => Sys2Proof.Machine.execNetclkReturn s
  | .cmRep qpn peerQpn psn status => Sys2Proof.Machine.execCmRep qpn peerQpn psn status s
  | .cmRej qpn reason => Sys2Proof.Machine.execCmRej qpn reason s
  | .arpReply ip mac => Sys2Proof.Machine.execArpReply ip mac s
  | .neighborAdvertisement ip mac => Sys2Proof.Machine.execNeighborAdvertisement ip mac s
  | .pinAccess b e => Sys2Proof.Machine.execPinAccess b e s
  | .replicaLeaseRenewal tenant => Sys2Proof.Machine.execReplicaLeaseRenewal tenant s
  | .freezeWaitExpiry mig => Sys2Proof.Machine.execFreezeWaitExpiry mig s
  | .partitionTimer p => Sys2Proof.Machine.execPartitionTimer p s
  | .jtagVendorToken v => Sys2Proof.Machine.execJtagVendorToken v s
  | .pldmBase req => Sys2Proof.Machine.execPldmBase req s

end Sys2Proof.Machine
end

