-- ==== Sys2Proof/WellFormed.lean ====
section
/-! DEFINITION. Well-formed commands: every number that names hardware, a field of a word or a field of a packet lies in the
range the spec gives it. -/

namespace Sys2Proof

/-- A field of `n` bits. -/
def below (n v : Nat) : Bool := decide (v < 2 ^ n)

/-- A number of one of `n` things, numbered from 0. -/
def lt (n v : Nat) : Bool := decide (v < n)

/-- A mailbox: of a QP, one of the 64 control mailboxes, the sideband's (R379, R393). -/
def boxOk : Box → Bool
  | .session qp => below 24 qp
  | .control m => lt 64 m
  | .sideband => true

/-- A command word with its 16-bit MSEQ (R380). -/
def cmdOk (c : Cmd) : Bool := boxOk c.box && below 16 c.mseq

/-- A core's access (R301): one of 32 cores, 64-bit addresses, at most a frame of bytes. -/
def guestOpOk : GuestOp → Bool
  | .fetch c a _ => lt 32 c && below 64 a
  | .load c a n _ => lt 32 c && below 64 a && lt 4097 n
  | .store c a v _ => lt 32 c && below 64 a && lt 4097 v.length
  | .setTimer c t => lt 32 c && below 64 t
  | .start c t pc arg => lt 32 c && lt 32 t && below 64 pc && below 64 arg
  | .ipi c t => lt 32 c && lt 32 t
  | .halt c => lt 32 c
  | .claim c => lt 32 c
  | .ack c => lt 32 c
  | .setSie c _ => lt 32 c
  | .sret c _ => lt 32 c

/-- An arm word: 65,536 network slots, at most 1,024 internal slots of 32 partitions (R300, R394, Table 11-3). -/
def armOk (a : Arm) : Bool :=
  below 16 a.seq && match a.via with
    | .qp n => below 24 n && below 16 a.slot
    | .part p acts => lt 32 p && lt 1024 a.slot && acts.all guestOpOk

def reqOk : Req → Bool
  | .net n => below 16 n
  | .int l n => lt 4096 l && lt 1024 n

/-- The widths of Table 4-3. -/
def descOk (d : Desc) : Bool :=
  below 4 d.fmt && below 4 d.sub && below 16 d.frame && below 6 d.first && below 7 d.count && below 5 d.heads &&
  below 2 d.dim && below 2 d.mask && below 6 d.vreg && below 3 d.pent && below 32 d.arg0 && below 32 d.arg1 &&
  below 32 d.arg2 && below 32 d.arg3 && below 32 d.optag

/-- An uncorrectable word lies in one of a span's 64 pages; a corrected bit in one of the bank's frames. -/
def opEnvOk (e : OpEnv) : Bool :=
  (match e.ue with | some p => lt 64 p | none => true) && (match e.parity with | some p => lt 64 p | none => true) &&
  e.corrected.all (lt 40960)

/-- A bank operation for one of the 9,216 banks (R37), with the tenant it serves. -/
def bankCmdOk (k : BankCmd) : Bool := lt 9216 k.bank && lt 256 k.tenant && descOk k.desc && opEnvOk k.env

/-- Bytes of a frame, then of its check record at the longest strength. -/
def frameEnvOk (e : FrameEnv) : Bool := e.flips.all fun f => lt (4096 + 192) f.1

def secOk : SecTag → Bool
  | .none => true
  | .tag rxsc an pn _ => lt 4 rxsc && below 2 an && below 64 pn

def rxOk (x : Rx) : Bool := below 24 x.qp && below 24 x.psn && below 3 x.pcp && secOk x.sec

/-- A packet's bytes lie in its message. -/
def writeOk (m : WriteMsg) : Bool :=
  below 64 m.addr && below 32 m.rkey && below 32 m.len && decide (m.off + m.data.length ≤ m.len)

def cmReqOk (q : CmReq) : Bool :=
  below 128 q.peer && below 24 q.peerQpn && below 16 q.pkey && below 8 q.tclass && below 24 q.psn

/-- The channels and dies exist (R37). -/
def trainOk (t : Train) : Bool := t.channels.all (lt 576) && t.dies.all (lt 288)

def causeOk : FailCause → Bool
  | .lockstep => true
  | .frame npa => lt (9216 * 2 ^ 28) npa
  | .thermtripDie _ => true
  | .thermtripStack stack _ => lt 18 stack

/-- Every operand of the command is one the hardware has. -/
def Instr.wf (i : Instr) : Bool :=
  match i with
  | .attend a => armOk a
  | .attendSelect a => armOk a
  | .mergeForward a => armOk a
  | .appendScatter a => armOk a
  | .commit a => armOk a
  | .truncate a => armOk a
  | .search a => armOk a
  | .insertVectors a => armOk a
  | .deleteVectors a => armOk a
  | .runLayers a => armOk a
  | .score a => armOk a
  | .replicaPut a => armOk a
  | .cancel a => armOk a
  | .nonceGet c => cmdOk c
  | .openSession c _ => cmdOk c
  | .closeSession c => cmdOk c
  | .mboxAttach c => cmdOk c
  | .mboxDetach c => cmdOk c
  | .peerConnect c => cmdOk c
  | .slotQuery c => cmdOk c
  | .statsGet c => cmdOk c
  | .leaseGrant c => cmdOk c
  | .leaseRenew c => cmdOk c
  | .leaseRelease c => cmdOk c
  | .seqCreate c => cmdOk c
  | .seqDelete c => cmdOk c
  | .spanInfo c => cmdOk c
  | .seqEvict c => cmdOk c
  | .seqInstall c _ => cmdOk c
  | .durableReport c => cmdOk c
  | .replicaPromote c => cmdOk c
  | .replicaDrop c => cmdOk c
  | .collCreate c => cmdOk c
  | .collDestroy c => cmdOk c
  | .weightLoad c => cmdOk c
  | .planLoad c => cmdOk c
  | .planUnload c => cmdOk c
  | .ropeLoad c => cmdOk c
  | .tableLoad c => cmdOk c
  | .tableUnload c => cmdOk c
  | .serviceLoad c _ => cmdOk c
  | .serviceStart c => cmdOk c
  | .serviceStop c => cmdOk c
  | .evidenceGet c _ => cmdOk c
  | .nodeIdSet c => cmdOk c
  | .eventSubscribe c => cmdOk c
  | .tenantCreate c => cmdOk c
  | .tenantQuota c => cmdOk c
  | .durabilitySet c _ => cmdOk c
  | .tenantDestroy c => cmdOk c
  | .keyInstall c _ _ => cmdOk c
  | .keyRetire c => cmdOk c
  | .lifecycleNonce c => cmdOk c
  | .lifecycleField c _ => cmdOk c
  | .ownerClaim c => cmdOk c
  | .ownerRecord c _ => cmdOk c
  | .lifecycleReturn c _ _ => cmdOk c
  | .lifecycleVoid c _ => cmdOk c
  | .migrateBeginDest c => cmdOk c
  | .migrateBeginSource c => cmdOk c
  | .migrateCommitFreeze c => cmdOk c
  | .migrateCommitInstall c => cmdOk c
  | .migrateCommitFinish c => cmdOk c
  | .migrateAbort c => cmdOk c
  | .flashProfileLoad c => cmdOk c
  | .flashFormat c _ => cmdOk c
  | .powerLimitSet c => cmdOk c
  | .wakeBudgetSet c => cmdOk c
  | .resetWarm c => cmdOk c
  | .funcStopEgressSched c => cmdOk c
  | .funcStartEgressSched c => cmdOk c
  | .funcStopIngressPolice c => cmdOk c
  | .funcStartIngressPolice c => cmdOk c
  | .funcStopMaceT1 c => cmdOk c
  | .funcStartMaceT1 c => cmdOk c
  | .funcStopMaceT2 c => cmdOk c
  | .funcStartMaceT2 c => cmdOk c
  | .funcStopLink c => cmdOk c
  | .funcStartLink c => cmdOk c
  | .portConfig c => cmdOk c
  | .schedConfigQueue c => cmdOk c
  | .schedConfigGcl c => cmdOk c
  | .policerConfig c => cmdOk c
  | .installTransmitSa c _ _ => cmdOk c
  | .installReceiveSa c _ _ => cmdOk c
  | .switchTransmitSa c => cmdOk c
  | .deleteReceiveSa c => cmdOk c
  | .ptpConfig c => cmdOk c
  | .errorLogRead c => cmdOk c
  | .healthGet c => cmdOk c
  | .maceRateSet c => cmdOk c
  | .rdmaRead x addr rkey _ _ => rxOk x && below 64 addr && below 32 rkey
  | .rdmaWrite x m => rxOk x && writeOk m
  | .compareSwap x addr rkey _ _ => rxOk x && below 64 addr && below 32 rkey
  | .fetchAdd x addr rkey _ => rxOk x && below 64 addr && below 32 rkey
  | .leaseCellRenewal x lease rkey => rxOk x && lt 4096 lease && below 32 rkey
  | .cmReq q => cmReqOk q
  | .cmRtu qpn => below 24 qpn
  | .cmDreq qpn => below 24 qpn
  | .cmDrep qpn => below 24 qpn
  | .ackReceived qpn psn => below 24 qpn && below 24 psn
  | .nakReceived qpn psn _ => below 24 qpn && below 24 psn
  | .ackTimeout qpn => below 24 qpn
  | .cnpReceived qpn => below 24 qpn
  | .alphaTimer qpn => below 24 qpn
  | .increaseTimer qpn => below 24 qpn
  | .increaseBytes qpn => below 24 qpn
  | .pfcReceived prio _ => lt 8 prio
  | .pfcPauseExpiry prio => lt 8 prio
  | .egressFrameBoundary => true
  | .gateChange => true
  | .arpRequest _ _ senderMac => below 48 senderMac
  | .neighborSolicitation _ _ senderMac => below 48 senderMac
  | .icmpEcho _ _ _ => true
  | .syncReceived domain _ _ => below 8 domain
  | .syncTimeout => true
  | .pdelayReqReceived seq _ => below 16 seq
  | .pdelayTimer => true
  | .pdelayRespReceived seq _ _ _ _ => below 16 seq
  | .ppsOut => true
  | .ppsIn _ => true
  | .linkDown => true
  | .linkUp => true
  | .netclkLoss => true
  | .refclkLoss => true
  | .recStatus tag => below 8 tag
  | .recBegin tag _ => below 8 tag
  | .recWrite tag _ _ => below 8 tag
  | .recEnd tag v => below 8 tag && trainOk v.train
  | .regRead tag addr _ => below 8 tag && below 32 addr
  | .regWrite tag addr _ => below 8 tag && below 32 addr
  | .sbStatusEvlost => true
  | .sbCtrlWarm => true
  | .sbCtrlEvflush => true
  | .sbFailcauseAck => true
  | .mboxWrite tag addr _ => below 8 tag && below 32 addr
  | .mboxRead tag addr _ => below 8 tag && below 32 addr
  | .eventRead tag _ => below 8 tag
  | .setEndpointId eid => below 8 eid
  | .getEndpointId => true
  | .getMctpVersionSupport => true
  | .getMessageTypeSupport => true
  | .pldmSensorReading id => below 16 id
  | .setdasa static addr => below 7 static && below 7 addr
  | .entdaa addr => below 7 addr
  | .standbyPowerUp => true
  | .coldReset => true
  | .romBoot v => trainOk v.train
  | .pwrfailNRise => true
  | .coldRestore v => trainOk v.train
  | .warmReset => true
  | .cloveSave _ => true
  | .saveCommit => true
  | .failStop cause => causeOk cause
  | .deadlineExpiry r => reqOk r
  | .leaseExpiry id => lt 4096 id
  | .leaseFree id => lt 4096 id
  | .sessionExpiry qpn => below 24 qpn
  | .stubGraceExpiry mig => below 32 mig
  | .migrationLeaseRenewal mig => below 32 mig
  | .replicaRetry tenant => lt 256 tenant
  | .peerWithdrawRetry tenant => lt 256 tenant
  | .appendClassTurn r => reqOk r
  | .attentionContextGrant => true
  | .pepperContextGrant => true
  | .scatterContextGrant => true
  | .workspaceInstanceGrant => true
  | .flashReadSpaceGrant => true
  | .spanMovingWaitEnd r => reqOk r
  | .truncateZeroing r => reqOk r
  | .treeNodeRead ctx _ => lt 8192 ctx
  | .scoreDelivery p => lt 32 p
  | .scoreReply p entry w => lt 32 p && lt 1024 entry && w.acts.all guestOpOk
  | .partitionStop p => lt 32 p.part && p.acts.all guestOpOk
  | .spanAttend k => bankCmdOk k
  | .spanQk k => bankCmdOk k
  | .spanPv k => bankCmdOk k
  | .pageTagCheck k => bankCmdOk k
  | .pageTagWrite k => bankCmdOk k
  | .sketchPage k => bankCmdOk k
  | .quantStore k => bankCmdOk k
  | .ropeApply k => bankCmdOk k
  | .normRms k => bankCmdOk k
  | .normLayer k => bankCmdOk k
  | .elem k => bankCmdOk k
  | .dotRows k => bankCmdOk k
  | .distExact k => bankCmdOk k
  | .fillZero k => bankCmdOk k
  | .copyInBank k => bankCmdOk k
  | .loadReg k => bankCmdOk k
  | .clear k => bankCmdOk k
  | .storeReg k => bankCmdOk k
  | .bankOperationOutcome b e => lt 9216 b && opEnvOk e
  | .governorRelease b e => lt 9216 b && opEnvOk e
  | .refreshDue b => lt 9216 b
  | .refreshDone b => lt 9216 b
  | .tilePass ar _ _ => lt 120 ar
  | .arraySpanPassPage ar e => lt 120 ar && frameEnvOk e.frame
  | .arrayGovernorRelease g => lt 8 g
  | .gemm r => reqOk r
  | .gemmSparse24 r => reqOk r
  | .expertRoute r => reqOk r
  | .expertGemm r => reqOk r
  | .norm r => reqOk r
  | .rope r => reqOk r
  | .act r => reqOk r
  | .planElem r => reqOk r
  | .attendLocal r => reqOk r
  | .appendLocal r => reqOk r
  | .embedLookup r => reqOk r
  | .scoreHead r => reqOk r
  | .quant r => reqOk r
  | .reduce r => reqOk r
  | .flush _ => true
  | .flushComplete _ => true
  | .flashReadDone _ _ => true
  | .flashProgramDone _ _ => true
  | .flashEraseDone _ _ => true
  | .mapCheckpoint => true
  | .spanTableCheckpoint => true
  | .garbageCollection => true
  | .readDisturb _ => true
  | .readRefresh _ _ => true
  | .wearLevelling _ => true
  | .blockRepair _ _ => true
  | .reKeyWalk tenant => lt 256 tenant
  | .saveAreaErase _ => true
  | .maceT1Frame b e => lt 9216 b && frameEnvOk e
  | .maceRepair b => lt 9216 b
  | .maceSelfRefreshWake stack => lt 18 stack.stack && trainOk stack.train
  | .bucketLeak channel n => lt (if channel then 576 else 9216) n
  | .bankRetirement b => lt 9216 b
  | .backgroundZeroing tenant => lt 256 tenant
  | .healthSample => true
  | .stackTemperatureReading stack _ => lt 18 stack
  | .dieTemperatureReading _ => true
  | .appGovernorStep _ => true
  | .powerEstimateUpdate _ _ _ => true
  | .powerStateEntry => true
  | .powerStateExit why => trainOk why.train
  | .wrstNRise => true
  | .standbyPowerLoss => true
  | .railCollapse => true
  | .netclkReturn => true
  | .cmRep qpn peerQpn psn status => below 24 qpn && below 24 peerQpn && below 24 psn && below 8 status
  | .cmRej qpn reason => below 24 qpn && below 16 reason
  | .arpReply _ mac => below 48 mac
  | .neighborAdvertisement _ mac => below 48 mac
  | .pinAccess b e => lt 9216 b && frameEnvOk e
  | .replicaLeaseRenewal tenant => lt 256 tenant
  | .freezeWaitExpiry mig => below 32 mig
  | .partitionTimer p => lt 32 p.part && lt 32 p.core && p.acts.all guestOpOk
  | .jtagVendorToken _ => true
  | .pldmBase _ => true

end Sys2Proof
end

