-- ==== Sys2Proof/Safety.lean ====
section
/-! DEFINITION. What claims are stated in: safe steps, the invariants of the state, a mailbox command that passes every check, and
what an arm word meets. -/

namespace Sys2Proof.Machine

open Sys2Proof

/-! ## Safe steps -/

/-- A command answers a next state: no fault, no refusal. -/
def Completes (i : Instr) (s : State) : Prop := ∃ t, exec i s = .next t

/-- Every waiting command is well-formed. -/
def queueWf (s : State) : Bool := s.pending.all Instr.wf

/-! ## Invariants -/

/-- Every byte memory of the node is in its canonical form. -/
def memoriesWf (s : State) : Bool :=
  Memory.wf s.mem.t1 && Memory.wf s.nuc.win && Memory.wf s.sec.flash &&
  s.serv.parts.all (fun p => Memory.wf p.mem) && s.mem.banks.all (fun k => Memory.wf k.v)

/-- Order of the life-cycle states: each is left only for a later one (R479). -/
def lcsRank : Lcs → Nat
  | .test => 0
  | .field => 1
  | .return_ => 2
  | .void => 3

/-- What the fuses hold: a floor under the life-cycle state and the SVN count, and a programmed owner root (R478, R479, R485, R608). -/
structure FusesHold (rank svn : Nat) (root : Option Bytes) (s : State) : Prop where
  life  : rank ≤ lcsRank s.sec.lcs
  count : svn ≤ s.sec.svnCount
  owner : ∀ r, root = some r → s.sec.ownerRoot = some r

/-! ## Mailbox commands -/

/-- The node serves, the box can be reached (R19), the command word of `c` arms a command of this code (or has armed it), giving `s1` and the copy `r`, and the
checks that every command has pass (R380, R383, R605). -/
def Accepted (code : Nat) (k : MailKind) (need : Bytes → Nat) (c : Cmd) (s s1 : State) (r : MailCmd) : Prop :=
  (serves s = true ∧ (s.port.link = true ∨ c.box = .sideband)) ∧ mailTake s c code = some (s1, r) ∧ mailCheck k c.box (boxRole s1 c.box) r need = none

/-- The QP that issued a command, and the tenant of its session. -/
def callerQp (s : State) (c : Cmd) : Nat := (boxQp s c.box).getD 0
def callerTenant (s : State) (c : Cmd) : Nat := match boxRole s c.box with | some (.tenant t) => t | _ => 0

/-- The reply is written, and the configuration copy follows what has changed (R381, R568). -/
def answered (s : State) (c : Cmd) (status : Nat) (body : Bytes) : State := saveCfg (mailReply s c.box status body)

/-- A load command whose staged bytes are `v`: its lease lives, and the body's fields are in range (R391). -/
def LoadTaken (code : Nat) (weight : Bool) (c : Cmd) (s s1 : State) (r : MailCmd) (v : Bytes) : Prop :=
  Accepted code .tenant (fun _ => 64) c s s1 r ∧
  loadBytes (settleLease s1 (fld r.body 0 2)) weight (callerTenant s1 c) r.body = .inl v

/-! ## Requests -/

/-- The request that an arm word makes of a slot's bytes (R397). -/
def armedRq (s : State) (id : Req) (l : Lease) (via word : Nat) : Rq :=
  let all := slotBytes s id
  let h := cut all 0 64
  let c := fld h 4 2
  let cs := if flagAt h 6 0 && cellHeld s l.id c && decide (c < 0xFFC0) then some c else none
  { id := id, op := fld h 0 1, prio := bfld h 1 1 1 0, lease := l.id, tenant := l.tenant, seq := word / 2 ^ 48 % 65536, via := via,
    csync := cs, cmplAddr := fld h 8 8, cmplRkey := fld h 0x10 4, cmplQp := fld h 0x14 4, armTime := s.now,
    order := s.eng.order + 1, deadline := s.now, snapGen := s.sq.gen, body := all.drop 64 }

/-- The state in which the checks of the opcode's own chapter begin: LAST is the arm word's SLOTSEQ and the request stands. -/
def armedState (s : State) (id : Req) (l : Lease) (via word : Nat) : State :=
  let t := setLast s id (word / 2 ^ 48 % 65536)
  { t with eng.reqs := s.eng.reqs ++ [armedRq s id l via word], eng.order := s.eng.order + 1 }

/-- A partition's store of an arm word of an internal slot under its live service lease `l`, after accesses that bring it to `s1`
without a stop; `t` is the state with the word stored (R306). -/
def StoreReaches (word : Nat) (a : Arm) (id : Req) (l : Lease) (via : Nat) (s t : State) : Prop :=
  ∃ p acts s1 k, a.via = .part p acts ∧ guestRun p acts s = (s1, false) ∧ id = .int k.lease a.slot ∧ via = 0 ∧ partOf s1 p = some k ∧
    leaseOf s1 k.lease = some l ∧ a.slot < k.nslots ∧ leaseLive s1 l = true ∧
    t = mapPart s1 p fun k => { k with mem := memWrite k.mem (guestSlot a.slot + 0xFF8) (u64 word) }

/-- An 8-byte WRITE of an arm word on a connected QP that may write slot `a.slot` of lease `l` and whose packet its policers let pass;
`t` is the state with the word placed and the packet acknowledged (R371, R396, R468). -/
def WriteReaches (word : Nat) (a : Arm) (id : Req) (l : Lease) (via : Nat) (s t : State) : Prop :=
  ∃ n q s0, a.via = .qp n ∧ id = .net a.slot ∧ via = q.num ∧ a.slot < 65536 ∧ s.port.link = true ∧ qpOf s n = some q ∧
    q.state = .connected ∧ slotLease s a.slot = some l ∧ police s (some l.rkey) n (roceCount s (v4Peer q) 16 8) = (s0, true) ∧
    writeOk s0 q.num (slotAddr a.slot + 0xFF8) 8 l.rkey = true ∧
    t = mapQp (postAck (advance (windowWrite s0 (.slot a.slot 0xFF8) 0 (u64 word)) q.num 1) q q.rxPsn) q.num
      (fun q => { q with placing := none }) ∧
    slotLease t a.slot = some l ∧ leNat (memRead t.nuc.win (slotAddr a.slot + 0xFF8) 8) = word

/-- The arm word of a row reaches its slot. -/
def ArmReaches (op : Nat) (cancel : Bool) (a : Arm) (id : Req) (l : Lease) (via : Nat) (s t : State) : Prop :=
  serves s = true ∧
  (StoreReaches (wordOf op cancel a) a id l via s t ∨ WriteReaches (wordOf op cancel a) a id l via s t)

/-- The rows of data-plane opcodes (R403, Table 14-11). -/
def dataRows : List ((Arm → Instr) × Nat) :=
  [(.attend, 0x01), (.attendSelect, 0x02), (.mergeForward, 0x03), (.appendScatter, 0x10), (.commit, 0x11), (.truncate, 0x12),
   (.search, 0x20), (.insertVectors, 0x21), (.deleteVectors, 0x22), (.runLayers, 0x30), (.score, 0x31), (.replicaPut, 0x40)]

/-- The arm word of a row reaches its slot and arms it (R397). -/
def Arms (op : Nat) (a : Arm) (id : Req) (l : Lease) (via : Nat) (s t : State) : Prop :=
  ArmReaches op false a id l via s t ∧ reqOf t id = none ∧ a.seq % 65536 = (lastOf t id + 1) % 65536

/-- The slot is armed, its copy is good, the header passes step 1 of R399, the lease step 2. -/
def ArmTaken (op : Nat) (a : Arm) (id : Req) (l : Lease) (via : Nat) (s t : State) : Prop :=
  Arms op a id l via s t ∧ a.ue = false ∧
  fld (cut (slotBytes t id) 0 64) 0 1 = op ∧
  headOk (armedState t id l via (wordOf op false a)) id l (cut (slotBytes t id) 0 64) (wordOf op false a) = true ∧
  leaseLive t l = true

/-! ## Received packets -/

/-- A request packet passes MACsec, the policers and the invariant CRC, and is the next on its connected QP `q`; `s1` is the state in
which it is executed (R444, R454, R456, R468, R474). -/
def RxTaken (x : Rx) (rkey : Nat) (s s1 : State) (q : Qp) : Prop :=
  ∃ s2 s3, serves s = true ∧ s.port.link = true ∧ secOk s x.sec = (s2, true) ∧ x.supported = true ∧
    police s2 (some rkey) x.qp x.count = (s3, true) ∧ x.icrcOk = true ∧ qpOf s3 x.qp = some q ∧ q.state = .connected ∧
    x.psn = q.rxPsn ∧ s1 = mapQp (congestion s3 q x.ce) q.num fun q => { q with nakSent := false }

/-- The same for a packet that is not the next: `s1` is the state in which its duplicate or its gap is answered. -/
def RxOutOfOrder (x : Rx) (rkey : Nat) (s s1 : State) (q : Qp) : Prop :=
  ∃ s2 s3, serves s = true ∧ s.port.link = true ∧ secOk s x.sec = (s2, true) ∧ x.supported = true ∧
    police s2 (some rkey) x.qp x.count = (s3, true) ∧ x.icrcOk = true ∧ qpOf s3 x.qp = some q ∧ q.state = .connected ∧
    x.psn ≠ q.rxPsn ∧ s1 = congestion s3 q x.ce

end Sys2Proof.Machine
end

