-- ==== Sys2Proof/Certificates/Slice0/Obligations.lean ====
section
/-! DEFINITION. The statements about the model. -/

open Sys2Proof Sys2Proof.Machine

/-! ## The block -/

/-- One step takes the command at the front of the queue and runs it with the queue's rest. -/
def Obligations.StepRunsFrontCommand : Prop :=
  ∀ (c : Instr) (rest : List Instr) (s : State), step { s with pending := c :: rest } = exec c { s with pending := rest }

/-- With an empty queue a step moves the node clock on by 1 ns and changes nothing else (the model's choice, log entry 4). -/
def Obligations.IdleStepAdvancesClock : Prop :=
  ∀ s : State, s.pending = [] → step s = .next { s with clock := { s.clock with now := s.clock.now + 1 } }

/-- Every well-formed command answers a next state, in every state: the model stops on none of them. -/
def Obligations.WellFormedCommandsComplete : Prop := ∀ (i : Instr) (s : State), i.wf = true → Completes i s

/-- A row that names a bank above 9,215, a channel above 575 or a stack above 17 faults. -/
def Obligations.AbsentHardwareFaults : Prop :=
  (∀ (k : BankCmd) (s : State), 9216 ≤ k.bank →
    ∀ mk ∈ [Instr.spanAttend, .spanQk, .spanPv, .pageTagCheck, .pageTagWrite, .sketchPage, .quantStore, .ropeApply, .normRms,
      .normLayer, .elem, .dotRows, .distExact, .fillZero, .copyInBank, .loadReg, .clear, .storeReg],
      exec (mk k) s = .fault .noSuchBank) ∧
  (∀ (b : Nat) (s : State), 9216 ≤ b → ∀ mk ∈ [Instr.refreshDue, .refreshDone, .maceRepair, .bankRetirement],
    exec (mk b) s = .fault .noSuchBank) ∧
  (∀ (b : Nat) (e : OpEnv) (s : State), 9216 ≤ b → ∀ mk ∈ [Instr.bankOperationOutcome, .governorRelease],
    exec (mk b e) s = .fault .noSuchBank) ∧
  (∀ (b : Nat) (e : FrameEnv) (s : State), 9216 ≤ b → ∀ mk ∈ [Instr.pinAccess, .maceT1Frame],
    exec (mk b e) s = .fault .noSuchBank) ∧
  (∀ (n : Nat) (s : State), 9216 ≤ n → exec (.bucketLeak false n) s = .fault .noSuchBank) ∧
  (∀ (n : Nat) (s : State), 576 ≤ n → exec (.bucketLeak true n) s = .fault .noSuchBank) ∧
  (∀ (n : Nat) (ts : List Int) (s : State), 18 ≤ n → exec (.stackTemperatureReading n ts) s = .fault .noSuchBank) ∧
  (∀ (n : Nat) (t : Train) (s : State), 18 ≤ n → exec (.maceSelfRefreshWake ⟨n, t⟩) s = .fault .noSuchBank)

/-- The fuses only move forward: whatever the life-cycle state, the SVN count and the owner root have reached, no step takes back. -/
def Obligations.FusesNeverGoBack : Prop :=
  ∀ (rank svn : Nat) (root : Option Bytes) (s t : State), FusesHold rank svn root s → step s = .next t → FusesHold rank svn root t

/-! ## Session commands -/

/-- NONCE_GET answers a nonce of 32 bytes with its expiry, 10 s on; each replaces the QP's earlier one; an OPEN_SESSION that presents the
nonce of its QP uses it up, and one that presents any other is refused (R374). -/
def Obligations.NoncesServeOneSession : Prop :=
  (∀ (c : Cmd) (s s1 : State) (r : MailCmd), Accepted 0x0001 .open (fun _ => 0) c s s1 r →
    exec (.nonceGet c) s = .next (answered
      (mapQp { s1 with free := s1.free + 1 } (callerQp s1 c) fun q =>
        { q with nonce := some (cut (Config.nonce s1.free) 0 32, s1.now + 10 * 10 ^ 9) })
      c stOK (cut (Config.nonce s1.free) 0 32 ++ u64 (s1.now + 10 * 10 ^ 9)))) ∧
  (∀ (c : Cmd) (sig : Option Signed) (s s1 : State) (r : MailCmd) (q : Qp) (e : Nat),
    Accepted 0x0002 .open (fun _ => 0x30 + sigLen) c s s1 r → boxRole s1 c.box = none → qpOf s1 (callerQp s1 c) = some q →
    zeroAt r.body 0 8 = true → q.nonce = some (cut r.body 0x10 32, e) → s1.now < e → s1.now < fld r.body 8 8 →
    ownerVerified s1 sessionKeyOff (credential 0 s1.pw.node 0 0 (fld r.body 8 8) (cut r.body 0x10 32)) sig = true →
    exec (.openSession c sig) s = .next (answered
      (mapQp { mapQp s1 (callerQp s1 c) (fun x => { x with nonce := none }) with free := s1.free + 1 } (callerQp s1 c) fun x =>
        { x with session := some ⟨.owner, fld r.body 8 8, Config.pick s1.free % 2 ^ 32⟩ })
      c stOK (u32 (Config.pick s1.free % 2 ^ 32)))) ∧
  (∀ (c : Cmd) (sig : Option Signed) (s s1 : State) (r : MailCmd), Accepted 0x0002 .open (fun _ => 0x30 + sigLen) c s s1 r →
    fld r.body 0 1 ≤ 1 → (fld r.body 0 1 = 0 → fld r.body 1 1 = 0) → fld r.body 2 1 = 0 → zeroAt r.body 3 5 = true →
    (∀ q e, qpOf s1 (callerQp s1 c) = some q → q.nonce = some (cut r.body 0x10 32, e) → e ≤ s1.now) →
    exec (.openSession c sig) s = .next (answered s1 c stFENCED []))

/-- OPEN_SESSION with the fields of a tenant's credential that verifies opens a session of that tenant; CLOSE_SESSION and the session's end time
end it (R375, R376). -/
def Obligations.SessionsOpenAndClose : Prop :=
  (∀ (c : Cmd) (sig : Option Signed) (s s1 : State) (r : MailCmd) (k : Tenant),
    Accepted 0x0002 .open (fun _ => 0x30 + sigLen) c s s1 r → boxRole s1 c.box = none →
    fld r.body 0 1 = 1 → fld r.body 2 1 = 1 → zeroAt r.body 3 5 = true → zeroAt r.body 0x10 32 = true →
    tenantOf s1 (fld r.body 1 1) = some k → k.dying = false → s1.now < fld r.body 8 8 →
    ownerVerified s1 sessionKeyOff (credential 1 s1.pw.node 1 (fld r.body 1 1) (fld r.body 8 8) (cut r.body 0x10 32)) sig = true →
    exec (.openSession c sig) s = .next (answered
      (mapQp { s1 with free := s1.free + 1 } (callerQp s1 c) fun x =>
        { x with session := some ⟨.tenant (fld r.body 1 1), fld r.body 8 8, Config.pick s1.free % 2 ^ 32⟩ })
      c stOK (u32 (Config.pick s1.free % 2 ^ 32)))) ∧
  (∀ (c : Cmd) (s s1 : State) (r : MailCmd), Accepted 0x0003 .any (fun _ => 0) c s s1 r →
    exec (.closeSession c) s = .next (answered (endSession s1 (callerQp s1 c)) c stOK [])) ∧
  (∀ (n : Nat) (s : State) (q : Qp) (x : Session), qpOf s n = some q → q.session = some x →
    exec (.sessionExpiry n) s = .next (endSession { s with clock := { s.clock with now := max s.clock.now x.notAfter } } n))

/-- MBOX_ATTACH gives an OWNER session one free control mailbox with LAST 0xFFFF and a fresh rkey; MBOX_DETACH takes it back; PEER_CONNECT
opens a QP and its reply waits for the peer (R378, R393). -/
def Obligations.MailboxesAttachAndPeersConnect : Prop :=
  (∀ (c : Cmd) (s s1 s2 : State) (r : MailCmd) (m : Nat), Accepted 0x0004 .owner (fun _ => 0) c s s1 r →
    (s1.nuc.ctl.any fun k => k.qp == some (callerQp s1 c)) = false →
    pickOf s1 ((List.range 64).filter fun m => (ctlOf s1 m).qp.isNone && (ctlOf s1 m).box.run.isNone) = some (m, s2) →
    exec (.mboxAttach c) s = .next (answered
      (setCtl { s2 with free := s2.free + 1 } { ctlOf s2 m with
        qp := some (callerQp s1 c), rkey := (Config.rkey s2.free).toNat, box := { (ctlOf s2 m).box with last := 0xFFFF, run := none } })
      c stOK (u8 m ++ zeros 3 ++ u32 (Config.rkey s2.free).toNat))) ∧
  (∀ (c : Cmd) (s s1 : State) (r : MailCmd), Accepted 0x0005 .owner (fun _ => 0) c s s1 r →
    (s1.nuc.ctl.any fun k => k.qp == some (callerQp s1 c)) = true →
    let mute := fun (r : MailCmd) => { r with noticeAddr := 0 }
    let detach := fun (m : CtlBox) =>
      if m.qp == some (callerQp s1 c) then { m with qp := none, box := { m.box with run := m.box.run.map mute } } else m
    exec (.mboxDetach c) s = .next (answered { s1 with nuc := { s1.nuc with ctl := s1.nuc.ctl.map detach } } c stOK [])) ∧
  (∀ (c : Cmd) (s s1 s2 : State) (r : MailCmd) (n : Nat), Accepted 0x0006 .tenant (fun _ => 0x20 + sigLen) c s s1 r →
    zeroAt r.body 2 6 = true →
    openQp s1 (.peer (callerTenant s1 c) (fld r.body 8 8) c.box) (fld r.body 0x10 16) (fld r.body 0 2) (cut r.body 0x20 sigLen)
      = some (n, s2) →
    exec (.peerConnect c) s = .next (saveCfg (mailBegun s2 c.box)))

/-- Queries answer from the state and change nothing else (R387 to R390, R526, R535). -/
def Obligations.QueriesAnswerFromState : Prop :=
  (∀ (c : Cmd) (s s1 : State) (r : MailCmd), Accepted 0x0007 .tenant (fun _ => 4) c s s1 r →
    1 ≤ fld r.body 2 2 → fld r.body 2 2 ≤ 1000 →
    ((List.range (fld r.body 2 2)).map (fld r.body 0 2 + ·)).all (fun i => match slotLease s1 i with
      | some l => l.tenant == callerTenant s1 c && l.service.isNone | none => false) = true →
    exec (.slotQuery c) s = .next (answered s1 c stOK (((List.range (fld r.body 2 2)).map (fld r.body 0 2 + ·)).flatMap fun i =>
      u32 (lastOf s1 (.net i) + (if (reqOf s1 (.net i)).isSome then 65536 else 0))))) ∧
  (∀ (c : Cmd) (s s1 : State) (r : MailCmd) (t : Tenant), Accepted 0x0008 .tenant (fun _ => 0) c s s1 r →
    tenantOf s1 (callerTenant s1 c) = some t →
    exec (.statsGet c) s = .next (answered s1 c stOK
      (u64 t.stale ++ u64 t.ignored ++ u64 t.noRecord ++ u64 t.timedOut ++ u64 t.fenced ++ u64 t.cancelled ++ u64 t.lostCount ++
        u64 t.noNotice))) ∧
  (∀ (c : Cmd) (s s1 : State) (r : MailCmd) (q : Seq), Accepted 0x0112 .tenant (fun _ => 16) c s s1 r →
    1 ≤ fld r.body 0xC 2 → fld r.body 0xC 2 ≤ 126 → zeroAt r.body 0xE 2 = true →
    tenantSeq s1 (callerTenant s1 c) (fld r.body 0 8) = some q →
    exec (.spanInfo c) s = .next (answered s1 c stOK ((List.range (fld r.body 0xC 2)).flatMap fun i =>
      match spanOf s1 q.als (fld r.body 8 1) (fld r.body 9 1) (fld r.body 0xA 2 + i) with
      | some y => spanBytes y
      | none => zeros 32))) ∧
  (∀ (c : Cmd) (s s1 : State) (r : MailCmd) (qs : List Seq), Accepted 0x0115 .tenant (fun _ => 8) c s s1 r →
    qs = (sortBy (fun (a b : Seq) => decide (a.handle < b.handle)) (s1.sq.seqs.filter fun q =>
      q.tenant == callerTenant s1 c && !q.gone && q.stub.isNone && decide (fld r.body 0 8 < q.handle))).take 168 →
    exec (.durableReport c) s = .next (answered
      (qs.foldl (fun s q => mapSeq s q.als fun q => { q with restarted := false }) s1)
      c stOK (u32 qs.length ++ zeros 4 ++ qs.flatMap (durBytes s1)))) ∧
  (∀ (c : Cmd) (s s1 : State) (r : MailCmd) (es : List ErrRec), Accepted 0x0270 .control (fun _ => 8) c s s1 r →
    es = (s1.hl.errs.filter fun e => decide (fld r.body 0 8 ≤ e.recno)).take 126 →
    exec (.errorLogRead c) s = .next (answered s1 c stOK
      (u64 (((s1.hl.errs.head?).map ErrRec.recno).getD s1.hl.nextRec) ++ u32 es.length ++ zeros 4 ++ es.flatMap errBytes))) ∧
  (∀ (c : Cmd) (s s1 : State) (r : MailCmd), Accepted 0x0271 .control (fun _ => 0) c s s1 r →
    exec (.healthGet c) s = .next (answered s1 c stOK
      (u16 s1.hl.score ++ u8 s1.hl.band ++ u8 s1.hl.pbad ++ u16 (retiredOrRetiring s1) ++ u16 (retiredChannels s1) ++
        u16 s1.hl.hb ++ u16 s1.hl.hu ++ u16 s1.hl.hc ++ u16 s1.hl.hf ++ u16 s1.hl.hs ++ u16 0 ++ u32 s1.hl.u24 ++ u32 s1.hl.v24 ++
        u32 0 ++ u64 s1.hl.ceTotal ++ u64 s1.hl.sramCe ++ u64 s1.hl.passEnd ++ u64 s1.hl.bandSince)))

/-! ## Leases -/

/-- LEASE_GRANT, LEASE_RENEW and LEASE_RELEASE do what R423, R427 and R607 give them where no limit, clock state or end stands in the
way. -/
def Obligations.LeasesGrantRenewRelease : Prop :=
  (∀ (c : Cmd) (s s1 s2 : State) (r : MailCmd) (l : Lease), Accepted 0x0100 .tenant (fun _ => 16) c s s1 r →
    inRange (fld r.body 0 4) 100 60000 = true → inRange (fld r.body 4 4) 1 16384 = true →
    fld r.body 8 4 ≤ 16384 → fld r.body 8 4 % 64 = 0 → fld r.body 12 4 ≤ 16384 → fld r.body 12 4 % 2 = 0 →
    clockOk s1 = true → noSaveArea s1 = false →
    allotLease s1 (callerTenant s1 c) (fld r.body 0 4) (fld r.body 4 4) (fld r.body 8 4) (fld r.body 12 4) none = some (l, s2) →
    exec (.leaseGrant c) s = .next (answered s2 c stOK (u32 l.rkey ++ zeros 4 ++ leaseCellBytes l))) ∧
  (∀ (c : Cmd) (s s1 s2 : State) (r : MailCmd) (l : Lease), Accepted 0x0101 .tenant (fun _ => 8) c s s1 r →
    zeroAt r.body 4 4 = true → s2 = settleLease s1 (fld r.body 0 2) →
    tenantLease s2 (callerTenant s1 c) (fld r.body 0 2) = some l → l.state = .active → l.gen = fld r.body 2 2 → clockOk s2 = true →
    (l.service = none → exec (.leaseRenew c) s =
      .next (answered (mapLease s2 (fld r.body 0 2) fun _ => setTerm s2 l) c stOK (leaseCellBytes (setTerm s2 l)))) ∧
    (l.service ≠ none → exec (.leaseRenew c) s =
      .next (answered (mapLease s2 (fld r.body 0 2) fun _ => l) c stOK (leaseCellBytes l)))) ∧
  (∀ (c : Cmd) (s s1 s2 : State) (r : MailCmd) (l : Lease), Accepted 0x0102 .tenant (fun _ => 2) c s s1 r →
    s2 = settleLease s1 (fld r.body 0 2) → tenantLease s2 (callerTenant s1 c) (fld r.body 0 2) = some l →
    exec (.leaseRelease c) s = .next (answered (endLease s2 (fld r.body 0 2) 2) c stOK []))

/-- A granted lease is ACTIVE with the term, slots, cells and staging asked for; its FENCE_AT is never later than its EXPIRY, and equal
to it under a LOCKED clock (R425, R426). -/
def Obligations.GrantedLeaseTerms : Prop :=
  ∀ (s t : State) (tenant ms n cells mib : Nat) (l : Lease), allotLease s tenant ms n cells mib none = some (l, t) →
    l.state = .active ∧ l.tenant = tenant ∧ l.ms = ms ∧ l.slots = n ∧ l.cells = cells ∧ l.stageMib = mib ∧ l.service = none ∧
    l.expiry = t.clock.now + 10 ^ 6 * ms ∧ l.fenceAt ≤ l.expiry ∧ (t.clock.ptp = .locked → l.fenceAt = l.expiry) ∧
    l ∈ t.own.leases

/-! ## Sequences and collections -/

/-- SEQ_CREATE, SEQ_DELETE, SEQ_EVICT and SEQ_INSTALL on a sequence that the command may act on; COLL_CREATE makes an empty collection under a
free id, COLL_DESTROY marks one destroyed and returns what nothing uses (R230, R325, R326, R384 to R386, R392). -/
def Obligations.SequencesAndCollections : Prop :=
  ((∀ (c : Cmd) (s s1 s2 : State) (r : MailCmd) (q : Seq) (a : Nat), Accepted 0x0110 .tenant scNeed c s s1 r →
    q = seqOfBody r.body (callerTenant s1 c) 0 (tenantOf s1 (callerTenant s1 c)) →
    fld r.body 7 1 = callerTenant s1 c → inRange q.layers 1 256 = true → bfld r.body 8 2 15 9 = 0 → inRange q.kvh 1 64 = true →
    bfld r.body 0xA 1 7 7 = 0 → q.dim ≤ 2 → q.fmt ≤ 2 → bfld r.body 0xB 1 7 4 = 0 → zeroAt r.body 0x20 32 = true →
    tenantSeq s1 (callerTenant s1 c) q.handle = none →
    ((tenantOf s1 (callerTenant s1 c)).map Tenant.floor).getD 0 ≤ fld r.body 0x1C 4 →
    let mine := fun (kind : ObjKind) (id : Nat) (o : Obj) => o.kind == kind && o.id == id && o.tenant == callerTenant s1 c && !o.gone
    ((q.rope = 0xFFFFFFFF ∧ s1.sq.objs.find? (mine .rope q.rope) = none) ∨
      ∃ o, s1.sq.objs.find? (mine .rope q.rope) = some o ∧ fld o.bytes 0 2 = headDim q.dim / 2) →
    (∀ k ∈ q.ctables, k = 0xFFFF ∨ s1.sq.objs.any (mine .table k) = true) →
    freeAlias s1 = some (a, s2) →
    exec (.seqCreate c) s = .next (answered
      { renameGone s2 q.handle with sq := { (renameGone s2 q.handle).sq with
          seqs := (renameGone s2 q.handle).sq.seqs ++ [{ q with als := a }] } } c stOK (u16 a))) ∧
  (∀ (c : Cmd) (s s1 : State) (r : MailCmd) (q : Seq), Accepted 0x0111 .tenant (fun _ => 8) c s s1 r →
    tenantSeq s1 (callerTenant s1 c) (fld r.body 0 8) = some q → q.writer = none →
    exec (.seqDelete c) s = .next (answered (deleteSeq s1 q) c stOK [])) ∧
  (∀ (c : Cmd) (s s1 : State) (r : MailCmd) (q : Seq), Accepted 0x0113 .tenant (fun _ => 8) c s s1 r →
    tenantSeq s1 (callerTenant s1 c) (fld r.body 0 8) = some q →
    exec (.seqEvict c) s = .next (answered
      (((evictList s1 (callerTenant s1 c)).filter fun y => y.als == q.als).foldl evict s1) c stOK [])) ∧
  (∀ (c : Cmd) (lost : List LostBlock) (s s1 s2 : State) (r : MailCmd) (q : Seq), Accepted 0x0114 .tenant (fun _ => 8) c s s1 r →
    tenantSeq s1 (callerTenant s1 c) (fld r.body 0 8) = some q →
    installAll q.len lost (sortBy (fun (a b : Span) =>
        decide (spanId a.als a.layer a.head a.idx < spanId b.als b.layer b.head b.idx))
      (s1.sq.spans.filter fun y => y.als == q.als && y.state == .flashOnly)) s1 = (s2, stOK) →
    exec (.seqInstall c lost) s = .next (answered s2 c stOK []))) ∧
  ((∀ (c : Cmd) (s s1 s2 : State) (r : MailCmd) (i : Nat), Accepted 0x0120 .tenant (fun _ => 16) c s s1 r →
    inRange (fld r.body 0 2) 32 2048 = true → fld r.body 0 2 % 32 = 0 → [1, 2, 3, 5].contains (fld r.body 2 1) = true →
    fld r.body 3 1 ≤ 2 → [16, 32, 64].contains (fld r.body 4 1) = true → fld r.body 5 1 ≤ 1 → zeroAt r.body 6 2 = true →
    pickRun s1 0 4096 1 (s1.sq.colls.map fun c => (c.id, 1)) = some (i, s2) →
    let k : Coll := ⟨i, callerTenant s1 c, fld r.body 0 2, fld r.body 2 1, 256 * 2 ^ fld r.body 3 1, fld r.body 4 1, fld r.body 5 1,
      fld r.body 8 8, none, [], [], false⟩
    exec (.collCreate c) s = .next (answered { s2 with sq := { s2.sq with colls := s2.sq.colls ++ [k] } } c stOK (u16 i))) ∧
  (∀ (c : Cmd) (s s1 : State) (r : MailCmd) (k : Coll), Accepted 0x0121 .tenant (fun _ => 2) c s s1 r →
    collOf s1 (callerTenant s1 c) (fld r.body 0 2) = some k →
    exec (.collDestroy c) s = .next (answered (reapColls (setColl s1 { k with gone := true })) c stOK [])))

/-- REPLICA_PROMOTE turns the objects of a source sequence into a local sequence, REPLICA_DROP deletes them or withdraws the tenant's whole pair;
a tenant's replica session is retried and renewed, and a withdrawn peer is told once it can be reached (R334, R337, R338, R509). -/
def Obligations.ReplicasAndTheirSessions : Prop :=
  ((∀ (c : Cmd) (s s1 s2 : State) (r : MailCmd) (q : Seq), Accepted 0x0116 .tenant (fun _ => 16) c s s1 r →
    let t := callerTenant s1 c
    let seq := fld r.body 0 8
    let src := fld r.body 8 2
    let vs := replicasOf s1 t src seq
    zeroAt r.body 10 6 = true → seq / 2 ^ 56 = t → s1.fl.withdrawn.contains (t, src) = false → vs ≠ [] → sourceLive s1 vs = false →
    (∀ x, seqOf s1 seq = some x → x.len = 0 ∧ x.tenant = t ∧ (s1.sq.spans.any fun y => y.als == x.als) = false) → promoteSeq s1 t seq vs = some (q, s2) →
    let s3 := adopt s2 q vs (heldLen s2 vs q.layers q.kvh)
    let own := fun (x : Seq) =>
      { x with promoted := true,
               incoming := none,
               bound := ((tenantOf s3 t).map Tenant.bound).getD x.bound,
               domain := ((tenantOf s3 t).map Tenant.domain).getD x.domain }
    let s4 := mapSeq s3 q.als own
    let s5 : State := { s4 with fl := { s4.fl with promoted := s4.fl.promoted ++ [(src, seq)] } }
    ∀ q', seqOf s5 seq = some q' → exec (.replicaPromote c) s = .next (answered s5 c stOK (durBytes s5 q'))) ∧
  (∀ (c : Cmd) (s s1 : State) (r : MailCmd), Accepted 0x0117 .tenant (fun _ => 16) c s s1 r → zeroAt r.body 10 6 = true →
    let t := callerTenant s1 c
    let src := fld r.body 8 2
    (fld r.body 0 8 = wholeTenant t →
      let s2 := (s1.fl.objs.filter fun v => v.tenant == t && (match v.kind with | .replica a _ _ => a == src | _ => false)).foldl
        (fun s v => deleteObj s v.idx) s1
      exec (.replicaDrop c) s = .next (answered { s2 with fl := { s2.fl with withdrawn := s2.fl.withdrawn ++ [(t, src)] } } c stOK [])) ∧
    (fld r.body 0 8 ≠ wholeTenant t → replicasOf s1 t src (fld r.body 0 8) ≠ [] →
      exec (.replicaDrop c) s = .next (answered
        ((replicasOf s1 t src (fld r.body 0 8)).foldl (fun s v => deleteObj s v.idx) s1) c stOK [])))) ∧
  ((∀ (tn : Nat) (s : State) (k : Tenant) (q : Qp), serves s = true → tenantOf s tn = some k → k.domain = 1 → k.dying = false →
    let next := ((s.fl.retries.find? fun r => r.tenant == tn).map Retry.next).getD 0
    let s0 := s.at next
    let e : Retry := ⟨tn, s0.now + 100000000, 0, [], k.replica, []⟩
    let s1 : State := { s0 with fl := { s0.fl with retries := (s0.fl.retries.filter fun r => r.tenant != tn) ++ [e] } }
    replicaQp s1 tn = some q → q.state = .connected →
    let s2 := settlePuts (putTimeouts s1 q.num)
    ∀ p, peerFor s2 tn none = some p →
      (p.lease ≠ none → exec (.replicaRetry tn) s = .next (putFlushes s2 tn)) ∧
      (p.lease = none → s2.now < k.replicaNotAfter →
        exec (.replicaRetry tn) s = .next (putFlushes (peerAgain s2 p k.replicaNotAfter k.replicaSig) tn)) ∧
      (p.lease = none → k.replicaNotAfter ≤ s2.now → exec (.replicaRetry tn) s = .next s2)) ∧
  (∀ (tn : Nat) (s : State) (p : Peer), serves s = true → peerFor s tn none = some p →
    exec (.replicaLeaseRenewal tn) s = .next (renewPeer s p)) ∧
  (∀ (tn : Nat) (s : State) (w : Retry) (q : Qp) (p : Peer), serves s = true → (s.fl.withdraw.find? fun w => w.tenant == tn) = some w →
    let s0 := s.at w.next
    (s.nuc.qps.find? fun q => q.use == .replica tn && q.state == .connected) = some q →
    peerFor s tn none = some p → p.dropped = true → q.unacked = [] →
    let t := leaveConnected (postCm s0 (.cmDreq q.peerQpn)) q.num .closing
    exec (.peerWithdrawRetry tn) s = .next { t with fl := { t.fl with
      withdraw := t.fl.withdraw.filter fun x => x.tenant != tn,
      peers := t.fl.peers.filter fun p => !(p.tenant == tn && p.mig.isNone) } }))

/-! ## Loaded objects and services -/

/-- A load whose staged bytes are valid and whose frames and T2 units fit keeps the object and answers its id and digest; PLAN_UNLOAD and
TABLE_UNLOAD remove the object and its stored copy (R283, R304, R350 to R352, R391). -/
def Obligations.ObjectsAreLoadedAndUnloaded : Prop :=
  ((∀ (c : Cmd) (s s1 s2 s3 : State) (r : MailCmd) (v : Bytes) (i : Nat) (o : Obj), LoadTaken 0x0130 true c s s1 r v →
    let s0 := settleLease s1 (fld r.body 0 2)
    let t := callerTenant s1 c
    o = { weightObj t 0xFFFFFFFF s0.eng.order r.body v with id := i } →
    inRange (wFmt o) 1 6 = true → wEnc o ≤ 2 → o.store ≤ 4 → inRange (wLayers o) 1 256 = true → wA o ≠ 0 → wB o ≠ 0 →
    weightFits o = true → ldReplace r.body = 0xFFFFFFFF → pickRun s0 0 0xFFFF 1 (usedIds s0 .weight) = some (i, s2) →
    keepObj s2 o r.body = some s3 →
    exec (.weightLoad c) s = .next (answered s3 c stOK (u32 i ++ zeros 4 ++ cut (sha3 v) 0 32))) ∧
  (∀ (c : Cmd) (s s1 s3 : State) (r : MailCmd) (v : Bytes) (old o : Obj), LoadTaken 0x0130 true c s s1 r v →
    let s0 := settleLease s1 (fld r.body 0 2)
    let t := callerTenant s1 c
    let i := ldReplace r.body
    o = weightObj t i s0.eng.order r.body v → i ≠ 0xFFFFFFFF →
    inRange (wFmt o) 1 6 = true → wEnc o ≤ 2 → o.store ≤ 4 → inRange (wLayers o) 1 256 = true → wA o ≠ 0 → wB o ≠ 0 →
    weightFits o = true → weightOf s0 t i = some old → planNames s0 t i = false ∨ sameShape old o = true →
    (keepObj (unstore s0 .weight i) o r.body).bind (fun s => copyNew s o) = some s3 →
    let out := fun (x : Obj) => { x with gone := true, died := some o.born }
    exec (.weightLoad c) s = .next (answered
      (weightRelease { s3 with sq := { s3.sq with objs := mapIf (fun x => x == old) out s3.sq.objs } })
      c stOK (u32 i ++ zeros 4 ++ cut (sha3 v) 0 32))) ∧
  (∀ (c : Cmd) (s s1 s2 s3 : State) (r : MailCmd) (v : Bytes) (i : Nat) (o : Obj), LoadTaken 0x0131 false c s s1 r v →
    let s0 := settleLease s1 (fld r.body 0 2)
    let t := callerTenant s1 c
    o = { kind := .plan, id := i, tenant := t, bytes := v, digest := sha3 v, store := 2 } →
    headerOk v = true → ((planRecords v).all fun r => recordOk v r.1) = true →
    ((planRecords v).any fun r => namesMissing s0 t r.1) = false → ((planRecords v).all fun r => weightsOk s0 t v r.1 r.2) = true →
    pickRun s0 0 256 1 (usedIds s0 .plan) = some (i, s2) →
    keepObj s2 o r.body = some s3 →
    exec (.planLoad c) s = .next (answered s3 c stOK (u32 i ++ zeros 4 ++ cut (sha3 v) 0 32))) ∧
  (∀ (c : Cmd) (s s1 s2 s3 : State) (r : MailCmd) (v : Bytes) (i : Nat), LoadTaken 0x0133 false c s s1 r v →
    let s0 := settleLease s1 (fld r.body 0 2)
    ropeOk v = true → pickRun s0 0 0xFFFFFFFF 1 (usedIds s0 .rope) = some (i, s2) →
    keepObj s2 { kind := .rope, id := i, tenant := callerTenant s1 c, bytes := v, digest := sha3 v, store := 2 } r.body = some s3 →
    exec (.ropeLoad c) s = .next (answered s3 c stOK (u32 i ++ zeros 4 ++ cut (sha3 v) 0 32))) ∧
  (∀ (c : Cmd) (s s1 s2 s3 : State) (r : MailCmd) (v : Bytes) (i : Nat), LoadTaken 0x0134 false c s s1 r v →
    let s0 := settleLease s1 (fld r.body 0 2)
    tableOk v = true → pickRun s0 0 256 1 (usedIds s0 .table) = some (i, s2) →
    keepObj s2 { kind := .table, id := i, tenant := callerTenant s1 c, bytes := v, digest := sha3 v, store := 2 } r.body = some s3 →
    exec (.tableLoad c) s = .next (answered s3 c stOK (u32 i ++ zeros 4 ++ cut (sha3 v) 0 32))) ∧
  (∀ (c : Cmd) (sig : Option Signed) (s s1 s2 s3 : State) (r : MailCmd) (v : Bytes) (i : Nat), LoadTaken 0x0136 false c s s1 r v →
    let s0 := settleLease s1 (fld r.body 0 2)
    imageOk v = true → ownerVerified s0 serviceKeyOff (imageDigest v) sig = true →
    pickRun s0 0 (2 ^ 32) 1 (usedIds s0 .image) = some (i, s2) →
    keepObj s2 { kind := .image, id := i, tenant := callerTenant s1 c, bytes := v, digest := imageDigest v, store := 2 } r.body
      = some s3 →
    exec (.serviceLoad c sig) s = .next (answered s3 c stOK (u32 i ++ zeros 4 ++ cut (imageDigest v) 0 32)))) ∧
  ((∀ (c : Cmd) (s s1 : State) (r : MailCmd) (o : Obj), Accepted 0x0132 .tenant (fun _ => 2) c s s1 r →
    planOf s1 (callerTenant s1 c) (fld r.body 0 2) = some o →
    let out := fun (y : Obj) => { y with gone := true }
    exec (.planUnload c) s = .next (answered (planRelease
      (unstore { s1 with sq := { s1.sq with objs := mapIf (fun y => y == o) out s1.sq.objs } } .plan (fld r.body 0 2))
      (callerTenant s1 c) (fld r.body 0 2)) c stOK [])) ∧
  (∀ (c : Cmd) (s s1 : State) (r : MailCmd) (o : Obj), Accepted 0x0135 .tenant (fun _ => 2) c s s1 r →
    (s1.sq.objs.find? fun o => o.kind == .table && o.id == fld r.body 0 2 && o.tenant == callerTenant s1 c && !o.gone) = some o →
    tableUsed s1 o = false →
    let s2 := freeOwned (unstore s1 .table (fld r.body 0 2)) .table (callerTenant s1 c) (objOwner o)
    exec (.tableUnload c) s = .next (answered { s2 with sq := { s2.sq with objs := s2.sq.objs.erase o } } c stOK [])))

/-- Partitions start from their image, stop on command or by themselves, restart while restarts are left, and a core takes its timer interrupt
at its compare; a SCORE is delivered into its ring entry with the interrupt on the lowest core, and a good reply word completes it (R298,
R305, R312 to R314, R317). -/
def Obligations.PartitionsAndScores : Prop :=
  ((∀ (c : Cmd) (s s1 s2 : State) (r : MailCmd) (o : Obj) (p : Partition), Accepted 0x0137 .tenant (fun _ => 4) c s s1 r →
    imageOf s1 (callerTenant s1 c) (fld r.body 0 4) = some o → o.lost = false → clockOk s1 = true → noSaveArea s1 = false →
    startPartition s1 o none [] = some (p, s2) → exec (.serviceStart c) s = .next (answered s2 c stOK (u8 p.id))) ∧
  (∀ (c : Cmd) (s s1 : State) (r : MailCmd) (k : Partition), Accepted 0x0138 .tenant (fun _ => 1) c s s1 r →
    partOf s1 (fld r.body 0 1) = some k → k.tenant = callerTenant s1 c →
    exec (.serviceStop c) s = .next (answered (stopPartition s1 k.id) c stOK [])) ∧
  (∀ (p : Nat) (acts : List GuestOp) (s0 s : State) (k : Partition) (past : List Nat), serves s0 = true →
    guestRun p acts s0 = (s, false) → partOf s p = some k →
    past = k.restarts.filter (fun t => decide ((haltPartition s k).now < t + 3600 * 10 ^ 9)) →
    (k.restartMax ≤ past.length → exec (.partitionStop ⟨p, acts⟩) s0 = .next (saveCfg (stopEvent (haltPartition s k) k false))) ∧
    (∀ o q t, past.length < k.restartMax → imageOf (haltPartition s k) k.tenant k.image = some o →
      startPartition (haltPartition s k) o (some k.id) (past ++ [(haltPartition s k).now]) = some (q, t) →
      exec (.partitionStop ⟨p, acts⟩) s0 = .next (saveCfg (stopEvent t k true)))) ∧
  (∀ (p core : Nat) (acts : List GuestOp) (s0 s : State) (k : Partition) (x : CoreSt) (t : Nat), serves s0 = true →
    guestRun p acts s0 = (s, false) → partOf s p = some k → (k.cores.find? fun c => c.num == core) = some x → x.timerAt = some t →
    let due := fun (c : CoreSt) => { c with timerAt := none, timerInt := true }
    exec (.partitionTimer ⟨p, core, acts⟩) s0 = .next (leaveState (mapPart (s.at t) p fun k =>
      { k with cores := mapIf (fun c => c.num == core) due k.cores })))) ∧
  ((∀ (p : Nat) (s : State) (k : Partition) (r : Rq) (rest : List Rq), serves s = true → partOf s p = some k →
    (waiting s fun r => r.op == 0x31 && r.phase == .ring && scService r.body == p) = r :: rest →
    (k.ring.any fun x => x.entry == (k.delivered + 1) % 2 ^ 32 % k.entries) = false →
    let n := (k.delivered + 1) % 2 ^ 32
    let e := n % k.entries
    exec (.scoreDelivery p) s = .next (mapReq
      (mapPart (ringWrite (ringWrite s p e 8 (ringBytes r)) p e 0 (u64 (n + r.lease * 2 ^ 32 + r.seq * 2 ^ 48))) p
        fun k => { k with delivered := n, ring := k.ring ++ [⟨e, n, r.id⟩],
                          cores := (k.cores.take 1).map (fun c => { c with extInt := true }) ++ k.cores.drop 1 })
      r.id fun r => { r with phase := .running, place := e })) ∧
  (∀ (p e : Nat) (w : W64) (acts : List GuestOp) (s0 s s1 : State) (k : Partition) (x : RingEnt) (r : Rq), serves s0 = true →
    guestRun p acts s0 = (s, false) → partOf s p = some k →
    e < k.entries → s1 = ringWrite s p e 0xFF8 (u64 w.toNat) →
    (k.ring.find? fun x => x.entry == e && x.delivery == w.toNat % 2 ^ 32) = some x → reqOf s1 x.req = some r →
    bits w.toNat 63 56 = stOK → bits w.toNat 55 46 ≤ scRes r.body →
    let b := r.body
    let s2 := ringFree s1 p r.id
    let s3 := if bits w.toNat 55 46 = 0 then s2
      else emit s2 r (fld b 0x24 4) (fld b 0x18 8) (fld b 0x20 4) (memRead k.mem (ringAddr e + 0xC80) (bits w.toNat 55 46))
    let s4 := if flagAt b 0xD 0 then emitAdd s3 r (fld b 0x24 4) (fld b 0x28 8) (fld b 0x20 4) else s3
    exec (.scoreReply p e ⟨w, acts⟩) s0 = .next (finish
      (mapReq s4 r.id fun r => { r with count := bits w.toNat 55 46, detail := 0 }) r.id stOK)))

/-! ## Control commands -/

/-- NODE_ID_SET, EVENT_SUBSCRIBE, MACE_RATE_SET and WAKE_BUDGET_SET set what their bodies name, and POWER_LIMIT_SET its envelopes and
allowances (R393, R413, R529, R544, R550). -/
def Obligations.NodeSettingsTakeEffect : Prop :=
  (∀ (c : Cmd) (s s1 : State) (r : MailCmd), Accepted 0x0200 .control (fun _ => 2) c s s1 r →
    fld r.body 0 2 ≠ 0 → s1.own.leases = [] →
    exec (.nodeIdSet c) s = .next (answered (saveCfg (identityChanged { s1 with pw := { s1.pw with node := fld r.body 0 2 } }))
      c stOK [])) ∧
  (∀ (c : Cmd) (s s1 : State) (r : MailCmd), Accepted 0x0201 .control (fun _ => 24) c s s1 r → zeroAt r.body 17 7 = true →
    let others := s1.nuc.subs.filter fun u => u.box != c.box
    (fld r.body 0 8 = 0 →
      exec (.eventSubscribe c) s = .next (answered { s1 with nuc := { s1.nuc with subs := others } } c stOK [])) ∧
    (∀ q, fld r.body 0 8 ≠ 0 → inRange (fld r.body 16 1) 6 16 = true →
      q = (if fld r.body 12 4 = 0 then callerQp s1 c else fld r.body 12 4) → ¬ (fld r.body 12 4 = 0 ∧ c.box = .sideband) →
      connected s1 q = true →
      exec (.eventSubscribe c) s = .next (answered { s1 with nuc := { s1.nuc with
        subs := others ++ [⟨c.box, fld r.body 0 8, fld r.body 8 4, q, fld r.body 16 1⟩] } } c stOK []))) ∧
  (∀ (c : Cmd) (s s1 : State) (r : MailCmd), Accepted 0x0272 .control (fun _ => 8) c s s1 r →
    inRange (fld r.body 0 4) 60 10080 = true → fld r.body 4 1 ≤ 90 → zeroAt r.body 5 3 = true →
    exec (.maceRateSet c) s = .next (answered
      { s1 with hl := { s1.hl with passMin := fld r.body 0 4, t2Days := fld r.body 4 1 } } c stOK [])) ∧
  (∀ (c : Cmd) (s s1 : State) (r : MailCmd), Accepted 0x0251 .control (fun _ => 16) c s s1 r →
    fld r.body 0 4 ≤ 100000 → inRange (fld r.body 4 4) 10 1000000 = true → zeroAt r.body 8 8 = true →
    let s2 : State := { s1 with pw := { s1.pw with budgetUs := fld r.body 0 4, dwellUs := fld r.body 4 4 } }
    exec (.wakeBudgetSet c) s = .next (answered (if exitUs s1.pw.pstate > fld r.body 0 4 then leaveState s2 else s2) c stOK [])) ∧
  (∀ (c : Cmd) (s s1 : State) (r : MailCmd), Accepted 0x0250 .control (fun _ => 0x30) c s s1 r →
    let st := (List.range 18).map fun i => fld r.body (2 * i) 2
    let gs := (List.range 8).map fun i => fld r.body (0x24 + i) 1
    let app := fld r.body 0x2C 2
    (∀ v ∈ st, inRange v 120 340 = true) → (∀ v ∈ gs, inRange v 20 140 = true) → inRange app 40 200 = true →
    zeroAt r.body 0x2E 2 = true → sumBy id st ≤ 6200 → sumBy id gs * 5 + app * 10 + 800 ≤ 8200 →
    ∃ t, exec (.powerLimitSet c) s = .next (answered t c stOK []) ∧ t.pw.appW = app ∧ t.arr.groups.map Group.allowance = gs ∧
      ∀ i < 18, (stackOf t i).envelope = st.getD i 340)

/-- Tenants are created, given quotas and a durability domain, given and relieved of keys, and destroyed (R414 to R418, R498, R501,
R506). -/
def Obligations.TenantCommandsTakeEffect : Prop :=
  (∀ (c : Cmd) (s s1 : State) (r : MailCmd), Accepted 0x0210 .control (fun _ => 8) c s s1 r → zeroAt r.body 1 7 = true →
    tenantOf s1 (fld r.body 0 1) = none →
    exec (.tenantCreate c) s = .next (answered
      { s1 with own := { s1.own with tenants := s1.own.tenants ++ [{ id := fld r.body 0 1 }] } } c stOK [])) ∧
  (∀ (c : Cmd) (s s1 : State) (r : MailCmd) (k : Tenant), Accepted 0x0211 .control (fun _ => 0x20) c s s1 r →
    quotaRange r.body = true → tenantOf s1 (fld r.body 0 1) = some k → k.dying = false →
    let t := fld r.body 0 1
    let n := bfld r.body 2 1 3 0
    quotaSum s1 t (fun k => k.groups.length) n ≤ 8 → quotaSum s1 t Tenant.flashMib (bfld r.body 3 1 5 0) ≤ 32 →
    quotaSum s1 t Tenant.t2Units (fld r.body 0x18 8) ≤ usableT2 s1 →
    quotaSum s1 t Tenant.t1Frames (fld r.body 0x10 8) ≤ allocatable s1 →
    n ≤ k.groups.length + ((List.range 8).filter fun g => s1.own.tenants.all fun x => !x.groups.contains g).length →
    let set := fun (k : Tenant) =>
      { k with kvClass := bfld r.body 1 1 2 0, flashMib := bfld r.body 3 1 5 0, leaseMax := bfld r.body 4 2 12 0,
               slotMax := bfld r.body 8 4 16 0, t1Frames := fld r.body 0x10 8, t2Units := fld r.body 0x18 8 }
    let s2 := setGroups (mapTenant s1 t set) k n
    exec (.tenantQuota c) s = .next (answered (evictUntil (fun s => t1Fits s t 0) (evictList s2 t) s2) c stOK [])) ∧
  (∀ (c : Cmd) (sig : Option Signed) (s s1 : State) (r : MailCmd) (k : Tenant),
    Accepted 0x0212 .control (fun _ => 0x20 + sigLen) c s s1 r → inRange (fld r.body 1 1) 1 64 = true → zeroAt r.body 3 1 = true →
    zeroAt r.body 6 2 = true → tenantOf s1 (fld r.body 0 1) = some k → k.dying = false →
    (fld r.body 2 1 = 0 → zeroAt r.body 4 (0x1C + sigLen) = true →
      exec (.durabilitySet c sig) s = .next (answered
        (setTenant s1 { k with bound := fld r.body 1 1, domain := 0, replica := 0, replicaNotAfter := 0, replicaAddr := [],
                               replicaSig := [] }) c stOK [])) ∧
    (fld r.body 2 1 = 1 → fld r.body 4 2 ≠ 0 → fld r.body 4 2 ≠ s1.pw.node →
      ownerVerified s1 sessionKeyOff (credential 1 (fld r.body 4 2) 1 (fld r.body 0 1) (fld r.body 8 8) []) sig = true →
      let n := { k with bound := fld r.body 1 1, domain := 1, replica := fld r.body 4 2, replicaNotAfter := fld r.body 8 8,
                        replicaAddr := cut r.body 0x10 16, replicaSig := cut r.body 0x20 sigLen }
      exec (.durabilitySet c sig) s = .next (answered
        (connectReplica (setTenant (closeReplica s1 (fld r.body 0 1)) n) n) c stOK []))) ∧
  (∀ (c : Cmd) (s s1 : State) (r : MailCmd) (k : Tenant), Accepted 0x0213 .control (fun _ => 8) c s s1 r →
    zeroAt r.body 1 7 = true → tenantOf s1 (fld r.body 0 1) = some k → k.dying = false →
    exec (.tenantDestroy c) s = .next (saveCfg (mailBegun (settleDestroy
      (mapTenant (destroyStart s1 (fld r.body 0 1)) (fld r.body 0 1) fun k => { k with killBox := some c.box }) (fld r.body 0 1)) c.box))) ∧
  (∀ (c : Cmd) (sig : Option Signed) (key : Option Bytes) (s s1 : State) (r : MailCmd) (k : Tenant) (v : Bytes),
    Accepted 0x0220 .control (fun _ => wrapLen) c s s1 r → s1.sec.record ≠ none → tenantOf s1 (fld r.body 5 1) = some k →
    k.dying = false → k.keyTop < fld r.body 6 2 → k.keys.length < 2 → openWrap s1 1 r.body sig key = (stOK, v) →
    exec (.keyInstall c sig key) s = .next (answered
      (setTenant s1 { k with keys := k.keys ++ [{ gen := fld r.body 6 2, key := v, ctr := 0, snode := s1.pw.node }],
                             keyTop := fld r.body 6 2, rekey := !k.keys.isEmpty, rekeyPos := 0,
                             hold := if k.hold = some 3 || k.hold = some 2 then none else k.hold }) c stOK [])) ∧
  (∀ (c : Cmd) (s s1 : State) (r : MailCmd) (k : Tenant), Accepted 0x0221 .control (fun _ => 8) c s s1 r →
    zeroAt r.body 1 1 = true → zeroAt r.body 4 4 = true → tenantOf s1 (fld r.body 0 1) = some k → k.dying = false →
    keyGenOf k (fld r.body 2 2) ≠ none → (newestKey k).map KeyGen.gen ≠ some (fld r.body 2 2) →
    keyUsed s1 k.id (fld r.body 2 2) = false →
    exec (.keyRetire c) s = .next (answered
      (setTenant s1 { k with keys := k.keys.filter fun x => x.gen != fld r.body 2 2, rekey := false }) c stOK []))

/-- The checks that a life-cycle operation after LIFECYCLE_NONCE passes: its nonce is the one in force, not yet expired (R479). -/
def lifecycleNonceHeld (s : State) (b : Bytes) : Prop :=
  zeroAt b 1 7 = true ∧ ∃ e, s.sec.lcsNonce = some (cut b 8 32, e) ∧ s.clock.now < e

/-- The life-cycle operations: a nonce for one use, TEST to FIELD, the owner's claim and record, RETURN and VOID (R479 to R482). -/
def Obligations.LifeCycleOperations : Prop :=
  let len := fun (op need : Nat) (b : Bytes) => if fld b 0 1 = op then 0x28 + need else 0x28
  (∀ (c : Cmd) (s s1 : State) (r : MailCmd), Accepted 0x0222 .control (fun _ => 0x28) c s s1 r → fld r.body 0 1 = 0 →
    zeroAt r.body 1 7 = true →
    exec (.lifecycleNonce c) s = .next (answered
      { s1 with free := s1.free + 1,
                sec := { s1.sec with lcsNonce := some (cut (Config.nonce s1.free) 0 32, s1.clock.now + 60 * 10 ^ 9) } }
      c stOK (cut (Config.nonce s1.free) 0 32))) ∧
  (∀ (c : Cmd) (sig : Option Signed) (s s1 : State) (r : MailCmd), Accepted 0x0222 .control (len 1 sigLen) c s s1 r →
    fld r.body 0 1 = 1 → lifecycleNonceHeld s1 r.body → s1.sec.lcs = .test →
    verified Config.vendorKey (lcsDigest 1 (cut r.body 8 32)) sig = true →
    exec (.lifecycleField c sig) s = .next (answered
      { s1 with sec := { s1.sec with lcsNonce := none, lcs := .field } } c stOK [])) ∧
  (∀ (c : Cmd) (s s1 : State) (r : MailCmd), Accepted 0x0222 .control (len 2 (8 + 1312)) c s s1 r → fld r.body 0 1 = 2 →
    lifecycleNonceHeld s1 r.body → s1.sec.lcs = .test ∨ s1.sec.lcs = .field → s1.sec.ownerRoot = none → c.box = .sideband →
    zeroAt r.body 0x29 7 = true →
    exec (.ownerClaim c) s = .next (answered
      { s1 with sec := { s1.sec with lcsNonce := none, ownerRoot := some (sha3 (cut r.body 0x30 1312)),
                                     ownerFlags := fld r.body 0x28 1 } } c stOK [])) ∧
  (∀ (c : Cmd) (sig : Option Signed) (s s1 : State) (r : MailCmd), Accepted 0x0222 .control (len 3 recordLen) c s s1 r →
    fld r.body 0 1 = 3 → lifecycleNonceHeld s1 r.body → s1.sec.lcs = .test ∨ s1.sec.lcs = .field →
    let v := cut r.body 0x28 recordLen
    let root := cut v rootKeyOff 1312
    fld v 0 4 = 0x524E574F → zeroAt v 8 24 = true → (s1.sec.record.map fun o => fld o 4 4).getD 0 < fld v 4 4 →
    s1.sec.ownerRoot = some (sha3 root) → verified root (sha3 (cut v 0 0x14A0)) sig = true →
    exec (.ownerRecord c sig) s = .next (answered
      (norWrite { s1 with sec := { s1.sec with lcsNonce := none, record := some v } } ownerArea v) c stOK [])) ∧
  (∀ (c : Cmd) (osig vsig : Option Signed) (s s1 : State) (r : MailCmd), Accepted 0x0222 .control (len 4 (2 * sigLen)) c s s1 r →
    fld r.body 0 1 = 4 → lifecycleNonceHeld s1 r.body → s1.sec.lcs = .field → s1.own.tenants = [] →
    ownerRootVerified s1 (lcsDigest 4 (cut r.body 8 32)) osig = true →
    verified Config.vendorKey (lcsDigest 4 (cut r.body 8 32)) vsig = true →
    exec (.lifecycleReturn c osig vsig) s = .next (warmStart
      { s1 with sec := { s1.sec with lcsNonce := none, lcs := .return_ },
                mem := { s1.mem with banks := s1.mem.banks.map fun k => { k with retired := false } },
                fl := { s1.fl with areaA := { erased := s1.fl.geom.isSome }, areaB := { erased := s1.fl.geom.isSome }, cfg := none } })) ∧
  (∀ (c : Cmd) (sig : Option Signed) (s s1 : State) (r : MailCmd), Accepted 0x0222 .control (len 5 sigLen) c s s1 r →
    fld r.body 0 1 = 5 → lifecycleNonceHeld s1 r.body → s1.sec.lcs ≠ .void →
    ownerRootVerified s1 (lcsDigest 5 (cut r.body 8 32)) sig = true ∨ ((s1.sec.lcs = .test ∨ s1.sec.lcs = .return_) ∧
      verified Config.vendorKey (lcsDigest 5 (cut r.body 8 32)) sig = true) →
    exec (.lifecycleVoid c sig) s = .next (answered
      { s1 with sec := { s1.sec with lcsNonce := none, lcs := .void } } c stOK [])) ∧
  (∀ (g : Signed) (s : State), s.sec.lcs = .return_ → g.key = Config.vendorKey →
    exec (.jtagVendorToken ⟨some g⟩) s = .next { s with sec := { s.sec with debug := true } })

/-- EVIDENCE_GET builds the signed record over the tenants its SCOPE names and answers its first part (R491 to R495). -/
def Obligations.EvidenceIsBuiltAndAnswered : Prop :=
  ∀ (c : Cmd) (asig : Bytes) (s s1 : State) (r : MailCmd), Accepted 0x0140 .both (fun _ => 0x28) c s s1 r →
    boxRole s1 c.box = some .owner → fld r.body 0x20 1 = 0 → fld r.body 0x21 1 = 2 ∨ fld r.body 0x21 1 = 0 →
    fld r.body 0x23 1 = 0 → fld r.body 0x24 4 = 0 →
    let ts := if fld r.body 0x21 1 = 2 then s1.own.tenants else []
    let v := evidenceRecord s1 (cut r.body 0 32) ts asig
    exec (.evidenceGet c asig) s = .next (answered
      { s1 with sec := { s1.sec with evidence := putBy (fun e => e.box == c.box) ⟨c.box, cut r.body 0 32, v⟩ s1.sec.evidence } }
      c stOK (u32 v.length ++ u32 (v.take 4000).length ++ v.take 4000))

/-! ## Migration -/

/-- What MIGRATE_BEGIN checks for both roles (R435): ranges, the tenant, sequences held here and not in a migration, the id. -/
def migrationMayBegin (s : State) (b : Bytes) : Prop :=
  migRange s b = true ∧ (∃ t, tenantOf s (mgTenant b) = some t ∧ t.dying = false) ∧
  (∀ h ∈ mgSeqs b, (∃ q, seqOf s h = some q ∧ q.stub = none) ∧ migOf s h = none) ∧
  (∀ m ∈ s.fl.migs, m.id = fld b 0 4 → m.state = .installed)

/-- What a phase of MIGRATE_COMMIT checks before its action: the body and a known migration of a live tenant (R437). -/
def migrationPhase (phase : Nat) (s : State) (b : Bytes) (m : Mig) : Prop :=
  fld b 4 1 = phase ∧ zeroAt b 5 3 = true ∧ zeroAt b 12 4 = true ∧
  (if phase = 0 then 1 ≤ fld b 8 4 ∧ fld b 8 4 ≤ 60000 else fld b 8 4 = 0) ∧
  migById s (fld b 0 4) = some m ∧ ∀ t, tenantOf s m.tenant = some t → t.dying = false

/-- MIGRATE_BEGIN prepares the destination and starts the source's copy; the phases freeze, install and finish; ABORT undoes what has
not been finished (R435 to R441). -/
def Obligations.MigrationsGoThroughTheirPhases : Prop :=
  (∀ (c : Cmd) (s s1 : State) (r : MailCmd), Accepted 0x0230 .control migNeed c s s1 r → fld r.body 4 1 = 1 →
    migrationMayBegin s1 r.body →
    (∀ h ∈ mgSeqs r.body, ∃ q, seqOf s1 h = some q ∧ q.len = 0 ∧ (s1.sq.spans.any fun x => x.als == q.als) = false) →
    let s2 := (mgSeqs r.body).foldl (fun s h => match seqOf s h with
      | some q => mapSeq s q.als fun q => { q with incoming := some (mgPeer r.body) }
      | none => s) (dropMig s1 (fld r.body 0 4))
    exec (.migrateBeginDest c) s = .next (answered
      { s2 with fl := { s2.fl with migs := s2.fl.migs ++ [migNew r.body false .prepared] } } c stOK [])) ∧
  (∀ (c : Cmd) (s s1 s2 : State) (r : MailCmd) (m : Mig), Accepted 0x0230 .control migNeed c s s1 r → fld r.body 4 1 = 0 →
    migrationMayBegin s1 r.body →
    let s0 := dropMig s1 (fld r.body 0 4)
    let qs := (mgSeqs r.body).filterMap (seqOf s0)
    m = { migNew r.body true .copying with box := some c.box,
                                           lens := qs.map fun q => (q.als, q.len),
                                           todo := qs.flatMap fun q => blocksIn s0 q 0 q.len } →
    migConnect { s0 with fl := { s0.fl with migs := s0.fl.migs ++ [m] } } m = some s2 →
    exec (.migrateBeginSource c) s = .next (saveCfg (mailBegun s2 c.box))) ∧
  (∀ (c : Cmd) (s s1 : State) (r : MailCmd) (m : Mig), Accepted 0x0231 .control (fun _ => 16) c s s1 r →
    migrationPhase 0 s1 r.body m → m.source = true → m.state = .copying → m.box = none →
    exec (.migrateCommitFreeze c) s = .next (saveCfg (mailBegun (migPump (mapMig s1 m.id fun m =>
      { m with state := .freezing, box := some c.box, waitUntil := max 1 (s1.now + 10 ^ 6 * fld r.body 8 4) }) m.id) c.box))) ∧
  (∀ (c : Cmd) (s s1 : State) (r : MailCmd) (m : Mig), Accepted 0x0231 .control (fun _ => 16) c s s1 r →
    migrationPhase 1 s1 r.body m → m.source = false → m.state ≠ .installed →
    (∀ q ∈ migSeqs s1 m, heldMax (replicasOf s1 m.tenant m.peer q.handle) ≤
      heldLen s1 (replicasOf s1 m.tenant m.peer q.handle) q.layers q.kvh) →
    let held := fun (q : Seq) => replicasOf s1 m.tenant m.peer q.handle
    let take := fun (s : State) (q : Seq) =>
      adopt (mapSeq s q.als fun q => { q with incoming := none }) q (held q) (heldLen s1 (held q) q.layers q.kvh)
    let tags := ((migSeqs s1 m).flatMap held).flatMap fun v => match v.kind with | .replica _ _ ls => ls | _ => []
    let fence := fun (s : State) (t : Nat) => match leaseOf s (t % 65536) with
      | some l => if l.gen = t / 65536 then endLease s l.id 2 else s
      | none => s
    let s2 := (distinct tags).foldl fence (raiseFloor ((migSeqs s1 m).foldl take s1) m.tenant m.epoch)
    exec (.migrateCommitInstall c) s = .next (answered
      (mapMig s2 m.id fun x => { x with state := .installed, answer := migLens s2 m }) c stOK (migLens s2 m))) ∧
  (∀ (c : Cmd) (s s1 : State) (r : MailCmd) (m : Mig), Accepted 0x0231 .control (fun _ => 16) c s s1 r →
    migrationPhase 2 s1 r.body m → m.source = true → m.state = .frozen → m.qp = none →
    let stub := fun (s : State) (x : Span) =>
      let s := freeFlash s x
      let s := if x.state == .flashOnly then s else freeSpanFrames s x
      publish s { x with state := .stub, bank := 0, frame := 0, flash := none, stubNode := m.peer }
    let leave := fun (s : State) (q : Seq) =>
      mapSeq ((s.sq.spans.filter fun x => x.als == q.als).foldl stub s) q.als fun q => { q with stub := some m.peer, writer := none }
    let s2 := staleWaiting (raiseFloor ((migSeqs s1 m).foldl leave s1) m.tenant m.epoch) m
    let g := (raiseFloor ((migSeqs s1 m).foldl leave s1) m.tenant m.epoch).now + 10 ^ 6 * m.graceMs
    exec (.migrateCommitFinish c) s = .next (answered
      (reapSeqs (mapMig s2 m.id fun m => { m with state := .stubbed, graceAt := g, answer := [] })) c stOK [])) ∧
  (∀ (c : Cmd) (s s1 : State) (r : MailCmd) (m : Mig), Accepted 0x0232 .control (fun _ => 8) c s s1 r → zeroAt r.body 4 4 = true →
    migById s1 (fld r.body 0 4) = some m → (∀ t, tenantOf s1 m.tenant = some t → t.dying = false) →
    m.state ≠ .installed → m.state ≠ .stubbed →
    exec (.migrateAbort c) s = .next (answered (abortMig s1 m) c stOK [])) ∧
  (∀ (mig : Nat) (s : State) (m : Mig), serves s = true → migById s mig = some m → m.state = .freezing → m.waitUntil ≠ 0 →
    (∃ q ∈ migSeqs (s.at m.waitUntil) m, q.writer ≠ none) →
    exec (.freezeWaitExpiry mig) s = .next
      (migReply (mapMig (s.at m.waitUntil) mig fun m => { m with state := .copying, waitUntil := 0 }) mig stBUSY [])) ∧
  (∀ (mig : Nat) (s : State) (m : Mig), serves s = true → migById s mig = some m → m.state = .stubbed →
    let free := fun (s : State) (q : Seq) =>
      mapSeq { s with sq := { s.sq with spans := s.sq.spans.filter fun x => x.als != q.als, gen := s.sq.gen + 1 } } q.als
        fun q => { q with gone := true }
    exec (.stubGraceExpiry mig) s = .next
      (reapSeqs (dropMig ((migSeqs (s.at m.graceAt) m).foldl free (s.at m.graceAt)) mig))) ∧
  (∀ (mig n : Nat) (s : State) (m : Mig) (q : Qp) (p : Peer), serves s = true → migById s mig = some m → m.source = true →
    m.state ≠ .stubbed → m.qp = some n → qpOf s n = some q → q.state = .connected → peerFor s m.tenant (some mig) = some p →
    let s1 := settlePuts (putTimeouts s q.num)
    (((peerFor s1 m.tenant (some mig)).bind Peer.lease) ≠ none →
      exec (.migrationLeaseRenewal mig) s = .next (migPump (renewPeer s1 p) mig)) ∧
    (((peerFor s1 m.tenant (some mig)).bind Peer.lease) = none → s1.now < m.notAfter →
      exec (.migrationLeaseRenewal mig) s = .next (migPump (peerAgain s1 p m.notAfter m.sig) mig)))

/-! ## Flash, functions, port -/

/-- FUNC_STOP and FUNC_START stop and start the five functions of Table 19-6 (R557). -/
def Obligations.FunctionsStopAndStart : Prop :=
  ∀ (c : Cmd) (s s1 : State) (r : MailCmd) (f : Nat), fld r.body 0 1 = f → zeroAt r.body 1 7 = true →
    (Accepted 0x0253 .control (fun _ => 8) c s s1 r →
      (f = 0 → exec (.funcStopEgressSched c) s =
        .next (answered { s1 with port := { s1.port with schedOn := false, start := none } } c stOK [])) ∧
      (f = 1 → exec (.funcStopIngressPolice c) s =
        .next (answered { s1 with port := { s1.port with policeOn := false } } c stOK [])) ∧
      (f = 2 → exec (.funcStopMaceT1 c) s = .next (answered { s1 with hl := { s1.hl with maceT1 := false } } c stOK [])) ∧
      (f = 3 → exec (.funcStopMaceT2 c) s = .next (answered { s1 with hl := { s1.hl with maceT2 := false } } c stOK [])) ∧
      (f = 4 → exec (.funcStopLink c) s =
        .next (answered { dropLink s1 with port := { (dropLink s1).port with held := true } } c stOK []))) ∧
    (Accepted 0x0254 .control (fun _ => 8) c s s1 r →
      (f = 0 → s1.port.schedOn = false → exec (.funcStartEgressSched c) s =
        .next (answered (beginList { s1 with port := { s1.port with schedOn := true } }) c stOK [])) ∧
      (f = 1 → s1.port.policeOn = false → exec (.funcStartIngressPolice c) s =
        .next (answered { s1 with port := { s1.port with
          policeOn := true,
          policers := s1.port.policers.map fun p => { p with credit := (p.burst : Rat), creditAt := s1.now } } } c stOK [])) ∧
      (f = 2 → exec (.funcStartMaceT1 c) s = .next (answered { s1 with hl := { s1.hl with maceT1 := true } } c stOK [])) ∧
      (f = 3 → exec (.funcStartMaceT2 c) s = .next (answered { s1 with hl := { s1.hl with maceT2 := true } } c stOK [])) ∧
      (f = 4 → exec (.funcStartLink c) s = .next (answered { s1 with port := { s1.port with held := false } } c stOK [])))

/-- The port, a queue, the gate control list, a policer and PTP take the settings of a body in range (R449, R461 to R463, R467, R470). -/
def Obligations.PortTakesItsSettings : Prop :=
  (∀ (c : Cmd) (s s1 : State) (r : MailCmd), Accepted 0x0260 .control (fun _ => 128) c s s1 r → portCfgOk r.body = true →
    (∀ q ∈ s1.nuc.qps, q.state ≠ .connected) ∨ (∃ o, s1.port.cfg = some o ∧ portFixed o (portCfgOf r.body) = true) →
    let s2 : State := { s1 with port := { s1.port with cfg := some (portCfgOf r.body) } }
    let s3 := if s2.port.link && !linkReady s2 then dropLink s2 else s2
    ∃ same : Bool, exec (.portConfig c) s = .next (answered (if same then s3 else identityChanged s3) c stOK []) ∧
      (same = true ↔ ∃ o, s1.port.cfg = some o ∧ o.mac = fld r.body 0 6 ∧ o.ipv4 = fld r.body 8 4 ∧ o.ipv6 = fld r.body 0x18 16)) ∧
  (∀ (c : Cmd) (s s1 : State) (r : MailCmd), Accepted 0x0261 .control (fun _ => 32) c s s1 r → fld r.body 0 1 = 0 →
    let n := fld r.body 1 1
    let rate := fld r.body 8 4
    let burst := fld r.body 0xC 4
    n ≤ 7 → zeroAt r.body 2 2 = true → zeroAt r.body 0x10 16 = true → rate ≤ 1600000 → inRange burst 1024 16777216 = true →
    (if n < 6 then inRange (fld r.body 4 4) 256 65536 = true else fld r.body 4 4 = 0) →
    exec (.schedConfigQueue c) s = .next (answered (setQueue s1 n fun k =>
      { k with quantum := fld r.body 4 4, rate := rate, burst := burst, creditAt := s1.now,
               credit := min (burst : Rat) (bucketAt k.rate k.burst k.credit k.creditAt s1.now) }) c stOK [])) ∧
  (∀ (c : Cmd) (s s1 : State) (r : MailCmd), Accepted 0x0261 .control (fun b => 0x20 + 8 * (fld b 0x10 2 % 512)) c s s1 r →
    let b := r.body
    let n := fld b 0x10 2
    let gs := (List.range n).map fun i => (⟨fld b (0x20 + 8 * i) 1, fld b (0x24 + 8 * i) 4⟩ : Gate)
    fld b 0 1 = 1 → fld b 1 1 = 0 → fld b 2 1 ≤ 1 → fld b 3 1 = 0 → zeroAt b 4 12 = true → inRange n 1 256 = true →
    zeroAt b 0x12 2 = true → inRange (fld b 0x14 4) 1 1000000000 = true → (∀ i < n, zeroAt b (0x21 + 8 * i) 3 = true) →
    (∀ g ∈ gs, g.dur ≠ 0) → sumBy Gate.dur gs = fld b 0x14 4 → s1.port.schedOn = false →
    exec (.schedConfigGcl c) s = .next (answered { s1 with port := { s1.port with
      gclOn := fld b 2 1 == 1, gcl := gs, cycle := fld b 0x14 4, base := fld b 0x18 8 } } c stOK [])) ∧
  (∀ (c : Cmd) (s s1 : State) (r : MailCmd), Accepted 0x0262 .control (fun _ => 16) c s s1 r →
    let i := fld r.body 0 2
    let sc := fld r.body 2 1
    let id := fld r.body 4 2
    let burst := fld r.body 0xC 4
    i ≤ 1023 → sc ≤ 2 → fld r.body 3 1 = 0 → zeroAt r.body 6 2 = true → inRange (fld r.body 8 4) 1 1600000 = true →
    inRange burst 1024 16777216 = true →
    sc = 0 ∨ (s1.port.policers.any fun p => p.index != i && p.scope == sc && p.id == id) = false →
    exec (.policerConfig c) s = .next (answered { s1 with port := { s1.port with policers :=
      (s1.port.policers.filter fun p => p.index != i) ++ [⟨i, sc, id, fld r.body 8 4, burst, (burst : Rat), s1.now⟩] } } c stOK [])) ∧
  (∀ (c : Cmd) (s s1 : State) (r : MailCmd), Accepted 0x0264 .control (fun _ => 32) c s s1 r →
    let b := r.body
    let lp := signed 8 (fld b 3 1)
    fld b 0 1 ≤ 127 → fld b 1 1 ≤ 1 → fld b 2 1 ≤ 7 → -3 ≤ lp → lp ≤ 3 → inRange (fld b 4 4) 100 1000000 = true →
    inRange (fld b 0x10 4) 1 500000 = true → zeroAt b 0x14 12 = true →
    exec (.ptpConfig c) s = .next (answered { s1 with port := { s1.port with ptp := { s1.port.ptp with
      set := true, domain := fld b 0 1, oneStep := fld b 1 1 == 1, queue := fld b 2 1, logPdelay := lp, lockNs := fld b 4 4,
      txAsym := signed 32 (fld b 8 4), rxAsym := signed 32 (fld b 0xC 4), ppsUs := fld b 0x10 4 } } } c stOK []))

/-- MACSEC_KEY_INSTALL under an owner record, with MACsec on: SAs are installed from records that open, switched and deleted (R475,
R476, R497; that the first transmit SA comes into use at once is the model's choice, log entry 10). -/
def Obligations.MacsecKeysAreInstalled : Prop :=
  ∀ (c : Cmd) (s s1 : State) (r : MailCmd) (op : Nat),
    Accepted 0x0263 .control (fun b => 0x30 + (if fld b 0 1 ≤ 1 then fld b 0x2C 4 else 0)) c s s1 r →
    let b := r.body
    let an := fld b 1 1
    let id := fld b 2 1
    fld b 0 1 = op → s1.sec.record ≠ none → macsecOn s1 = true → an ≤ 3 → id ≤ 3 → fld b 3 1 = 0 → zeroAt b 0x1C 4 = true →
    (∀ (sig : Option Signed) (key : Option Bytes) (k : Bytes), fld b 0x2C 4 = wrapLen → fld b 0x28 4 ≤ 2 ^ 30 →
      openWrap s1 2 (cut b 0x30 wrapLen) sig key = (stOK, k) →
      (op = 0 → s1.port.txAn ≠ some an → exec (.installTransmitSa c sig key) s = .next (answered
        { s1 with port := { s1.port with txSci := cut b 8 8,
                                         txSas := putBy (fun a => a.an == an) (saOf b k) s1.port.txSas,
                                         txAn := some (s1.port.txAn.getD an) } } c stOK [])) ∧
      (op = 1 →
        let old := ((s1.port.rxScs.find? fun r => r.id == id).map RxSc.sas).getD []
        let sc : RxSc := ⟨id, cut b 8 8, putBy (fun a => a.an == an) (saOf b k) old⟩
        let scs := putBy (fun r => r.id == id) sc s1.port.rxScs
        exec (.installReceiveSa c sig key) s = .next (answered { s1 with port := { s1.port with rxScs := scs } } c stOK []))) ∧
    (zeroAt b 4 0x2C = true →
      (op = 2 → (s1.port.txSas.any fun a => a.an == an) = true → exec (.switchTransmitSa c) s = .next (answered
        { s1 with port := { s1.port with txSwitch := some an } } c stOK [])) ∧
      (op = 3 → (s1.port.rxScs.any fun r => r.id == id && r.sas.any fun a => a.an == an) = true →
        let out := fun (r : RxSc) => { r with sas := r.sas.filter fun a => a.an != an }
        let scs := mapIf (fun r => r.id == id) out s1.port.rxScs
        exec (.deleteReceiveSa c) s = .next (answered { s1 with port := { s1.port with rxScs := scs } } c stOK [])))

/-! ## Requests on a QP -/

/-- READ, WRITE, the atomics and a renewal through a lease cell, arriving in order on a connected QP with access, are executed and
answered (R371, R404, R420, R427, R453, R454). -/
def Obligations.RdmaRequestsExecute : Prop :=
  (∀ (x : Rx) (addr rkey len : Nat) (s s1 : State) (q : Qp), RxTaken x rkey s s1 q → readOk s1 q.num addr len rkey = true →
    exec (.rdmaRead x addr rkey len false) s =
      .next (readReply (advance s1 q.num (readPackets q len)) q x.psn addr len rkey)) ∧
  (∀ (x : Rx) (m : WriteMsg) (s s1 : State) (q : Qp) (w : WindowPart), RxTaken x m.rkey s s1 q → m.imm = false →
    writeOk s1 q.num m.addr m.len m.rkey = true → regionOf s1 q.num m.addr m.len m.rkey = some w →
    m.off = 0 ∨ q.placing = some (m.addr, m.rkey, m.len, m.off) → m.off + m.data.length ≤ m.len →
    let s2 := postAck (advance (windowWrite s1 w m.off m.data) q.num 1) q x.psn
    let n := m.off + m.data.length
    exec (.rdmaWrite x m) s = .next
      (if n = m.len then messageDone (mapQp s2 q.num fun q => { q with placing := none }) q.num w m.len m.ue
       else mapQp s2 q.num fun q => { q with placing := some (m.addr, m.rkey, m.len, n) })) ∧
  (∀ (x : Rx) (addr rkey i l : Nat) (s s1 : State) (q : Qp), RxTaken x rkey s s1 q →
    regionOf s1 q.num addr 8 rkey = some (.cell i 0) → cellLease s1 i = some l → leaseKey s1 q.num rkey l = true →
    let v := cellRead s1 i
    let answer := fun (n : Nat) => wake (atomicReply (advance (cellWrite s1 i n) q.num 1) q x.psn v) i
    (∀ old new : W64, exec (.compareSwap x addr rkey old new) s = .next (answer ((if v = old.toNat then new.toNat else v) % 2 ^ 64))) ∧
    (∀ add : W64, i < 0xFFC0 → exec (.fetchAdd x addr rkey add) s = .next (answer ((v + add.toNat) % 2 ^ 64)))) ∧
  (∀ (x : Rx) (i rkey : Nat) (s s1 : State) (q : Qp) (l : Lease), RxTaken x rkey s s1 q → i < 4096 →
    leaseKey s1 q.num rkey i = true → leaseOf s1 i = some l →
    let k := if clockOk s1 then { setTerm s1 l with applied := (l.applied + 1) % 2 ^ 32 }
      else { l with refused := (l.refused + 1) % 2 ^ 32 }
    exec (.leaseCellRenewal x i rkey) s = .next
      (atomicReply (advance (mapLease s1 i fun _ => k) q.num 1) q x.psn (l.applied + l.refused * 2 ^ 32)))

/-- An in-order request without access to its range, or with immediate data, is answered with a NAK and moves its QP to the error state with
nothing of the window changed; a packet ahead of the expected PSN gets one sequence NAK, and a WRITE behind it is acknowledged again
(R371, R454, R455). -/
def Obligations.RefusedAndUnorderedPacketsAreAnswered : Prop :=
  ((∀ (x : Rx) (m : WriteMsg) (s s1 : State) (q : Qp), RxTaken x m.rkey s s1 q →
    (m.imm = true → exec (.rdmaWrite x m) s = .next (nakError s1 q x.psn .invalidRequest)) ∧
    (m.imm = false → writeOk s1 q.num m.addr m.len m.rkey = false →
      exec (.rdmaWrite x m) s = .next (nakError s1 q x.psn .remoteAccess))) ∧
  (∀ (x : Rx) (addr rkey len : Nat) (s s1 : State) (q : Qp), RxTaken x rkey s s1 q →
    exec (.rdmaRead x addr rkey len true) s = .next (nakError s1 q x.psn .invalidRequest) ∧
    (readOk s1 q.num addr len rkey = false → exec (.rdmaRead x addr rkey len false) s = .next (nakError s1 q x.psn .remoteAccess))) ∧
  (∀ (s : State) (q : Qp) (psn : Nat) (k : NakCode), (nakError s q psn k).nuc.win = s.nuc.win ∧
    (∀ x, qpOf (nakError s q psn k) q.num = some x → x.state = .error))) ∧
  (∀ (x : Rx) (m : WriteMsg) (s s1 : State) (q : Qp), RxOutOfOrder x m.rkey s s1 q →
    (psnLe (x.psn + 1) q.rxPsn = true → exec (.rdmaWrite x m) s = .next (postAck s1 q ((q.rxPsn + 2 ^ 24 - 1) % 2 ^ 24))) ∧
    (psnLe (x.psn + 1) q.rxPsn = false → q.nakSent = false → exec (.rdmaWrite x m) s = .next
      (mapQp (post s1 q 4 0 (.nak q.num q.rxPsn .sequence)) q.num fun q => { q with nakSent := true })) ∧
    (psnLe (x.psn + 1) q.rxPsn = false → q.nakSent = true → exec (.rdmaWrite x m) s = .next s1))

/-- Communication Management sets up a QP that a host asks for and one that the node asks for, and takes both down (R452, R378). -/
def Obligations.ConnectionsOpenAndClose : Prop :=
  (∀ (r : CmReq) (s s1 : State) (n : Nat), serves s = true → s.port.link = true → r.rc = true → r.pkey = 0xFFFF →
    freeQpn s = some (n, s1) →
    let mtu := min r.mtu (cfgNat s1 PortCfg.mtu)
    let depth := min 64 r.depth
    let psn := (Config.psn s1.free).toNat
    let q : Qp := { num := n, state := .setup, peer := r.peer, peerQpn := r.peerQpn, depth := depth, mtu := mtu,
                    tclass := r.tclass / 4, pcp := r.pcp.getD 0, rxPsn := psn, txPsn := r.psn }
    exec (.cmReq r) s = .next (postCm
      { s1 with free := s1.free + 1, nuc := { s1.nuc with qps := s1.nuc.qps ++ [q] } } (.cmRep n r.peerQpn depth 0 psn mtu))) ∧
  (∀ (n : Nat) (s : State) (q : Qp), serves s = true → s.port.link = true → qpOf s n = some q →
    (q.state = .setup → q.use = .host → exec (.cmRtu n) s = .next (mapQp s n fun q =>
      { q with state := .connected, mbox := {}, cc := { q.cc with alphaAt := s.now, incAt := s.now } })) ∧
    exec (.cmDreq n) s = .next (postCm (dropQp (leaveConnected s n .closing) n) (.cmDrep q.peerQpn)) ∧
    (q.state = .closing → exec (.cmDrep n) s = .next (dropQp s n)) ∧
    (∀ peerQpn psn t na b, q.state = .setup → q.unsent = false → q.use = .peer t na b →
      let s1 := postCm s (.cmRtu peerQpn)
      let s2 := mapQp s1 n fun q => { q with state := .connected, peerQpn := peerQpn, txPsn := psn % 2 ^ 24,
                                             cc := { q.cc with alphaAt := s1.now, incAt := s1.now } }
      exec (.cmRep n peerQpn psn stOK) s = .next (mailReply (peerMail s2 n 0 0x0002 (openBody t na q.sig)) b stOK (u32 n))) ∧
    (∀ t na b reason, q.state = .setup → q.use = .peer t na b →
      exec (.cmRej n reason) s = .next (mailReply (dropQp s n) b (Config.rejStatus reason).toNat [])))

/-- An ACK takes the messages up to its PSN out of its QP in order, lets each have its effect and clears the retry count. A NAK for a sequence
error or RNR does so up to the PSN before its own, and then, like an ACK time-out, counts a retry and sends all that is left again; with
the retries used up, and for any other NAK, the QP goes to the error state and abandons what it had to send (R401, R455). -/
def Obligations.AcknowledgementsSettleMessages : Prop :=
  (∀ (n psn : Nat) (s : State) (q : Qp), serves s = true → s.port.link = true → qpOf s n = some q → q.state = .connected →
    let effect := fun (s : State) (m : OutMsg) => match acked s m with
      | (s, some c) => wake s c
      | (s, none) => s
    let upTo := fun (p : Nat) => q.unacked.takeWhile fun m => psnLe m.psn p
    let taken := fun (p : Nat) => if upTo p = [] then s else settleBindings ((upTo p).foldl effect
      (mapQp s n fun q => { q with unacked := q.unacked.drop (upTo p).length, retries := 0 }))
    let before := taken ((psn + 2 ^ 24 - 1) % 2 ^ 24)
    let again := fun (s : State) => retransmit (mapQp s n fun q => { q with retries := q.retries + 1 }) n
    exec (.ackReceived n psn) s = .next (taken psn) ∧
    (∀ kind, (qpOf before n = none → exec (.nakReceived n psn kind) s = .next before) ∧
      ∀ k, qpOf before n = some k →
        (kind = .sequence ∨ kind = .rnr → k.retries < cfgNat before PortCfg.retryCnt →
          exec (.nakReceived n psn kind) s = .next (again before)) ∧
        (kind = .sequence ∨ kind = .rnr → cfgNat before PortCfg.retryCnt ≤ k.retries →
          exec (.nakReceived n psn kind) s = .next (leaveConnected before n .error)) ∧
        (kind ≠ .sequence → kind ≠ .rnr → exec (.nakReceived n psn kind) s = .next (leaveConnected before n .error))) ∧
    (q.unacked ≠ [] →
      (cfgNat s PortCfg.retryCnt ≤ q.retries → exec (.ackTimeout n) s = .next (leaveConnected s n .error)) ∧
      (q.retries < cfgNat s PortCfg.retryCnt → exec (.ackTimeout n) s = .next (again s)))) ∧
  ((∀ (s : State) (m : OutMsg) (r : Req) (x : Rq) (f : Bytes), m.tag = .result r → reqOf s r = some x → x.final = some f → x.unacked = 1 →
      acked s m = (putRecord (mapReq s r fun _ => { x with unacked := 0 }) { x with unacked := 0 } f, none)) ∧
    (∀ (s : State) (m : OutMsg) (t c : Nat), m.tag = .completion t (some c) → acked s m = (cellAdd s c 1, some c)) ∧
    (∀ (s : State) (n : Nat) (k : Qp), qpOf (leaveConnected s n .error) n = some k → k.state = .error ∧ k.unacked = []))

/-! ## Congestion, pause, egress -/

/-- The four DCQCN events change the rates, alpha and stage counters of a QP; a received PFC frame pauses its queue for its time or resumes it and
the pause ends at that time; gates and frames move at their boundaries (R457, R458, R460, R463, R464). -/
def Obligations.CongestionPauseAndEgress : Prop :=
  (∀ (n : Nat) (s : State) (q : Qp) (c : PortCfg), qpOf s n = some q → s.port.cfg = some c →
    let g : Rat := (c.g : Rat) / 65536
    (s.port.link = true →
      let s1 : State := { s with port := { s.port with cnpReceived := (s.port.cnpReceived + 1) % 2 ^ 64 } }
      let cut := fun (q : Qp) => { q with cc := { q.cc with
        rt := q.cc.rc, rc := max (c.minRate : Rat) (q.cc.rc * (1 - q.cc.alpha / 2)), alpha := (1 - g) * q.cc.alpha + g,
        timeStage := 0, byteStage := 0, sent := 0, cutAt := some s.now, alphaAt := s.now, incAt := s.now } }
      (q.cc.cutAt = none ∨ (∃ t, q.cc.cutAt = some t ∧ t + 1000 * c.cnpGap ≤ s.now)) ∧ (∀ y ∈ s.nuc.qps, y.num = n → y = q) →
        exec (.cnpReceived n) s = .next (mapQp s1 n cut)) ∧
    (s.port.link = true → ∀ t, q.cc.cutAt = some t → s.now < t + 1000 * c.cnpGap → (∀ y ∈ s.nuc.qps, y.num = n → y = q) →
      exec (.cnpReceived n) s = .next (mapQp
        { s with port := { s.port with cnpReceived := (s.port.cnpReceived + 1) % 2 ^ 64 } } n
        fun q => { q with cc := { q.cc with alphaAt := s.now } })) ∧
    (let s1 := s.at (q.cc.alphaAt + 1000 * c.alphaUs)
     exec (.alphaTimer n) s = .next (mapQp s1 n fun q => { q with cc := { q.cc with alpha := (1 - g) * q.cc.alpha, alphaAt := s1.now } })) ∧
    (let s1 := s.at (q.cc.incAt + 1000 * c.incUs)
     exec (.increaseTimer n) s = .next (mapQp s1 n fun q =>
       { q with cc := increase c { q.cc with timeStage := q.cc.timeStage + 1, incAt := s1.now } })) ∧
    (c.incBytes ≤ q.cc.sent → exec (.increaseBytes n) s = .next (mapQp s n fun q =>
       { q with cc := increase c { q.cc with byteStage := q.cc.byteStage + 1, sent := q.cc.sent - c.incBytes } }))) ∧
  ((∀ (p ns : Nat) (s : State), s.port.link = true → pfcOn s p = true →
    exec (.pfcReceived p ns) s = .next (setQueue
      { s with port := { s.port with pfcReceived := s.port.pfcReceived.mapIdx fun i n => if i = p then (n + 1) % 2 ^ 64 else n } } p
      fun q => { q with paused := if ns = 0 then none else some (s.now + ns) })) ∧
  (∀ (p t : Nat) (s : State) (q : Queue), s.port.queues[p]? = some q → q.paused = some t →
    exec (.pfcPauseExpiry p) s = .next (setQueue (s.at t) p fun q => { q with paused := none })) ∧
  (∀ (s : State) (gcl : List Gate) (cyc st : Nat), schedule s = some (gcl, cyc, st) →
    let s1 := s.at (nextBoundary gcl cyc st s.now)
    exec .gateChange s = .next { s1 with port := { s1.port with gates := maskAt s1 s1.now } }) ∧
  (∀ (s : State) (q : Queue) (f : Frame), s.port.link = true → s.port.txSwitch = none → s.port.gates = maskAt s s.now →
    s.port.queues[7]? = some q → eligible s 7 q = some f → exec .egressFrameBoundary s = .next (transmit s 7 true)))

/-- DCQCN keeps a QP's rate between MIN_RATE and the line rate, and alpha between 0 and 1 (R457). -/
def Obligations.CongestionControlStaysInRange : Prop :=
  ∀ (i : Instr) (n : Nat) (s t : State) (c : PortCfg), s.port.cfg = some c → 1 ≤ c.g → c.g ≤ 65535 → c.minRate ≤ 1600000 →
    i ∈ [Instr.cnpReceived n, .alphaTimer n, .increaseTimer n, .increaseBytes n] →
    let ok := fun (s : State) => ∀ q ∈ s.nuc.qps,
      (c.minRate : Rat) ≤ q.cc.rc ∧ q.cc.rc ≤ 1600000 ∧ q.cc.rc ≤ q.cc.rt ∧ q.cc.rt ≤ 1600000 ∧ 0 ≤ q.cc.alpha ∧ q.cc.alpha ≤ 1
    ok s → exec i s = .next t → ok t

/-! ## Addressing and time -/

/-- The port answers ARP, neighbour solicitations and echoes to its own addresses, and an answer lets waiting REQs go; the link goes down and
comes up, and the network clock is lost and returns (R447, R450, R593). -/
def Obligations.AddressesLinkAndNetworkClock : Prop :=
  (∀ (s : State) (c : PortCfg), s.port.link = true → s.port.cfg = some c →
    (∀ sender mac, c.ipv4 ≠ 0 → exec (.arpRequest c.ipv4 sender mac) s = .next (postCtl s 46 (.arpReply sender mac))) ∧
    (∀ target sender mac, c.ipv6 ≠ 0 → target = c.ipv6 ∨ target = leNat (linkLocal c.mac) →
      exec (.neighborSolicitation target sender mac) s = .next (postCtl s 72 (.neighborAdvert sender mac))) ∧
    (∀ src data, c.ipv4 ≠ 0 → exec (.icmpEcho false src data) s = .next (postCtl s (20 + 8 + data.length) (.echoReply false src data))) ∧
    (∀ src data, c.ipv6 ≠ 0 → exec (.icmpEcho true src data) s = .next (postCtl s (40 + 8 + data.length) (.echoReply true src data))) ∧
    (∀ ip mac, (s.port.neighbors.any fun n => n.ip == ip) = true →
      let s1 : State := { s with port := { s.port with neighbors := putBy (fun n => n.ip == ip) ⟨ip, some mac⟩ s.port.neighbors } }
      let t := (s1.nuc.qps.filter Qp.unsent).foldl (fun s q => startConnect s q.num) s1
      exec (.arpReply ip mac) s = .next t ∧ exec (.neighborAdvertisement ip mac) s = .next t)) ∧
  (∀ s : State,
    exec .linkDown s = .next (dropLink s) ∧
    (s.port.link = false → linkReady s = true → exec .linkUp s = .next
      ((s.nuc.qps.filter fun q => q.state == .connected).foldl (fun s q => retransmit s q.num)
        { s with port := { s.port with link := true } })) ∧
    exec .netclkLoss s = .next { dropLink s with port := { (dropLink s).port with netclk := false } } ∧
    exec .netclkReturn s = .next { s with port := { s.port with netclk := true } })

/-- A Sync within LOCK_NS eight times running locks the clock, four beyond it running or four intervals without one unlock it, and a
step happens only out of LOCKED with no ordinary lease ACTIVE; the Pdelay messages, PPS_OUT and PPS_IN follow R469 and R473 (R471,
R472). -/
def Obligations.TimeSynchronization : Prop :=
  (∀ (off : Int) (ns : Nat) (s : State), s.port.link = true →
    let inside := off.natAbs ≤ s.port.ptp.lockNs
    let s1 : State := { s with port := { s.port with ptp := { s.port.ptp with
      lastSync := some s.now, interval := ns, offset := off, good := if inside then s.port.ptp.good + 1 else 0,
      bad := if inside then 0 else s.port.ptp.bad + 1 } } }
    (s.clock.ptp = .locked → exec (.syncReceived s.port.ptp.domain off ns) s =
      .next (if 4 ≤ s1.port.ptp.bad then leaveLocked s1 else s1)) ∧
    (s.clock.ptp ≠ .locked → inside ∨ ordinaryActive s = true → exec (.syncReceived s.port.ptp.domain off ns) s =
      .next (if 8 ≤ s1.port.ptp.good then enterLocked s1 else s1)) ∧
    (s.clock.ptp ≠ .locked → ¬ inside → ordinaryActive s = false → ∃ t, exec (.syncReceived s.port.ptp.domain off ns) s = .next t ∧
      t.clock.now = ((s.clock.now : Int) - off).toNat ∧ t.clock.ptp = s.clock.ptp ∧ t.port.ptp.offset = 0 ∧ t.own = s.own)) ∧
  (∀ (s : State) (t : Nat), s.clock.ptp = .locked → s.port.ptp.lastSync = some t →
    exec .syncTimeout s = .next (leaveLocked (s.at (t + 4 * s.port.ptp.interval)))) ∧
  (∀ (seq rx : Nat) (s : State), s.port.link = true →
    let tx := ((s.now : Int) + s.port.ptp.txAsym).toNat
    let s1 := postPtp s (.pdelayResp seq ((rx : Int) - s.port.ptp.rxAsym).toNat tx s.port.ptp.oneStep)
    (s.port.ptp.oneStep = true → exec (.pdelayReqReceived seq rx) s = .next s1) ∧
    (s.port.ptp.oneStep = false → exec (.pdelayReqReceived seq rx) s = .next (postPtp s1 (.pdelayFollowUp seq tx)))) ∧
  (∀ s : State, s.port.link = true →
    let n := (s.port.ptp.pdelaySeq + 1) % 65536
    exec .pdelayTimer s = .next (postPtp
      { s with port := { s.port with ptp := { s.port.ptp with pdelaySeq := n } } } (.pdelayReq n ((s.now : Int) + s.port.ptp.txAsym).toNat))) ∧
  (∀ (t1 t2 t3 t4 : Nat) (s : State), s.port.link = true → exec (.pdelayRespReceived s.port.ptp.pdelaySeq t1 t2 t3 t4) s =
    .next { s with port := { s.port with ptp := { s.port.ptp with
      linkDelay := some (((((t4 : Int) - s.port.ptp.rxAsym) - (t1 + s.port.ptp.txAsym)) - ((t3 : Int) - t2)) / 2) } } }) ∧
  (∀ s : State, let t := roundUp s.now (10 ^ 9)
    exec .ppsOut s = .next { s.at t with port := { s.port with ptp := { s.port.ptp with
      ppsHigh := some (t + 1000 * s.port.ptp.ppsUs) } } }) ∧
  (∀ (ts : Nat) (s : State), exec (.ppsIn ts) s =
    .next { s with port := { s.port with ptp := { s.port.ptp with ppsIn := s.port.ptp.ppsIn ++ [ts] } } })

/-! ## The sideband -/

/-- In standby power, reads of the three ranges of R579 answer the identity block, the registers and the counters, and the writable bits of
SB.STATUS, SB.CTRL and SB.FAILCAUSE act; while the node runs the sideband mailbox is written and read and its command word arms it (R537, R560,
R578, R579, R581). -/
def Obligations.SidebandRegistersAndMailbox : Prop :=
  (∀ (tag : Nat) (s : State), standby s = true →
    (∀ addr len, sbOk addr len = true →
      exec (.regRead tag addr len) s = .next (sbSend s (.vendor 0x10 tag stOK addr (sbBytes s addr len).length (sbBytes s addr len)))) ∧
    (∀ addr len, sbOk addr len = false → exec (.regRead tag addr len) s = .next (sbSend s (.vendor 0x10 tag stMALFORMED addr 0 []))) ∧
    (∀ data : Bytes, data.length = 8 →
      (exec (.regWrite tag 0x10000 data) s = .next (let t := vendorReply s 0x11 tag stOK 0x10000 []
        if (leNat data).testBit 21 then { t with nuc := { t.nuc with evLost := false } } else t)) ∧
      (s.pw.boot ≠ .failStop → exec (.regWrite tag 0x10018 data) s = .next (let t := vendorReply s 0x11 tag stOK 0x10018 []
        if (leNat data).testBit 63 then { t with pw := { t.pw with fail := {} } } else t)) ∧
      (s.pw.boot = .failStop → exec (.regWrite tag 0x10018 data) s = .next (vendorReply s 0x11 tag stOK 0x10018 [])) ∧
      (exec (.regWrite tag 0x10038 data) s = .next (let t := vendorReply s 0x11 tag stOK 0x10038 []
        let u := if (leNat data).testBit 1 then { t with nuc := { t.nuc with sbEvents := [] } } else t
        if (leNat data).testBit 0 then sbWarm u else u))) ∧
    exec .sbStatusEvlost s = .next { s with nuc := { s.nuc with evLost := false } } ∧
    exec .sbCtrlEvflush s = .next { s with nuc := { s.nuc with sbEvents := [] } } ∧
    (s.pw.boot ≠ .failStop → exec .sbFailcauseAck s = .next { s with pw := { s.pw with fail := {} } }) ∧
    (s.pw.boot = .failStop → exec .sbFailcauseAck s = .next s) ∧
    (warmable s = true → exec .sbCtrlWarm s = .next (warmStart s))) ∧
  (∀ (tag : Nat) (s : State), standby s = true →
    (∀ addr (data : Bytes), s.pw.boot = .running → addr + data.length ≤ 8192 → data.length ≤ 1024 →
      let b := s.nuc.sideband
      let s1 : State := { s with nuc := { s.nuc with sideband := { b with mem := memWrite b.mem addr data } } }
      exec (.mboxWrite tag addr data) s = .next (vendorReply
        (if addr = 0x1FF8 ∧ data.length = 8 then boxWord s1 .sideband (leNat data) else s1) 0x12 tag stOK addr [])) ∧
    (∀ addr len, s.pw.boot = .running → addr + len ≤ 8192 → len ≤ 1024 →
      exec (.mboxRead tag addr len) s = .next
        (vendorReply s 0x13 tag stOK addr (memRead s.nuc.sideband.mem (8192 + addr) len))))

/-- In standby power the MCTP control, PLDM and I3C address requests are answered (R576, R577, R598; the DMTF formats are the model's,
log entry 11). -/
def Obligations.ManagementRequestsAreAnswered : Prop :=
  ∀ s : State, standby s = true →
    (∀ eid, 0 < eid → eid < 255 → exec (.setEndpointId eid) s =
      .next (sbSend { s with pw := { s.pw with eid := eid } } (.control 1 ([0, 0] ++ u8 eid ++ [0])))) ∧
    exec .getEndpointId s = .next (sbSend s (.control 2 ([0] ++ u8 s.pw.eid ++ [0, 0]))) ∧
    exec .getMctpVersionSupport s = .next (sbSend s (.control 4 [0, 1, 0xF1, 0xF0, 0xFF, 0x00])) ∧
    exec .getMessageTypeSupport s = .next (sbSend s (.control 5 [0, 3, 0x00, 0x01, 0x7F])) ∧
    (∀ id v, sensorValue s id = some (some v) →
      exec (.pldmSensorReading id) s = .next (sbSend s (.pldm ([0, 0] ++ u32 (unsigned 32 v))))) ∧
    (∀ id, sensorValue s id = some none → exec (.pldmSensorReading id) s = .next (sbSend s (.pldm [0, 1]))) ∧
    (∀ req, fld req 2 1 = 2 → exec (.pldmBase req) s = .next
      (sbSend s (.pldm (u8 (fld req 0 1 % 128) ++ cut req 1 2 ++ ([0] ++ u8 s.pw.eid))))) ∧
    (∀ a, s.pw.dynAddr = none → exec (.setdasa 0x4E a) s = .next { s with pw := { s.pw with dynAddr := some a } } ∧
      exec (.entdaa a) s = .next { s with pw := { s.pw with dynAddr := some a } })

/-- In RECOVERY the loader reports its state, erases the image range, takes the image in order and boots it once it verifies; elsewhere
its messages are answered BUSY (R487, R580). -/
def Obligations.RecoveryLoaderTakesImage : Prop :=
  ∀ (tag : Nat) (s : State), standby s = true →
    (s.pw.boot = .recovery →
      exec (.recStatus tag) s = .next (vendorReply s 1 tag stOK 0
        (u8 (lcsCode s.sec.lcs) ++ u8 s.sec.recState ++ u8 (recCode s.sec.recCause) ++ u8 0 ++ u32 s.sec.recBytes)) ∧
      (∀ len, len ≤ imageRange → exec (.recBegin tag len) s = .next (vendorReply
        { s with sec := { s.sec with flash := memZero s.sec.flash 0 imageRange, recState := 1, recCause := .none, recBytes := 0,
                                     recLen := len } } 2 tag stOK len [])) ∧
      (∀ data : Bytes, s.sec.recState = 1 → 0 < data.length → data.length ≤ 1024 → s.sec.recBytes + data.length ≤ s.sec.recLen →
        let t := norWrite s s.sec.recBytes data
        exec (.recWrite tag s.sec.recBytes data) s = .next (vendorReply
          { t with sec := { t.sec with recBytes := s.sec.recBytes + data.length } } 3 tag stOK s.sec.recBytes [])) ∧
      (∀ v h d, s.sec.recState = 1 → romCheck (vendorReply s 4 tag stOK 0 []) v = .inl (h, d) →
        exec (.recEnd tag v) s = .next (romHand (vendorReply s 4 tag stOK 0 []) h d v.train)) ∧
      (∀ v cause, s.sec.recState = 1 → romCheck (vendorReply s 4 tag stOK 0 []) v = .inr cause →
        let t := vendorReply s 4 tag stOK 0 []
        exec (.recEnd tag v) s = .next { t with sec := { t.sec with recState := 3, recCause := cause } })) ∧
    (s.pw.boot ≠ .recovery →
      exec (.recStatus tag) s = .next (vendorReply s 1 tag stBUSY 0 []) ∧
      (∀ len, exec (.recBegin tag len) s = .next (vendorReply s 2 tag stBUSY len [])) ∧
      (∀ off data, exec (.recWrite tag off data) s = .next (vendorReply s 3 tag stBUSY off [])) ∧
      (∀ v, exec (.recEnd tag v) s = .next (vendorReply s 4 tag stBUSY 0 [])))

/-! ## Resets, saves and power -/

/-- Standby power brings the node to ROM and its loss, or that of every rail, turns it off; a cold reset keeps only what outlives the rails and
is ignored while SAVE_ACT is high; a warm reset by pin, command or sideband register drops the requests and the link and keeps T1, tenants
and sequences, and is held while WRST_N is low. ROM waits for PWRFAIL_N at a cold reset, halts in VOID, enters the recovery loader with
the cause of a failed check, and with a good image hands over: to a restore at a cold reset, to service at a warm one (R28, R485, R537,
R555, R556, R558, R560, R591, R597). -/
def Obligations.ResetsAndBootRun : Prop :=
  (∀ s : State,
    (s.pw.boot = .off → exec .standbyPowerUp s = .next { s with pw := { s.pw with boot := .rom, porstLow := true } }) ∧
    (s.pw.boot ≠ .off → exec .standbyPowerUp s = .next s) ∧
    (exec .standbyPowerLoss s = .next (standbyLost s) ∧ exec .railCollapse s = .next (standbyLost s) ∧
      (standbyLost s).pw.boot = .off ∧ (standbyLost s).pw.fail = {} ∧ (standbyLost s).fl.areaA = s.fl.areaA ∧
      (standbyLost s).fl.areaB = s.fl.areaB ∧ (standbyLost s).sec.lcs = s.sec.lcs)) ∧
  (∀ s : State,
    (s.pw.boot ≠ .off → s.pw.saveAct = false → exec .coldReset s = .next (coldState s)) ∧
    (s.pw.boot ≠ .off → s.pw.saveAct = true → exec .coldReset s = .next s) ∧
    (let t := coldState s
     t.pw.boot = .rom ∧ t.pw.porstLow = true ∧ t.pw.restored = false ∧ t.eng.reqs = [] ∧ t.nuc.qps = [] ∧ t.own.leases = [] ∧
     t.own.tenants = [] ∧ t.sq.seqs = [] ∧ t.mem.t1 = [] ∧ t.port.link = false ∧ t.clock.ptp = .unlocked ∧ t.pw.fail = s.pw.fail ∧
     t.fl.cfg = s.fl.cfg ∧ t.fl.areaA = s.fl.areaA ∧ t.fl.areaB = s.fl.areaB ∧ t.sec.lcs = s.sec.lcs ∧ t.sec.svnCount = s.sec.svnCount)) ∧
  (∀ s : State,
    (s.pw.boot = .off → exec .warmReset s = .next s) ∧
    (s.pw.boot ≠ .off → let s1 : State := { s with pw := { s.pw with wrstLow := true } }
      (warmable s = true → exec .warmReset s = .next (warmStart s1)) ∧ (warmable s = false → exec .warmReset s = .next s1)) ∧
    (warmable s = true → exec .sbCtrlWarm s = .next (warmStart s)) ∧ (warmable s = false → exec .sbCtrlWarm s = .next s) ∧
    exec .wrstNRise s = .next { s with pw := { s.pw with wrstLow := false } } ∧
    exec .pwrfailNRise s = .next { s with pw := { s.pw with pwrfailLow := false, romHeld := false } } ∧
    (let t := warmStart s
     t.pw.boot = .warmReset ∧ serves t = false ∧ t.port.link = false ∧ t.eng.reqs = [] ∧ t.mem.t1 = s.mem.t1 ∧
     t.own.tenants = s.own.tenants ∧ t.sq.seqs = s.sq.seqs ∧ t.pw.wrstLow = s.pw.wrstLow ∧ ∀ i < 18, (stackOf t i).selfRefresh = true)) ∧
  (∀ (c : Cmd) (s s1 : State) (r : MailCmd), Accepted 0x0252 .control (fun _ => 0) c s s1 r →
    exec (.resetWarm c) s = .next (warmStart s1)) ∧
  ((∀ (v : BootSigs) (s : State), s.pw.boot = .rom → s.pw.pwrfailLow = true → exec (.romBoot v) s = .next
      { s with pw := { s.pw with porstLow := false, thermtrip := s.pw.thermtrip && !coolEnough s, romHeld := true } }) ∧
    (∀ (v : BootSigs) (s : State), s.pw.boot = .warmReset → s.pw.wrstLow = true → exec (.romBoot v) s = .next s) ∧
    (∀ (v : BootSigs) (s : State), s.pw.boot ≠ .rom → s.pw.boot ≠ .warmReset → exec (.romBoot v) s = .next s) ∧
    (∀ (v : BootSigs) (s : State),
      (s.pw.boot = .rom ∧ s.pw.pwrfailLow = false) ∨ (s.pw.boot = .warmReset ∧ s.pw.wrstLow = false) →
      (s.sec.lcs = .void → ∃ t, exec (.romBoot v) s = .next t ∧ t.pw.boot = .void ∧ t.pw.failN = true) ∧
      (∀ cause, s.sec.lcs ≠ .void → romCheck s v = .inr cause →
        ∃ t, exec (.romBoot v) s = .next t ∧ t.pw.boot = .recovery ∧ t.sec.recCause = cause) ∧
      (∀ h d, s.sec.lcs ≠ .void → romCheck s v = .inl (h, d) → s.pw.restored = false →
        ∃ t, exec (.romBoot v) s = .next t ∧ t.pw.boot = .booting ∧ t.sec.locked = true ∧ t.sec.fwDig = d ∧ t.sec.svn = fld h 6 1 ∧
          t.sec.svnCount = (if flagAt h 7 0 then max s.sec.svnCount (fld h 6 1) else s.sec.svnCount)) ∧
      (∀ h d, s.sec.lcs ≠ .void → romCheck s v = .inl (h, d) → s.pw.restored = true →
        ∃ t, exec (.romBoot v) s = .next t ∧ t.pw.boot = .running ∧ serves t = true)))

/-- COLD_RESTORE restores a booting node, which then runs and serves commands, whatever image or log it restored from (R571, R574). -/
def Obligations.RestoredNodeRuns : Prop :=
  ∀ (v : SaveVerdict) (s : State), s.pw.boot = .booting → ∃ t, exec (.coldRestore v) s = .next t ∧ t = coldRestore s v ∧
    t.pw.boot = .running ∧ t.pw.restored = true ∧ serves t = true

/-- A power failure saves into an erased area and commits it last; without one, or before the node has restored, nothing is written; a
lost reference clock saves too; fail-stop records its cause and drives its pins (R537, R542, R564, R568 to R570). -/
def Obligations.SavesAndFailStop : Prop :=
  (∀ (ns : Nat) (s : State), savable s = true →
    let s1 : State := { s with pw := { s.pw with pwrfailLow := true } }
    exec (.cloveSave ns) s = .next (cloveSave s1 ns) ∧
    (s.pw.restored = true → s.fl.areaA.erased = true → ∃ g, (cloveSave s1 ns).fl.areaA = ⟨false, some g⟩ ∧ g.commit = false ∧
      g.seqs = s.sq.seqs ∧ (cloveSave s1 ns).pw.boot = .saving ∧ (cloveSave s1 ns).pw.saveAct = true) ∧
    (s.pw.restored = false ∨ (s.fl.areaA.erased = false ∧ s.fl.areaB.erased = false) →
      (cloveSave s1 ns).fl.areaA = s.fl.areaA ∧ (cloveSave s1 ns).fl.areaB = s.fl.areaB ∧ (cloveSave s1 ns).pw.boot = .saved ∧
      (cloveSave s1 ns).pw.saveDone = true ∧ (cloveSave s1 ns).pw.save.last = 2)) ∧
  (∀ (s : State) (g : SaveImage) (b : Bool), s.pw.boot = .saving → savingImage s = some (g, b) → ∃ t, exec .saveCommit s = .next t ∧
    t.pw.boot = .saved ∧ t.pw.saveAct = false ∧ t.pw.saveDone = true ∧ t.pw.save.last = 1 ∧
    (if b then t.fl.areaB else t.fl.areaA) = ⟨false, some { g with commit := true }⟩) ∧
  (∀ s : State, savable s = true →
    let s1 : State := { s with pw := { s.pw with refclk := false } }
    exec .refclkLoss s = .next (cloveSave (s1.word).2 ((s1.word).1 % (40 * 10 ^ 6 + 1)))) ∧
  (∀ (cause : FailCause) (s : State), s.pw.boot ≠ .off → s.pw.boot ≠ .failStop → s.pw.boot ≠ .void →
    ∃ t, exec (.failStop cause) s = .next t ∧ t.pw.boot = .failStop ∧ t.pw.failN = true ∧ t.pw.fail = failRegs cause ∧
      t.hl.band = 3 ∧ t.port.link = false)

/-- Power states are entered as deep as conditions and budget allow and left by work; estimates, the APP governor and temperatures set what
they report (R137, R268, R546 to R548, R551 to R553, R583). -/
def Obligations.PowerAndTemperatureFollowEvents : Prop :=
  (∀ s : State, serves s = true →
    let s1 := (s.word).2
    let p := deepest s1 ((s.word).1 % 2 == 1)
    (s.pw.pstate < p → ∃ t, exec .powerStateEntry s = .next t ∧ t.pw.pstate = p ∧ exitUs p ≤ s.pw.budgetUs) ∧
    (p ≤ s.pw.pstate → exec .powerStateEntry s = .next s1)) ∧
  (∀ (why : WakeCause) (s : State) (tr : Train), serves s = true →
    let n := leaveState s
    n.pw.pstate = 0 ∧
    exec (.powerStateExit ⟨why, tr⟩) s =
      .next (trainFail n tr fun i => (stackOf s i).selfRefresh && !(stackOf n i).selfRefresh) ∧
    exec (.powerStateExit ⟨why, {}⟩) s = .next n) ∧
  (∀ (i : Nat) (s : State) (tr : Train), i < 18 → serves s = true → (stackOf s i).selfRefresh = true →
    let s1 := s.at ((stackOf s i).srSince + 600 * 10 ^ 9)
    let n := wakeStack { s1 with pw := { s1.pw with pstate := 0 } } i
    exec (.maceSelfRefreshWake ⟨i, tr⟩) s = .next (trainFail n tr (· == i)) ∧ exec (.maceSelfRefreshWake ⟨i, {}⟩) s = .next n) ∧
  (∀ (a b c : Nat) (s : State), serves s = true → exec (.powerEstimateUpdate a b c) s =
    .next { s with pw := { s.pw with dieDw := a % 65536, stacksDw := b % 65536, pkgDw := c % 65536 } }) ∧
  (∀ (ws : List Nat) (s : State), serves s = true → exec (.appGovernorStep ws) s = .next (appStep s ws)) ∧
  (∀ (i : Nat) (ts : List Int) (t : Int) (s : State), i < 18 → s.pw.boot ≠ .off → hottest ts = some t →
    ∃ u, exec (.stackTemperatureReading i ts) s = .next u ∧ (stackOf u i).temp = some t ∧
      (stackOf u i).step = thermalStep [704, 736, 760] (stackOf s i).step t) ∧
  (∀ (t : Int) (s : State), s.pw.boot ≠ .off → ∃ u, exec (.dieTemperatureReading t) s = .next u ∧ u.pw.dieTemp = some t ∧
    u.pw.dieStep = thermalStep [760, 800, 840] s.pw.dieStep t)

/-- A derating step moves down at the first reading at or above its threshold and up only 2 °C below it; it never leaves 0 to 3 (R137, R268;
Table 4-10, Table 9-5). -/
def Obligations.DeratingStepHasHysteresis : Prop :=
  ∀ (a b c : Int) (old : Nat) (t : Int), a + 16 ≤ b → b + 16 ≤ c → old ≤ 3 →
    let n := thermalStep [a, b, c] old t
    n ≤ 3 ∧ (c ≤ t → n = 3) ∧ (t ≤ a - 16 → n = 0) ∧ (old ≤ n ∨ t ≤ [a, b, c].getD n 0 - 16) ∧
    (old < n → [a, b, c].getD (n - 1) 0 ≤ t)

/-! ## Armed requests -/

/-- The arm word of each data-plane opcode, reaching its slot under R397 with a good header and a live lease, makes the request stand
and begins its chapter's checks and work; where the copy of the slot meets an uncorrectable word, the request completes INTERNAL with an
error record (R397, R399, Table 18-3). -/
def Obligations.ArmedSlotsStartTheirRequests : Prop :=
  ∀ (a : Arm) (id : Req) (l : Lease) (via : Nat) (s t : State),
    let armed := fun (op : Nat) => armedState t id l via (wordOf op false a)
    (ArmTaken 0x01 a id l via s t → exec (.attend a) s = .next (migAll (attendStart (armed 0x01) id))) ∧
    (ArmTaken 0x02 a id l via s t → exec (.attendSelect a) s = .next (migAll (attendStart (armed 0x02) id))) ∧
    (ArmTaken 0x03 a id l via s t → exec (.mergeForward a) s = .next (migAll (mergeStart (armed 0x03) id))) ∧
    (ArmTaken 0x10 a id l via s t → exec (.appendScatter a) s = .next (migAll (appendStart (armed 0x10) id))) ∧
    (ArmTaken 0x11 a id l via s t → exec (.commit a) s = .next (migAll (appendStart (armed 0x11) id))) ∧
    (ArmTaken 0x12 a id l via s t → exec (.truncate a) s = .next (migAll (appendStart (armed 0x12) id))) ∧
    (ArmTaken 0x20 a id l via s t → exec (.search a) s = .next (migAll (searchStart (armed 0x20) id))) ∧
    (ArmTaken 0x21 a id l via s t → exec (.insertVectors a) s = .next (migAll (vecStart (armed 0x21) id))) ∧
    (ArmTaken 0x22 a id l via s t → exec (.deleteVectors a) s = .next (migAll (vecStart (armed 0x22) id))) ∧
    (ArmTaken 0x30 a id l via s t → exec (.runLayers a) s = .next (migAll (runStart (armed 0x30) id))) ∧
    (ArmTaken 0x31 a id l via s t → exec (.score a) s = .next (migAll (scoreStart (armed 0x31) id))) ∧
    (ArmTaken 0x40 a id l via s t → exec (.replicaPut a) s = .next (migAll (replicaStart (armed 0x40) id))) ∧
    (∀ p ∈ dataRows, Arms p.2 a id l via s t → a.ue = true →
      exec (p.1 a) s = .next (migAll (finish (sramBad (armed p.2) (armedRq t id l via (wordOf p.2 false a)) 1) id stINTERNAL)))

/-- A cancel word with the SLOTSEQ of the request that runs in the slot meets that request with CANCELLED; an arm word whose SLOTSEQ is not
LAST + 1, or that meets a running request, is only counted; arming sets LAST of that slot alone (R397, R398, R409). -/
def Obligations.ArmWordsFollowTheSlotSequence : Prop :=
  (∀ (a : Arm) (id : Req) (l : Lease) (via : Nat) (s t : State),
    (ArmReaches 0 true a id l via s t → reqOf t id ≠ none → a.seq % 65536 = lastOf t id →
      exec (.cancel a) s = .next (migAll (stopReq t id stCANCELLED))) ∧
    (ArmReaches 0 true a id l via s t → reqOf t id = none ∨ a.seq % 65536 ≠ lastOf t id →
      exec (.cancel a) s = .next (migAll (ignoreArm t l.tenant))) ∧
    (∀ p ∈ dataRows, ArmReaches p.2 false a id l via s t → reqOf t id ≠ none ∨ a.seq % 65536 ≠ (lastOf t id + 1) % 65536 →
      exec (p.1 a) s = .next (migAll (ignoreArm t l.tenant)))) ∧
  (∀ (s : State) (id other : Req) (l : Lease) (via word : Nat),
    lastOf (armedState s id l via word) id = word / 2 ^ 48 % 65536 ∧
    (other ≠ id → lastOf (armedState s id l via word) other = lastOf s other) ∧
    (armedState s id l via word).eng.reqs = s.eng.reqs ++ [armedRq s id l via word])

/-! ## Timers and grants -/

/-- Deadlines, lease ends and returns, and turns and waits that end, act on the request or lease they name (R53, R181, R198, R247, R290,
R407, R421, R428). -/
def Obligations.TimersActOnTheirSubjects : Prop :=
  (∀ (id : Req) (s : State) (r : Rq), serves s = true → reqOf s id = some r →
    (r.phase ≠ .finishing → exec (.deadlineExpiry id) s = .next (stopReq (s.at r.deadline) id stTIMEDOUT)) ∧
    (r.phase = .turn →
      (r.op ∈ appendOps → exec (.appendClassTurn id) s = .next (appendTurn s id)) ∧
      (r.op ∉ appendOps → r.op ∈ vecClass → exec (.appendClassTurn id) s = .next (vecQueue s id)) ∧
      (r.op ∉ appendOps → r.op ∉ vecClass → r.op = 0x30 → exec (.appendClassTurn id) s = .next (runTurn s id))) ∧
    (r.phase = .moving →
      let s1 := mapReq s id fun r => { r with phase := .running }
      exec (.spanMovingWaitEnd id) s = .next (if r.op = 0x30 then opAppendLocal s1 id else appendFeed s1 id)) ∧
    (∀ q, r.op = 0x12 → r.phase = .older → olderRun s r (cmNew r.body) = false → seqAny s r.handle = some q →
      exec (.truncateZeroing id) s = .next (appendOk (zeroAbove s q (cmNew r.body)) id))) ∧
  (∀ (id : Nat) (s : State) (l : Lease), serves s = true → leaseOf s id = some l →
    (l.state = .active → l.service = none → exec (.leaseExpiry id) s = .next (endLease (s.at l.fenceAt) id 1)) ∧
    (l.state = .ended → (∀ r ∈ s.eng.reqs, r.lease ≠ id) → ∃ t, exec (.leaseFree id) s = .next t ∧ leaseOf t id = none ∧
      t.clock.now = max s.clock.now (l.endedAt + 60 * 10 ^ 9) ∧
      ∀ n, l.slotFirst ≤ n → n < l.slotFirst + l.slots → lastOf t (.net n) = 0xFFFF))

/-- A context, instance or space that is free goes to the first request that waits for it (R163, R164, R227, R291, R339, R411, R412). -/
def Obligations.GrantsGoToTheFirstWaiting : Prop :=
  (∀ (s : State) (r : Rq) (rest : List Rq), serves s = true →
    (waiting s fun r => attnOps.contains r.op && r.phase == .context) = r :: rest → ctxUsed s attnOps < 4096 →
    exec .attentionContextGrant s = .next (attendGo s r.id)) ∧
  (∀ (s : State) (w : WalkWait) (rest : List WalkWait) (r : Rq) (t : State), serves s = true →
    sortBy (waitBefore s) s.eng.waits = w :: rest → reqOf s w.req = some r →
    let s1 : State := { s with eng := { s.eng with waits := s.eng.waits.erase w } }
    (match w.kind with | .pages q kv => startWalk s1 r q kv | .vectors q => startFind s1 r q | .insert => none) = some t →
    exec .pepperContextGrant s = .next t) ∧
  (∀ (s : State) (r : Rq) (rest : List Rq), serves s = true → scatterFree s = true →
    (waiting s fun r => scatterOps.contains r.op && r.phase == .context) = r :: rest →
    exec .scatterContextGrant s = .next
      (if r.op ∈ appendOps then appendGo s r.id else if r.op ∈ vecClass then vecGo s r.id else replicaGo s r.id)) ∧
  (∀ (s : State) (r : Rq), serves s = true →
    let room := fun (r : Rq) => match runPlan s r with
      | some o => decide ((instUsed s r.tenant o.id).length < pcInst o.bytes)
      | none => true
    (waiting s fun r => r.op == 0x30 && r.phase == .workspace).find? room = some r →
    exec .workspaceInstanceGrant s = .next (runGo s r.id)) ∧
  (∀ (s : State) (r : Rq) (u p : Nat) (w : UnitWork) (k : PassWork), serves s = true →
    (waiting s fun r => r.units.any fun u => u.passes.any fun p => p.stage == 4).find? (fun r => spaceFree s r.tenant) = some r →
    u = r.units.findIdx (fun u => u.passes.any fun p => p.stage == 4) → r.units[u]? = some w →
    p = w.passes.findIdx (fun p => p.stage == 4) → w.passes[p]? = some k →
    exec .flashReadSpaceGrant s = .next (issueArray (startDirect (setPass s r.id u p fun x => { x with stage := 1 }) r u p k.entry k.runs)
      r u p w.n k.entry k.runs)) ∧
  (∀ (ctx q kv : Nat) (s : State) (w : Walk) (r : Rq) (n : Ptr) (rest : List Ptr), serves s = true →
    (s.eng.walks.find? fun w => w.ctx == ctx) = some w → reqOf s w.req = some r → w.kind = .pages q kv → r.stop = none →
    w.todo = n :: rest →
    let upd := fun (x : Walk) => { x with todo := rest, seen := x.seen ++ [n] }
    exec (.treeNodeRead ctx false) s = .next
      (walkRun 8 { s with eng := { s.eng with walks := mapIf (fun x => x.ctx == ctx) upd s.eng.walks } } ctx))

/-! ## Banks -/

/-- Each bank row gives its operation to its bank's queue and lets the bank issue; CLEAR is placed ahead of the queue (R103, R107, R123). -/
def Obligations.BankRowsQueueTheirOperation : Prop :=
  ∀ (k : BankCmd) (s : State), k.bank < 9216 → (bankOf s k.bank).retired = false →
    (∀ p ∈ ([(Instr.spanAttend, 1), (.spanQk, 2), (.spanPv, 3), (.pageTagCheck, 4), (.pageTagWrite, 5), (.sketchPage, 6),
        (.quantStore, 7), (.ropeApply, 8), (.normRms, 9), (.normLayer, 10), (.elem, 11), (.dotRows, 12), (.distExact, 13),
        (.fillZero, 14), (.copyInBank, 15), (.loadReg, 16), (.storeReg, 17)] : List ((BankCmd → Instr) × Nat)),
      exec (p.1 k) s = .next (pump (enqueue s k.bank p.2 k.tenant k.desc k.chan .free) k.bank k.env)) ∧
    exec (.clear k) s = .next (pump (setBank s { bankOf s k.bank with clear := true }) k.bank k.env)

/-- The governor: with its stack at step 3, with less credit than the operation's charge, or behind a bank of the stack whose held operation
became ready earlier, a bank that has no CLEAR to make holds its leading operation, and neither T1 nor the credit changes; otherwise the
charge is taken at issue. An operation that the sequencer refuses, and a CLEAR, issue without charge (R134 to R137). -/
def Obligations.GovernorHoldsOperations : Prop :=
  ∀ (s : State) (b : Nat) (e : OpEnv) (op : QOp) (rest : List QOp),
    let k := bankOf s b
    let st := stackOf s (b / 512)
    let lead := if k.held then k.leadAt else s.now
    s.pw.boot = .running → k.retired = false → k.running = none → k.refreshing = false → k.pins = [] → st.selfRefresh = false →
    k.clear = false → takeOp s k = some (op, rest) → k.pass ≠ none ∨ k.p7 ≠ none ∨ k.last = none ∨ k.last = some op.tenant →
    let issued := fun (charge : Nat) =>
      (stackOf (pump s b e) (b / 512)).credit = creditAtTime st s.now - charge ∧ (bankOf (pump s b e) b).running.map Running.op = some op
    (ungoverned k op = false → st.step = 3 ∨ creditAtTime st s.now < chargeOf k op.opc op.desc ∨ earlierHeld s b lead = true →
      pump s b e = setBank s { k with held := true, leadAt := lead }) ∧
    (ungoverned k op = false → st.step ≠ 3 → chargeOf k op.opc op.desc ≤ creditAtTime st s.now → earlierHeld s b lead = false →
      tooLong s k op e = false → issued (chargeOf k op.opc op.desc)) ∧
    (ungoverned k op = true → tooLong s k op e = false → issued 0)

/-- The CLEAR between tenants: a bank that last served another tenant starts a CLEAR before the operation, which leaves every register,
entry and buffer zero (R123, R503). -/
def Obligations.BanksClearBetweenTenants : Prop :=
  ∀ (s : State) (b : Nat) (e : OpEnv) (op : QOp) (rest : List QOp) (t : Nat),
    let k := bankOf s b
    s.pw.boot = .running → k.retired = false → k.running = none → k.refreshing = false → k.pins = [] →
    (stackOf s (b / 512)).selfRefresh = false → k.clear = false → k.pass = none → k.p7 = none → takeOp s k = some (op, rest) →
    k.last = some t →
    t ≠ op.tenant →
    let n := bankOf (pump s b e) b
    n.v = [] ∧ n.parts = List.replicate 8 {} ∧ n.score = none ∧ n.wbuf = [] ∧ n.cbuf = [] ∧ n.queue = k.queue ∧
      n.last = some op.tenant ∧ (pump s b e).mem.t1 = s.mem.t1

/-- A bank operation changes T1 in its own bank only, below SEAL_BASE and never between the page-side area and OPEN_BASE; one that the checks
before issue refuse changes no byte of T1 or of the registers (R102, R125, R139 to R142). -/
def Obligations.BankOperationsKeepToTheirFrames : Prop :=
  (∀ (m : Mem) (k : Bank) (op : QOp) (e : OpEnv) (a : Nat), k.id < 9216 → memGet (runOp m k op e).1.mem a ≠ memGet m a →
    a / 2 ^ 28 = k.id ∧ a % 2 ^ 28 / 4096 < k.sealBase ∧ (a % 2 ^ 28 / 4096 < 720 ∨ openBase k.id ≤ a % 2 ^ 28 / 4096)) ∧
  (∀ (m : Mem) (k : Bank) (op : QOp) (e : OpEnv), preFault k op.opc op.desc ≠ 0 →
    (runOp m k op e).1.mem = m ∧ (runOp m k op e).2.fault = preFault k op.opc op.desc ∧
    (runOp m k op e).1.bank.v = k.v)

/-- Outcomes, refreshes, governor releases, pin accesses and bucket ticks of a bank do what R104, R106, R128, R129, R135 and R521 say. -/
def Obligations.BankEventsAdvanceTheBank : Prop :=
  ∀ (b : Nat) (s : State), b < 9216 →
    let k := bankOf s b
    (∀ e r, serves s = true → k.running = some r → r.suspended = false → r.corrected = [] → r.out.fault = 0 →
      exec (.bankOperationOutcome b e) s =
        .next (settleDiscards (pump (tell (setBank s { k with running := none }) b r.op r.out) b e))) ∧
    (∀ e, k.held = true → exec (.governorRelease b e) s = .next (pump s b e)) ∧
    (k.retired = false → (stackOf s (b / 512)).selfRefresh = false → exec (.refreshDue b) s = .next (setBank s
      { k with refreshing := true, refreshAt := k.refreshAt + refreshInterval s b,
               running := k.running.map fun r => { r with suspended := true } })) ∧
    (k.refreshing = true → exec (.refreshDone b) s = .next (pump (setBank s
      { k with refreshing := false, running := k.running.map fun r => { r with suspended := false } }) b noEnv)) ∧
    (∀ e f v own rest, atBreak s b = true → k.pins = ⟨f, some v, own⟩ :: rest → (∀ r i, own ≠ .page r i) →
      exec (.pinAccess b e) s = .next (pump (writeFrame (setBank s { k with pins := rest }) b f v) b noEnv)) ∧
    exec (.bucketLeak false b) s = .next (setBank s { k with bucket := k.bucket - 1 }) ∧
    (∀ c, c < 576 → exec (.bucketLeak true c) s = .next (setChannelLevel s c (channelLevel s c - 1)))

/-- Mace reads the frame its walk has reached and goes on; a queued repair runs though the walk is stopped; a bank retires in its stack's
turn; freed frames are zeroed; the health score is sampled (R504, R519, R527, R531 to R533). -/
def Obligations.MaceAndHealthRun : Prop :=
  (∀ (b : Nat) (e : FrameEnv) (s : State), b < 9216 → s.hl.maceT1 = true → atBreak s b = true → walkAt s b < 40960 →
    exec (.maceT1Frame b e) s = .next (passStep (maceFrame s b (walkAt s b) e) b (walkAt s b))) ∧
  (∀ (b : Nat) (s : State) (r : Repair), b < 9216 → (s.hl.repairs.find? fun r => r.bank == b) = some r → atBreak s b = true →
    exec (.maceRepair b) s = .next (maceFrame s b r.frame cleanFrame)) ∧
  (∀ (b : Nat) (s : State) (r : Retiring), b < 9216 → serves s = true → retiresNow s b = some r → atBreak s b = true →
    exec (.bankRetirement b) s = .next (retireBank s r)) ∧
  (∀ (t : Nat) (s : State), serves s = true → exec (.backgroundZeroing t) s = .next
    (dropTenant (reapColls (reapSeqs ((s.mem.freed.filter fun x => x.tenant == t && canZero s x).foldl zeroRun s))) t)) ∧
  (∀ s : State, serves s = true → exec .healthSample s = .next (healthSample s))

/-- The health score is at most 1,000, the band follows it up at once and down only after 3,600 s, and FAILED stays; the error log keeps at most
its newest 1,048,576 records and numbers each in order (R524, R525, R532, R533). -/
def Obligations.HealthAndLogsAreBounded : Prop :=
  (∀ s t : State, serves s = true → exec .healthSample s = .next t → t.hl.score ≤ 1000 ∧ (s.hl.band = 3 → t.hl.band = 3) ∧
    (s.hl.band < 3 → bandOf t.hl.score ≤ t.hl.band) ∧
    (t.hl.band < s.hl.band → ∃ since, s.hl.better = some since ∧ since + 3600 * 10 ^ 9 ≤ s.now)) ∧
  (∀ (s : State) (e : ErrRec), s.hl.errs.length ≤ 1048576 →
    let t := logErr s e
    t.hl.errs.length ≤ 1048576 ∧ t.hl.nextRec = s.hl.nextRec + 1 ∧
    t.hl.errs.getLast? = some { e with recno := s.hl.nextRec, time := s.clock.now })

/-- The sideband queue holds every event raised, 32 bytes each as Table 14-14 lays them out, at most 256: when it is full the oldest goes and
EVLOST is set. ALERT_N is low while it holds one, and EVENT_READ returns and removes the oldest (R582). -/
def Obligations.SidebandQueueHoldsEvents : Prop :=
  (∀ (s : State) (code : Nat) (data : Bytes), s.nuc.sbEvents.length ≤ 256 → ∃ e, e.code = code ∧ e.data = cut data 0 16 ∧
    e.time = s.clock.now ∧ e.eseq = s.nuc.eseq + 1 ∧ e.sev ≤ 2 ∧
    (s.nuc.sbEvents.length < 256 →
      (raise s code data).nuc.sbEvents = s.nuc.sbEvents ++ [e] ∧ (raise s code data).nuc.evLost = s.nuc.evLost) ∧
    (s.nuc.sbEvents.length = 256 →
      (raise s code data).nuc.sbEvents = s.nuc.sbEvents.drop 1 ++ [e] ∧ (raise s code data).nuc.evLost = true)) ∧
  (∀ (e : Event), e.code < 65536 → e.sev ≤ 2 → e.time < 2 ^ 64 →
    let b := eventBytes e
    b.length = 32 ∧ fld b 0 4 = e.eseq % 2 ^ 32 ∧ fld b 4 2 = e.code ∧ bfld b 6 1 1 0 = e.sev ∧ bfld b 6 1 7 2 = 0 ∧ fld b 7 1 = 0 ∧
    fld b 8 8 = e.time ∧ cut b 16 16 = cut e.data 0 16) ∧
  (∀ s : State, alertLow s = true ↔ s.nuc.sbEvents ≠ []) ∧
  (∀ (tag len : Nat) (s : State), standby s = true → len % 32 = 0 → len ≤ 1024 →
    exec (.eventRead tag len) s = .next (vendorReply
      { s with nuc := { s.nuc with sbEvents := s.nuc.sbEvents.drop (len / 32) } } 0x14 tag stOK 0
      ((s.nuc.sbEvents.take (len / 32)).flatMap eventBytes)))

/-! ## Arrays and layer plans -/

/-- A job that is ready on an array runs its next tile pass or page; a governor release starts held passes and dispatches; an operation
that a run has reached runs (R250, R254, R267, R274 to R282, R606). -/
def Obligations.ArraysAndPlansRun : Prop :=
  (∀ (ar : Nat) (s : State) (j : ArrJob), serves s = true → jobOn s ar = some j →
    (∀ call nt sram ue, j.kind = .col call nt → exec (.tilePass ar sram ue) s = .next (tilePass s j call nt sram ue)) ∧
    (∀ u p sram e, j.kind = .span u p → exec (.arraySpanPassPage ar ⟨sram, e⟩) s = .next (arrayPageStep s j u p sram e))) ∧
  (∀ (g : Nat) (s : State), serves s = true → exec (.arrayGovernorRelease g) s = .next (dispatch s g)) ∧
  (∀ (id : Req) (s : State), serves s = true →
    (opReady s id [1] ≠ none → exec (.gemm id) s = .next (gemmRun s id)) ∧
    (opReady s id [2] ≠ none → exec (.gemmSparse24 id) s = .next (gemmRun s id)) ∧
    (opReady s id [3] ≠ none → exec (.expertRoute id) s = .next (opRoute s id)) ∧
    (opReady s id [4] ≠ none → exec (.expertGemm id) s = .next (gemmRun s id)) ∧
    (opReady s id [5] ≠ none → exec (.norm id) s = .next (opNorm s id)) ∧
    (opReady s id [6] ≠ none → exec (.rope id) s = .next (opRopePlan s id)) ∧
    (opReady s id [7] ≠ none → exec (.act id) s = .next (opAct s id)) ∧
    (opReady s id [8] ≠ none → exec (.planElem id) s = .next (opElemPlan s id)) ∧
    (opReady s id [9] ≠ none → exec (.attendLocal id) s = .next (opAttendLocal s id)) ∧
    (opReady s id [10] ≠ none → exec (.appendLocal id) s = .next (opAppendLocal s id)) ∧
    (opReady s id [11] ≠ none → exec (.embedLookup id) s = .next (opEmbed s id)) ∧
    (opReady s id [12] ≠ none → exec (.scoreHead id) s = .next (gemmRun s id)) ∧
    (opReady s id [13] ≠ none → exec (.quant id) s = .next (opQuantPlan s id)) ∧
    (opReady s id [14] ≠ none → exec (.reduce id) s = .next (opReduce s id)))

/-! ## The flash tier -/

/-- A flush takes the first page in order that can start, its programs and acknowledgement complete it, installs read their blocks, the duties of
Mace in T2 run on their segments; a valid profile is kept and a format takes the fitted NAND (R326, R328, R332, R357 to R368, R500; what a
checkpoint journals and the places of the profile fields are the model's, log entries 25 and 22). -/
def Obligations.FlashTierRuns : Prop :=
  ((∀ (payload : Option Bytes) (s : State), serves s = true → s.fl.geom ≠ none → flushMover s = true →
    exec (.flush payload) s = .next (flushFirst payload (flushPicks s) s)) ∧
  (∀ (n : Nat) (s : State) (j : FJob), serves s = true → jobOf s n = some j → j.id = n →
    (∀ a l h i ss f k lsn rest, j.kind = .flush a l h i ss f k → j.todo = lsn :: rest → jobLive s j = true →
      let out := fun (x : FJob) => { x with todo := rest }
      let s1 : State := { s with fl := { s.fl with jobs := mapIf (fun x => x.id == n) out s.fl.jobs } }
      exec (.flashProgramDone n true) s = .next (if rest = [] then publishFlush s1 j else s1)) ∧
    (∀ a l h i ss f k x snaps, j.kind = .flush a l h i ss f k → j.todo = [] → jobLive s j = true → f = false ∨ k = true →
      flushSpan s j = some (x, snaps) →
      let y := snaps.foldl (fun (x : Span) (p : Snap) => mapPage x p.page (creditPage p.n)) x
      let s1 := setSpan s y
      exec (.flushComplete n) s = .next
        (commitsGo { s1 with fl := { s1.fl with jobs := s.fl.jobs.filter fun x => x.id != n } })) ∧
    (∀ e r a l h i b k s1, j.kind = .install r a l h i → j.todo = [k] → onMover s j = true → jobLive s j = true →
      readBlock s j.ver k e = (some b, s1) →
      exec (.flashReadDone n e) s = .next (installDone s1 { j with todo := [], data := j.data ++ [(k, b)] } a l h i))) ∧
  (∀ (seg : Nat) (ok : Bool) (g : FlashGeom) (s : State), serves s = true → s.fl.geom = some g → (segOf s seg).use = .erasing →
    exec (.flashEraseDone seg ok) s = .next (eraseDone s g (segOf s seg) ok)) ∧
  (∀ (g : FlashGeom) (s : State), serves s = true → s.fl.geom = some g →
    exec .mapCheckpoint s = .next (mapCheckpoint s) ∧
    exec .spanTableCheckpoint s = .next { s with fl := { s.fl with
      ckSpans := s.sq.spans, ckSeqs := s.sq.seqs, ckSpanLsn := s.fl.lsn, ckSpanTime := s.now, journalled := true } } ∧
    exec .garbageCollection s = .next (collect s g) ∧
    (∀ seg p, s.fl.profile = some p → s.hl.maceT2 = true → p.disturb ≤ (segOf s seg).reads →
      exec (.readDisturb seg) s = .next (relocAll (closeSeg s seg) fun r => r.seg == seg)) ∧
    (∀ seg f, s.hl.maceT2 = true → (segOf s seg).fill = 0 → exec (.readRefresh seg f) s = .next
      (relocAll (losePages { s with fl := { s.fl with walk := seg + 1 } } seg f) fun r =>
        r.seg == seg && inFrames f.weak r && !inFrames f.bad r)) ∧
    (∀ lun p, s.fl.profile = some p → s.hl.maceT2 = true → lun < lunCount g →
      exec (.wearLevelling lun) s = .next (levelWear s g p lun)) ∧
    (∀ obj block v, s.fl.repair.contains (obj, block) = true → objFlushing s obj = false → objOf s obj = some v →
      exec (.blockRepair obj block) s = .next (repairBlock s v block)) ∧
    (∀ tn t k, tenantOf s tn = some t → t.rekey = true → t.dying = false → newestKey t = some k →
      exec (.reKeyWalk tn) s = .next (rekeyStep s t k.gen)) ∧
    (∀ ok, s.fl.journalled = true → s.fl.areaA.image ≠ none ∨ s.fl.areaB.image ≠ none →
      exec (.saveAreaErase ok) s = .next (eraseArea s g ok)))) ∧
  ((∀ (c : Cmd) (s s1 : State) (r : MailCmd),
    Accepted 0x0240 .control (fun b => 0x20 + 4 * min 16 (profileCount b)) c s s1 r → profileOk r.body = true →
    exec (.flashProfileLoad c) s = .next (answered
      { s1 with fl := { s1.fl with profile := some (profileOf r.body) } } c stOK [])) ∧
  (∀ (c : Cmd) (g : FlashGeom) (p : Profile) (t : Nat) (s s1 : State) (r : MailCmd), Accepted 0x0241 .control (fun _ => 0) c s s1 r →
    s1.fl.profile = some p → flashStrength g = some t → geomOk g = true → saveTime g p ≤ 30 * 10 ^ 6 →
    exec (.flashFormat c (some g)) s = .next (answered (formatT2 s1 g t) c stOK [])))

/-! ## Rules of the whole machine -/

/-- A mailbox command that fails one of the checks every command has is answered with that status and no body, and changes nothing else
(R373, R380, R383, R581, R605). -/
def Obligations.FailedMailboxChecksChangeNothing : Prop :=
  ∀ (c : Cmd) (s s1 : State) (r : MailCmd) (st : Nat), serves s = true → s.port.link = true → c.box ≠ .sideband → r.noticeAddr = 0 →
    mailTake s c 0x0100 = some (s1, r) → mailCheck .tenant c.box (boxRole s1 c.box) r (fun _ => 16) = some st →
    exec (.leaseGrant c) s = .next (mailReply s1 c.box st []) ∧
    (mailReply s1 c.box st []).own = s1.own ∧ (mailReply s1 c.box st []).sq = s1.sq ∧ (mailReply s1 c.box st []).mem = s1.mem ∧
    (mailReply s1 c.box st []).port = s1.port ∧ (mailReply s1 c.box st []).fl = s1.fl ∧
    (r.copy ≠ r.code → st = stMALFORMED) ∧ (r.copy = r.code → r.rsvd = false → boxRole s1 c.box = none → st = stFENCED)

/-- A command word arms exactly when MSEQ is LAST + 1 and no command runs in the mailbox; arming takes the copy and sets LAST (R380). -/
def Obligations.CommandWordsArmInSequence : Prop :=
  ∀ (s : State) (b : Box) (m : Mailbox) (word : Nat), boxGet s b = some m → word < 2 ^ 64 →
    let seq := word / 2 ^ 48
    (m.run = none → seq = (m.last + 1) % 65536 → ∃ r, boxGet (boxArm s b word) b = some { m with last := seq, run := some r } ∧
      r.mseq = seq ∧ r.code = fld (memRead m.mem 0 32) 0 2 ∧ r.copy = word / 2 ^ 32 % 65536) ∧
    (m.run ≠ none ∨ seq ≠ (m.last + 1) % 65536 → boxArm s b word = s)

/-- The reply: status, zero, MSEQ, length and time ahead of the body in the outbound half, then the reply word with status, command code
and MSEQ at its end; the mailbox takes the next command (R381). -/
def Obligations.RepliesFillTheOutboundHalf : Prop :=
  ∀ (s : State) (m : Mailbox) (r : MailCmd) (st : Nat) (body : Bytes), s.nuc.sideband = m → Memory.wf m.mem = true →
    m.run = some r → r.noticeAddr = 0 → st < 256 → r.code < 65536 → r.mseq < 65536 → body.length ≤ 8152 →
    ∃ n, (mailReply s .sideband st body).nuc.sideband = n ∧ n.run = none ∧ n.last = m.last ∧
      memRead n.mem 0 8192 = memRead m.mem 0 8192 ∧
      memRead n.mem 8192 32 = u8 st ++ u8 0 ++ u16 r.mseq ++ u32 body.length ++ u64 s.now ++ zeros 16 ∧
      memRead n.mem (8192 + 32) body.length = body ∧
      memRead n.mem (16384 - 8) 8 = u64 (st + r.code * 2 ^ 32 + r.mseq * 2 ^ 48)

/-- The completion record of Table 14-8: 32 bytes with status, opcode, SLOTSEQ, slot, count, redirect where stale, detail where lost, and the
time; the details of Table 14-9 name a page, a vector or a weight tile (R400). -/
def Obligations.CompletionRecordsHaveTheirFields : Prop :=
  (∀ (p n : Nat), reqSlot (.int p n) = n ∧ reqSlot (.net n) = n) ∧
  (∀ (r : Rq) (st time : Nat), st < 256 → r.op < 256 → r.seq < 65536 → reqSlot r.id < 65536 → r.count < 2 ^ 32 → r.redirect < 65536 →
    r.detail < 2 ^ 64 → time < 2 ^ 64 →
    let b := cmplBytes r st time
    b.length = 32 ∧ fld b 0 1 = st ∧ fld b 1 1 = r.op ∧ fld b 2 2 = r.seq ∧ fld b 4 2 = reqSlot r.id ∧ fld b 6 2 = 0 ∧
    fld b 8 4 = r.count ∧ fld b 0xC 2 = (if st = 5 then r.redirect else 0) ∧ fld b 0xE 2 = 0 ∧
    fld b 0x10 8 = (if st = 6 then r.detail else 0) ∧ fld b 0x18 8 = time) ∧
  (∀ (x : Span) (page : Nat), spanId x.als x.layer x.head x.idx < 2 ^ 48 → page < 64 →
    let d := pageDetail x page
    bits d 63 62 = 0 ∧ bits d 47 0 = spanId x.als x.layer x.head x.idx ∧ bits d 53 48 = page ∧ bits d 61 54 = 0) ∧
  (∀ (k : Coll) (vid : Nat), k.id < 4096 → vid < 2 ^ 32 →
    let d := vecDetail k vid
    bits d 63 62 = 1 ∧ bits d 43 32 = k.id ∧ bits d 31 0 = vid ∧ bits d 61 44 = 0) ∧
  (∀ (o : Obj) (tile : Nat), o.id < 65536 → tile < 2 ^ 32 →
    let d := tileDetail o tile
    bits d 63 62 = 2 ∧ bits d 47 32 = o.id ∧ bits d 31 0 = tile ∧ bits d 61 48 = 0)

/-- Publishing a span entry starts a new span-table generation, and its SPAN_GEN rises by one, modulo 65,536, exactly when its state, bank
or first frame changes (R52). -/
def Obligations.PublicationsRaiseSpanGen : Prop :=
  ∀ (s : State) (x y : Span), spanOf s x.als x.layer x.head x.idx = some y →
    (publish s x).sq.gen = s.sq.gen + 1 ∧
    ∃ z, spanOf (publish s x) x.als x.layer x.head x.idx = some z ∧ z.state = x.state ∧ z.bank = x.bank ∧ z.frame = x.frame ∧
      (y.state = x.state ∧ y.bank = x.bank ∧ y.frame = x.frame → z.gen = y.gen) ∧
      (¬ (y.state = x.state ∧ y.bank = x.bank ∧ y.frame = x.frame) → z.gen = (y.gen + 1) % 65536)

/-- A byte written is read back, no other byte changes, and every memory operation keeps the canonical form. -/
def Obligations.MemoryReadsWhatWasWritten : Prop :=
  ∀ (m : Mem) (a n : Nat) (v : Bytes), Memory.wf m = true →
    Memory.wf (memWrite m a v) = true ∧ Memory.wf (memZero m a n) = true ∧
    memRead (memWrite m a v) a v.length = v ∧ memRead (memZero m a n) a n = zeros n ∧
    (∀ x, x < a ∨ a + v.length ≤ x → memGet (memWrite m a v) x = memGet m x) ∧
    (∀ x, x < a ∨ a + n ≤ x → memGet (memZero m a n) x = memGet m x)

/-- What the spec fixes at reset (ROM is to run, nothing is armed, saved or connected, the clock is not synchronized, no tenant, lease or sequence
exists, no bank is retired, the queue is empty); and the invariants hold there. -/
def Obligations.ResetState : Prop :=
  (State.reset.pending = [] ∧ State.reset.pw.boot = .rom ∧ serves State.reset = false ∧ State.reset.port.link = false ∧
  State.reset.clock.ptp = .unlocked ∧ State.reset.own.tenants = [] ∧ State.reset.own.leases = [] ∧ State.reset.sq.seqs = [] ∧
  State.reset.eng.reqs = [] ∧ State.reset.nuc.qps = [] ∧ State.reset.pw.pstate = 0 ∧ State.reset.hl.band = 0 ∧
  (∀ b < 9216, (bankOf State.reset b).retired = false ∧ (bankOf State.reset b).sealBase = 40960) ∧
  (∀ i, lastOf State.reset (.net i) = 0xFFFF) ∧ ctlOf State.reset 0 = { id := 0 } ∧ ({} : Mailbox).last = 0xFFFF) ∧
  (memoriesWf State.reset = true ∧ queueWf State.reset = true ∧ FusesHold 0 0 none State.reset)
end

