-- ==== Sys2Proof/Laws/Mail.lean ====
section
/-! SUPPORT. What a mailbox row answers once its command is accepted; what a load row answers once its bytes are staged. -/

namespace Sys2Proof.Machine

open Sys2Proof

/-- An accepted command runs its row's handler, and the reply or the wait that it asks for follows. -/
theorem mailRow_accepted {code : Nat} {k : MailKind} {need : Bytes → Nat} {c : Cmd} {s s1 : State} {r : MailCmd}
    (h : Accepted code k need c s s1 r) (f : MailCtx → Bytes → State → MailRes) :
    mailRow code k need f c s = match f ⟨c.box, callerQp s1 c, boxRole s1 c.box⟩ r.body s1 with
      | .reply t st body => answered t c st body
      | .wait t => saveCfg (mailBegun t c.box)
      | .silent t => t := by
  obtain ⟨h1, h2, h3⟩ := h
  have hg : (serves s && (s.port.link || c.box == .sideband)) = true := by
    rcases h1 with ⟨ha, hb | hb⟩ <;> simp [ha, hb]
  simp only [mailRow, hg, h2, h3, answered, callerQp]
  rfl

/-- The same for a row that shares its command code with others. -/
theorem mailRowIf_accepted {code : Nat} {k : MailKind} {need : Bytes → Nat} {c : Cmd} {s s1 : State} {r : MailCmd}
    (h : Accepted code k need c s s1 r) (p : Bytes → Bool) (f : MailCtx → Bytes → State → MailRes) (hp : p r.body = true) :
    mailRowIf p code k need f c s = match f ⟨c.box, callerQp s1 c, boxRole s1 c.box⟩ r.body s1 with
      | .reply t st body => answered t c st body
      | .wait t => saveCfg (mailBegun t c.box)
      | .silent t => t := by
  rw [← mailRow_accepted h]
  simp [mailRowIf, h.2.1, hp]

/-- A row that shares its code answers the state as it was to a body of another row. -/
theorem mailRowIf_other {code : Nat} {k : MailKind} {need : Bytes → Nat} {c : Cmd} {s s1 : State} {r : MailCmd}
    (h : mailTake s c code = some (s1, r)) (p : Bytes → Bool) (f : MailCtx → Bytes → State → MailRes) (hp : p r.body = false) :
    mailRowIf p code k need f c s = s := by
  simp [mailRowIf, h, hp]

/-- The tenant a handler sees is the caller's. -/
@[simp] theorem mailCtx_tenant (s : State) (c : Cmd) :
    MailCtx.tenant ⟨c.box, callerQp s c, boxRole s c.box⟩ = callerTenant s c := by
  unfold MailCtx.tenant callerTenant
  cases boxRole s c.box with
  | none => rfl
  | some x => cases x <;> rfl

/-- A load command whose bytes are staged runs its handler on them. -/
theorem loadRow_taken {code : Nat} {w : Bool} {c : Cmd} {s s1 : State} {r : MailCmd} {v : Bytes}
    (h : LoadTaken code w c s s1 r v) (f : Nat → Bytes → Bytes → State → MailRes) :
    loadRow code w f c s = match f (callerTenant s1 c) r.body v (settleLease s1 (fld r.body 0 2)) with
      | .reply t st body => answered t c st body
      | .wait t => saveCfg (mailBegun t c.box)
      | .silent t => t := by
  obtain ⟨h1, h2⟩ := h
  simp only [loadRow, mailRow_accepted h1, mailCtx_tenant, h2]

end Sys2Proof.Machine
end

