-- ==== Sys2Proof/Laws/Memory.lean ====
section
/-! SUPPORT. Byte memory: every operation keeps the canonical form; what a byte reads as after each. -/

namespace Sys2Proof.Machine

open Sys2Proof

/-! ## The canonical form -/

theorem memWfFrom_mono {lo lo' : Nat} {m : Mem} (h : lo' ≤ lo) (w : memWfFrom lo m = true) : memWfFrom lo' m = true := by
  cases m with
  | nil => rfl
  | cons c t =>
    simp only [memWfFrom, Bool.and_eq_true, decide_eq_true_eq] at w ⊢
    exact ⟨⟨by omega, w.1.2⟩, w.2⟩

theorem memPut_wfFrom {lo a : Nat} (v : Byte) {m : Mem} (h : lo ≤ a) (w : memWfFrom lo m = true) :
    memWfFrom lo (memPut m a v) = true := by
  induction m generalizing lo with
  | nil => by_cases e : v = memDefault <;> simp [memPut, memWfFrom, e, h]
  | cons c t ih =>
    obtain ⟨b, x⟩ := c
    simp only [memWfFrom, Bool.and_eq_true, decide_eq_true_eq] at w
    obtain ⟨⟨w1, w2⟩, w3⟩ := w
    simp only [memPut]
    split
    · split
      · simp [memWfFrom, w1, w2, w3]
      · rename_i hab hv
        have hb : a + 1 ≤ b := hab
        simp [memWfFrom, h, hv, hb, w2, w3]
    · split
      · split
        · exact memWfFrom_mono (by omega) w3
        · rename_i hab hv
          subst hab
          simp [memWfFrom, h, hv, w3]
      · have hb : b + 1 ≤ a := by omega
        simp [memWfFrom, w1, w2, ih hb w3]

/-- Storing a byte keeps the canonical form. -/
theorem memPut_wf (m : Mem) (a : Nat) (v : Byte) (w : Memory.wf m = true) : Memory.wf (memPut m a v) = true :=
  memPut_wfFrom v (Nat.zero_le a) w

/-- Storing a run of bytes keeps the canonical form. -/
theorem memWrite_wf (m : Mem) (a : Nat) (bs : Bytes) (w : Memory.wf m = true) : Memory.wf (memWrite m a bs) = true := by
  induction bs generalizing m a with
  | nil => exact w
  | cons b bs ih => exact ih (memPut m a b) (a + 1) (memPut_wf m a b w)

theorem memFilter_wfFrom (p : Host.Cell → Bool) {lo : Nat} {m : Mem} (w : memWfFrom lo m = true) :
    memWfFrom lo (m.filter p) = true := by
  induction m generalizing lo with
  | nil => rfl
  | cons c t ih =>
    obtain ⟨b, x⟩ := c
    simp only [memWfFrom, Bool.and_eq_true, decide_eq_true_eq] at w
    obtain ⟨⟨w1, w2⟩, w3⟩ := w
    simp only [List.filter_cons]
    split
    · simp [memWfFrom, w1, w2, ih w3]
    · exact memWfFrom_mono (by omega) (ih w3)

/-- Clearing a run of bytes keeps the canonical form. -/
theorem memZero_wf (m : Mem) (a n : Nat) (w : Memory.wf m = true) : Memory.wf (memZero m a n) = true :=
  memFilter_wfFrom _ w

/-! ## Reads after writes -/

/-- An address below every listed one reads as the default. -/
theorem memGet_low {lo a : Nat} {m : Mem} (h : a < lo) (w : memWfFrom lo m = true) : memGet m a = memDefault := by
  induction m generalizing lo with
  | nil => rfl
  | cons c t ih =>
    obtain ⟨b, x⟩ := c
    simp only [memWfFrom, Bool.and_eq_true, decide_eq_true_eq] at w
    obtain ⟨⟨w1, w2⟩, w3⟩ := w
    have hab : a ≠ b := by omega
    have e : memGet t a = memDefault := ih (lo := b + 1) (by omega) w3
    simp [memGet, hab, e]

/-- The byte stored is the byte read. -/
theorem memGet_memPut_same (m : Mem) (a : Nat) (v : Byte) (w : Memory.wf m = true) : memGet (memPut m a v) a = v := by
  unfold Memory.wf at w
  generalize 0 = lo at w
  induction m generalizing lo with
  | nil => by_cases e : v = memDefault <;> simp [memPut, memGet, e]
  | cons c t ih =>
    obtain ⟨b, x⟩ := c
    simp only [memWfFrom, Bool.and_eq_true, decide_eq_true_eq] at w
    obtain ⟨⟨w1, w2⟩, w3⟩ := w
    simp only [memPut]
    split
    · rename_i hab
      have : a ≠ b := by omega
      split
      · rename_i hv
        have e : memGet t a = memDefault := memGet_low (lo := b + 1) (by omega) w3
        simp [memGet, this, hv, e]
      · simp [memGet]
    · split
      · rename_i hab
        subst hab
        split
        · rename_i hv
          rw [hv]
          exact memGet_low (lo := a + 1) (by omega) w3
        · simp [memGet]
      · rename_i hab
        simp [memGet, hab, ih (lo := b + 1) w3]

/-- Storing a byte changes no other. -/
theorem memGet_memPut_other (m : Mem) (a x : Nat) (v : Byte) (h : x ≠ a) : memGet (memPut m a v) x = memGet m x := by
  induction m with
  | nil => by_cases e : v = memDefault <;> simp [memPut, memGet, e, h]
  | cons c t ih =>
    obtain ⟨b, y⟩ := c
    simp only [memPut]
    split
    · split
      · rfl
      · simp [memGet, h]
    · split
      · rename_i hab
        subst hab
        split
        · simp [memGet, h]
        · simp [memGet, h]
      · by_cases e : x = b <;> simp [memGet, e, ih]

/-- Storing a run of bytes changes no byte outside it. -/
theorem memGet_memWrite_other (m : Mem) (a x : Nat) (bs : Bytes) (h : x < a ∨ a + bs.length ≤ x) :
    memGet (memWrite m a bs) x = memGet m x := by
  induction bs generalizing m a with
  | nil => rfl
  | cons b bs ih =>
    simp only [List.length_cons] at h
    rw [memWrite, ih (memPut m a b) (a + 1) (by omega)]
    exact memGet_memPut_other m a x b (by omega)

@[simp] theorem memRead_length (m : Mem) (a n : Nat) : (memRead m a n).length = n := by simp [memRead]

end Sys2Proof.Machine
end

