-- ==== Sys2Proof/Laws/Receive.lean ====
section
/-! SUPPORT. What the port does with a request packet once it is taken, and with one that is not the next. -/

namespace Sys2Proof.Machine

open Sys2Proof

/-- The next packet of a QP is executed. -/
theorem receive_taken {x : Rx} {rkey : Nat} {s s1 : State} {q : Qp} (h : RxTaken x rkey s s1 q) (k dup : State → Qp → State) :
    receive s x (some rkey) k dup = k s1 q := by
  obtain ⟨s2, s3, h1, h2, h3, h4, h5, h6, h7, h8, h9, h10⟩ := h
  subst h10
  simp only [receive, h1, h2, h3, h4, h5, h6, h7, h8, h9]
  simp

/-- A duplicate is answered again; a gap is answered by one negative acknowledgement. -/
theorem receive_outOfOrder {x : Rx} {rkey : Nat} {s s1 : State} {q : Qp} (h : RxOutOfOrder x rkey s s1 q)
    (k dup : State → Qp → State) :
    receive s x (some rkey) k dup =
      if psnLe (x.psn + 1) q.rxPsn then dup s1 q
      else if q.nakSent then s1
      else mapQp (post s1 q 4 0 (.nak q.num q.rxPsn .sequence)) q.num fun q => { q with nakSent := true } := by
  obtain ⟨s2, s3, h1, h2, h3, h4, h5, h6, h7, h8, h9, h10⟩ := h
  subst h10
  simp only [receive, h1, h2, h3, h4, h5, h6, h7, h8, h9]
  simp

end Sys2Proof.Machine
end

