-- ==== Sys2Proof/Laws/State.lean ====
section
/-! SUPPORT. What each plain update of the state leaves alone, one lemma a field, each true by rfl. -/

namespace Sys2Proof.Machine

open Sys2Proof

/-! ## at -/

@[simp] theorem at_mem (s : State) (t : Nat) : (s.at t).mem = s.mem := rfl
@[simp] theorem at_nuc (s : State) (t : Nat) : (s.at t).nuc = s.nuc := rfl
@[simp] theorem at_own (s : State) (t : Nat) : (s.at t).own = s.own := rfl
@[simp] theorem at_sq (s : State) (t : Nat) : (s.at t).sq = s.sq := rfl
@[simp] theorem at_eng (s : State) (t : Nat) : (s.at t).eng = s.eng := rfl
@[simp] theorem at_port (s : State) (t : Nat) : (s.at t).port = s.port := rfl
@[simp] theorem at_hl (s : State) (t : Nat) : (s.at t).hl = s.hl := rfl
@[simp] theorem at_serv (s : State) (t : Nat) : (s.at t).serv = s.serv := rfl
@[simp] theorem at_pw (s : State) (t : Nat) : (s.at t).pw = s.pw := rfl
@[simp] theorem at_sec (s : State) (t : Nat) : (s.at t).sec = s.sec := rfl
@[simp] theorem at_arr (s : State) (t : Nat) : (s.at t).arr = s.arr := rfl
@[simp] theorem at_fl (s : State) (t : Nat) : (s.at t).fl = s.fl := rfl
@[simp] theorem at_free (s : State) (t : Nat) : (s.at t).free = s.free := rfl
@[simp] theorem at_pending (s : State) (t : Nat) : (s.at t).pending = s.pending := rfl
@[simp] theorem at_clock_ptp (s : State) (t : Nat) : (s.at t).clock.ptp = s.clock.ptp := rfl
@[simp] theorem at_clock_th (s : State) (t : Nat) : (s.at t).clock.th = s.clock.th := rfl

/-! ## draw -/

@[simp] theorem draw_clock (s : State) : s.draw.2.clock = s.clock := rfl
@[simp] theorem draw_mem (s : State) : s.draw.2.mem = s.mem := rfl
@[simp] theorem draw_nuc (s : State) : s.draw.2.nuc = s.nuc := rfl
@[simp] theorem draw_own (s : State) : s.draw.2.own = s.own := rfl
@[simp] theorem draw_sq (s : State) : s.draw.2.sq = s.sq := rfl
@[simp] theorem draw_eng (s : State) : s.draw.2.eng = s.eng := rfl
@[simp] theorem draw_port (s : State) : s.draw.2.port = s.port := rfl
@[simp] theorem draw_hl (s : State) : s.draw.2.hl = s.hl := rfl
@[simp] theorem draw_serv (s : State) : s.draw.2.serv = s.serv := rfl
@[simp] theorem draw_pw (s : State) : s.draw.2.pw = s.pw := rfl
@[simp] theorem draw_sec (s : State) : s.draw.2.sec = s.sec := rfl
@[simp] theorem draw_arr (s : State) : s.draw.2.arr = s.arr := rfl
@[simp] theorem draw_fl (s : State) : s.draw.2.fl = s.fl := rfl
@[simp] theorem draw_pending (s : State) : s.draw.2.pending = s.pending := rfl

/-! ## setTenant -/

@[simp] theorem setTenant_clock (s : State) (t : Tenant) : (setTenant s t).clock = s.clock := rfl
@[simp] theorem setTenant_mem (s : State) (t : Tenant) : (setTenant s t).mem = s.mem := rfl
@[simp] theorem setTenant_nuc (s : State) (t : Tenant) : (setTenant s t).nuc = s.nuc := rfl
@[simp] theorem setTenant_sq (s : State) (t : Tenant) : (setTenant s t).sq = s.sq := rfl
@[simp] theorem setTenant_eng (s : State) (t : Tenant) : (setTenant s t).eng = s.eng := rfl
@[simp] theorem setTenant_port (s : State) (t : Tenant) : (setTenant s t).port = s.port := rfl
@[simp] theorem setTenant_hl (s : State) (t : Tenant) : (setTenant s t).hl = s.hl := rfl
@[simp] theorem setTenant_serv (s : State) (t : Tenant) : (setTenant s t).serv = s.serv := rfl
@[simp] theorem setTenant_pw (s : State) (t : Tenant) : (setTenant s t).pw = s.pw := rfl
@[simp] theorem setTenant_sec (s : State) (t : Tenant) : (setTenant s t).sec = s.sec := rfl
@[simp] theorem setTenant_arr (s : State) (t : Tenant) : (setTenant s t).arr = s.arr := rfl
@[simp] theorem setTenant_fl (s : State) (t : Tenant) : (setTenant s t).fl = s.fl := rfl
@[simp] theorem setTenant_free (s : State) (t : Tenant) : (setTenant s t).free = s.free := rfl
@[simp] theorem setTenant_pending (s : State) (t : Tenant) : (setTenant s t).pending = s.pending := rfl
@[simp] theorem setTenant_own_leases (s : State) (t : Tenant) : (setTenant s t).own.leases = s.own.leases := rfl
@[simp] theorem setTenant_own_gens (s : State) (t : Tenant) : (setTenant s t).own.gens = s.own.gens := rfl

/-! ## mapTenant -/

@[simp] theorem mapTenant_clock (s : State) (t : Nat) (f : Tenant → Tenant) : (mapTenant s t f).clock = s.clock := rfl
@[simp] theorem mapTenant_mem (s : State) (t : Nat) (f : Tenant → Tenant) : (mapTenant s t f).mem = s.mem := rfl
@[simp] theorem mapTenant_nuc (s : State) (t : Nat) (f : Tenant → Tenant) : (mapTenant s t f).nuc = s.nuc := rfl
@[simp] theorem mapTenant_sq (s : State) (t : Nat) (f : Tenant → Tenant) : (mapTenant s t f).sq = s.sq := rfl
@[simp] theorem mapTenant_eng (s : State) (t : Nat) (f : Tenant → Tenant) : (mapTenant s t f).eng = s.eng := rfl
@[simp] theorem mapTenant_port (s : State) (t : Nat) (f : Tenant → Tenant) : (mapTenant s t f).port = s.port := rfl
@[simp] theorem mapTenant_hl (s : State) (t : Nat) (f : Tenant → Tenant) : (mapTenant s t f).hl = s.hl := rfl
@[simp] theorem mapTenant_serv (s : State) (t : Nat) (f : Tenant → Tenant) : (mapTenant s t f).serv = s.serv := rfl
@[simp] theorem mapTenant_pw (s : State) (t : Nat) (f : Tenant → Tenant) : (mapTenant s t f).pw = s.pw := rfl
@[simp] theorem mapTenant_sec (s : State) (t : Nat) (f : Tenant → Tenant) : (mapTenant s t f).sec = s.sec := rfl
@[simp] theorem mapTenant_arr (s : State) (t : Nat) (f : Tenant → Tenant) : (mapTenant s t f).arr = s.arr := rfl
@[simp] theorem mapTenant_fl (s : State) (t : Nat) (f : Tenant → Tenant) : (mapTenant s t f).fl = s.fl := rfl
@[simp] theorem mapTenant_free (s : State) (t : Nat) (f : Tenant → Tenant) : (mapTenant s t f).free = s.free := rfl
@[simp] theorem mapTenant_pending (s : State) (t : Nat) (f : Tenant → Tenant) : (mapTenant s t f).pending = s.pending := rfl
@[simp] theorem mapTenant_own_leases (s : State) (t : Nat) (f : Tenant → Tenant) : (mapTenant s t f).own.leases = s.own.leases := rfl
@[simp] theorem mapTenant_own_gens (s : State) (t : Nat) (f : Tenant → Tenant) : (mapTenant s t f).own.gens = s.own.gens := rfl

/-! ## mapLease -/

@[simp] theorem mapLease_clock (s : State) (l : Nat) (f : Lease → Lease) : (mapLease s l f).clock = s.clock := rfl
@[simp] theorem mapLease_mem (s : State) (l : Nat) (f : Lease → Lease) : (mapLease s l f).mem = s.mem := rfl
@[simp] theorem mapLease_nuc (s : State) (l : Nat) (f : Lease → Lease) : (mapLease s l f).nuc = s.nuc := rfl
@[simp] theorem mapLease_sq (s : State) (l : Nat) (f : Lease → Lease) : (mapLease s l f).sq = s.sq := rfl
@[simp] theorem mapLease_eng (s : State) (l : Nat) (f : Lease → Lease) : (mapLease s l f).eng = s.eng := rfl
@[simp] theorem mapLease_port (s : State) (l : Nat) (f : Lease → Lease) : (mapLease s l f).port = s.port := rfl
@[simp] theorem mapLease_hl (s : State) (l : Nat) (f : Lease → Lease) : (mapLease s l f).hl = s.hl := rfl
@[simp] theorem mapLease_serv (s : State) (l : Nat) (f : Lease → Lease) : (mapLease s l f).serv = s.serv := rfl
@[simp] theorem mapLease_pw (s : State) (l : Nat) (f : Lease → Lease) : (mapLease s l f).pw = s.pw := rfl
@[simp] theorem mapLease_sec (s : State) (l : Nat) (f : Lease → Lease) : (mapLease s l f).sec = s.sec := rfl
@[simp] theorem mapLease_arr (s : State) (l : Nat) (f : Lease → Lease) : (mapLease s l f).arr = s.arr := rfl
@[simp] theorem mapLease_fl (s : State) (l : Nat) (f : Lease → Lease) : (mapLease s l f).fl = s.fl := rfl
@[simp] theorem mapLease_free (s : State) (l : Nat) (f : Lease → Lease) : (mapLease s l f).free = s.free := rfl
@[simp] theorem mapLease_pending (s : State) (l : Nat) (f : Lease → Lease) : (mapLease s l f).pending = s.pending := rfl
@[simp] theorem mapLease_own_tenants (s : State) (l : Nat) (f : Lease → Lease) : (mapLease s l f).own.tenants = s.own.tenants := rfl
@[simp] theorem mapLease_own_gens (s : State) (l : Nat) (f : Lease → Lease) : (mapLease s l f).own.gens = s.own.gens := rfl

/-! ## mapQp -/

@[simp] theorem mapQp_clock (s : State) (q : Nat) (f : Qp → Qp) : (mapQp s q f).clock = s.clock := rfl
@[simp] theorem mapQp_mem (s : State) (q : Nat) (f : Qp → Qp) : (mapQp s q f).mem = s.mem := rfl
@[simp] theorem mapQp_own (s : State) (q : Nat) (f : Qp → Qp) : (mapQp s q f).own = s.own := rfl
@[simp] theorem mapQp_sq (s : State) (q : Nat) (f : Qp → Qp) : (mapQp s q f).sq = s.sq := rfl
@[simp] theorem mapQp_eng (s : State) (q : Nat) (f : Qp → Qp) : (mapQp s q f).eng = s.eng := rfl
@[simp] theorem mapQp_port (s : State) (q : Nat) (f : Qp → Qp) : (mapQp s q f).port = s.port := rfl
@[simp] theorem mapQp_hl (s : State) (q : Nat) (f : Qp → Qp) : (mapQp s q f).hl = s.hl := rfl
@[simp] theorem mapQp_serv (s : State) (q : Nat) (f : Qp → Qp) : (mapQp s q f).serv = s.serv := rfl
@[simp] theorem mapQp_pw (s : State) (q : Nat) (f : Qp → Qp) : (mapQp s q f).pw = s.pw := rfl
@[simp] theorem mapQp_sec (s : State) (q : Nat) (f : Qp → Qp) : (mapQp s q f).sec = s.sec := rfl
@[simp] theorem mapQp_arr (s : State) (q : Nat) (f : Qp → Qp) : (mapQp s q f).arr = s.arr := rfl
@[simp] theorem mapQp_fl (s : State) (q : Nat) (f : Qp → Qp) : (mapQp s q f).fl = s.fl := rfl
@[simp] theorem mapQp_free (s : State) (q : Nat) (f : Qp → Qp) : (mapQp s q f).free = s.free := rfl
@[simp] theorem mapQp_pending (s : State) (q : Nat) (f : Qp → Qp) : (mapQp s q f).pending = s.pending := rfl
@[simp] theorem mapQp_nuc_win (s : State) (q : Nat) (f : Qp → Qp) : (mapQp s q f).nuc.win = s.nuc.win := rfl
@[simp] theorem mapQp_nuc_slots (s : State) (q : Nat) (f : Qp → Qp) : (mapQp s q f).nuc.slots = s.nuc.slots := rfl
@[simp] theorem mapQp_nuc_ctl (s : State) (q : Nat) (f : Qp → Qp) : (mapQp s q f).nuc.ctl = s.nuc.ctl := rfl
@[simp] theorem mapQp_nuc_sideband (s : State) (q : Nat) (f : Qp → Qp) : (mapQp s q f).nuc.sideband = s.nuc.sideband := rfl
@[simp] theorem mapQp_nuc_subs (s : State) (q : Nat) (f : Qp → Qp) : (mapQp s q f).nuc.subs = s.nuc.subs := rfl
@[simp] theorem mapQp_nuc_eseq (s : State) (q : Nat) (f : Qp → Qp) : (mapQp s q f).nuc.eseq = s.nuc.eseq := rfl
@[simp] theorem mapQp_nuc_sbEvents (s : State) (q : Nat) (f : Qp → Qp) : (mapQp s q f).nuc.sbEvents = s.nuc.sbEvents := rfl
@[simp] theorem mapQp_nuc_evLost (s : State) (q : Nat) (f : Qp → Qp) : (mapQp s q f).nuc.evLost = s.nuc.evLost := rfl
@[simp] theorem mapQp_nuc_sessions (s : State) (q : Nat) (f : Qp → Qp) : (mapQp s q f).nuc.sessions = s.nuc.sessions := rfl
@[simp] theorem mapQp_nuc_arrivals (s : State) (q : Nat) (f : Qp → Qp) : (mapQp s q f).nuc.arrivals = s.nuc.arrivals := rfl

/-! ## setCtl -/

@[simp] theorem setCtl_clock (s : State) (c : CtlBox) : (setCtl s c).clock = s.clock := rfl
@[simp] theorem setCtl_mem (s : State) (c : CtlBox) : (setCtl s c).mem = s.mem := rfl
@[simp] theorem setCtl_own (s : State) (c : CtlBox) : (setCtl s c).own = s.own := rfl
@[simp] theorem setCtl_sq (s : State) (c : CtlBox) : (setCtl s c).sq = s.sq := rfl
@[simp] theorem setCtl_eng (s : State) (c : CtlBox) : (setCtl s c).eng = s.eng := rfl
@[simp] theorem setCtl_port (s : State) (c : CtlBox) : (setCtl s c).port = s.port := rfl
@[simp] theorem setCtl_hl (s : State) (c : CtlBox) : (setCtl s c).hl = s.hl := rfl
@[simp] theorem setCtl_serv (s : State) (c : CtlBox) : (setCtl s c).serv = s.serv := rfl
@[simp] theorem setCtl_pw (s : State) (c : CtlBox) : (setCtl s c).pw = s.pw := rfl
@[simp] theorem setCtl_sec (s : State) (c : CtlBox) : (setCtl s c).sec = s.sec := rfl
@[simp] theorem setCtl_arr (s : State) (c : CtlBox) : (setCtl s c).arr = s.arr := rfl
@[simp] theorem setCtl_fl (s : State) (c : CtlBox) : (setCtl s c).fl = s.fl := rfl
@[simp] theorem setCtl_free (s : State) (c : CtlBox) : (setCtl s c).free = s.free := rfl
@[simp] theorem setCtl_pending (s : State) (c : CtlBox) : (setCtl s c).pending = s.pending := rfl
@[simp] theorem setCtl_nuc_win (s : State) (c : CtlBox) : (setCtl s c).nuc.win = s.nuc.win := rfl
@[simp] theorem setCtl_nuc_slots (s : State) (c : CtlBox) : (setCtl s c).nuc.slots = s.nuc.slots := rfl
@[simp] theorem setCtl_nuc_qps (s : State) (c : CtlBox) : (setCtl s c).nuc.qps = s.nuc.qps := rfl
@[simp] theorem setCtl_nuc_sideband (s : State) (c : CtlBox) : (setCtl s c).nuc.sideband = s.nuc.sideband := rfl
@[simp] theorem setCtl_nuc_subs (s : State) (c : CtlBox) : (setCtl s c).nuc.subs = s.nuc.subs := rfl
@[simp] theorem setCtl_nuc_eseq (s : State) (c : CtlBox) : (setCtl s c).nuc.eseq = s.nuc.eseq := rfl
@[simp] theorem setCtl_nuc_sbEvents (s : State) (c : CtlBox) : (setCtl s c).nuc.sbEvents = s.nuc.sbEvents := rfl
@[simp] theorem setCtl_nuc_evLost (s : State) (c : CtlBox) : (setCtl s c).nuc.evLost = s.nuc.evLost := rfl
@[simp] theorem setCtl_nuc_sessions (s : State) (c : CtlBox) : (setCtl s c).nuc.sessions = s.nuc.sessions := rfl
@[simp] theorem setCtl_nuc_arrivals (s : State) (c : CtlBox) : (setCtl s c).nuc.arrivals = s.nuc.arrivals := rfl

/-! ## cellWrite -/

@[simp] theorem cellWrite_clock (s : State) (i v : Nat) : (cellWrite s i v).clock = s.clock := rfl
@[simp] theorem cellWrite_mem (s : State) (i v : Nat) : (cellWrite s i v).mem = s.mem := rfl
@[simp] theorem cellWrite_own (s : State) (i v : Nat) : (cellWrite s i v).own = s.own := rfl
@[simp] theorem cellWrite_sq (s : State) (i v : Nat) : (cellWrite s i v).sq = s.sq := rfl
@[simp] theorem cellWrite_eng (s : State) (i v : Nat) : (cellWrite s i v).eng = s.eng := rfl
@[simp] theorem cellWrite_port (s : State) (i v : Nat) : (cellWrite s i v).port = s.port := rfl
@[simp] theorem cellWrite_hl (s : State) (i v : Nat) : (cellWrite s i v).hl = s.hl := rfl
@[simp] theorem cellWrite_serv (s : State) (i v : Nat) : (cellWrite s i v).serv = s.serv := rfl
@[simp] theorem cellWrite_pw (s : State) (i v : Nat) : (cellWrite s i v).pw = s.pw := rfl
@[simp] theorem cellWrite_sec (s : State) (i v : Nat) : (cellWrite s i v).sec = s.sec := rfl
@[simp] theorem cellWrite_arr (s : State) (i v : Nat) : (cellWrite s i v).arr = s.arr := rfl
@[simp] theorem cellWrite_fl (s : State) (i v : Nat) : (cellWrite s i v).fl = s.fl := rfl
@[simp] theorem cellWrite_free (s : State) (i v : Nat) : (cellWrite s i v).free = s.free := rfl
@[simp] theorem cellWrite_pending (s : State) (i v : Nat) : (cellWrite s i v).pending = s.pending := rfl
@[simp] theorem cellWrite_nuc_slots (s : State) (i v : Nat) : (cellWrite s i v).nuc.slots = s.nuc.slots := rfl
@[simp] theorem cellWrite_nuc_qps (s : State) (i v : Nat) : (cellWrite s i v).nuc.qps = s.nuc.qps := rfl
@[simp] theorem cellWrite_nuc_ctl (s : State) (i v : Nat) : (cellWrite s i v).nuc.ctl = s.nuc.ctl := rfl
@[simp] theorem cellWrite_nuc_sideband (s : State) (i v : Nat) : (cellWrite s i v).nuc.sideband = s.nuc.sideband := rfl
@[simp] theorem cellWrite_nuc_subs (s : State) (i v : Nat) : (cellWrite s i v).nuc.subs = s.nuc.subs := rfl
@[simp] theorem cellWrite_nuc_eseq (s : State) (i v : Nat) : (cellWrite s i v).nuc.eseq = s.nuc.eseq := rfl
@[simp] theorem cellWrite_nuc_sbEvents (s : State) (i v : Nat) : (cellWrite s i v).nuc.sbEvents = s.nuc.sbEvents := rfl
@[simp] theorem cellWrite_nuc_evLost (s : State) (i v : Nat) : (cellWrite s i v).nuc.evLost = s.nuc.evLost := rfl
@[simp] theorem cellWrite_nuc_sessions (s : State) (i v : Nat) : (cellWrite s i v).nuc.sessions = s.nuc.sessions := rfl
@[simp] theorem cellWrite_nuc_arrivals (s : State) (i v : Nat) : (cellWrite s i v).nuc.arrivals = s.nuc.arrivals := rfl

/-! ## mapReq -/

@[simp] theorem mapReq_clock (s : State) (r : Req) (f : Rq → Rq) : (mapReq s r f).clock = s.clock := rfl
@[simp] theorem mapReq_mem (s : State) (r : Req) (f : Rq → Rq) : (mapReq s r f).mem = s.mem := rfl
@[simp] theorem mapReq_nuc (s : State) (r : Req) (f : Rq → Rq) : (mapReq s r f).nuc = s.nuc := rfl
@[simp] theorem mapReq_own (s : State) (r : Req) (f : Rq → Rq) : (mapReq s r f).own = s.own := rfl
@[simp] theorem mapReq_sq (s : State) (r : Req) (f : Rq → Rq) : (mapReq s r f).sq = s.sq := rfl
@[simp] theorem mapReq_port (s : State) (r : Req) (f : Rq → Rq) : (mapReq s r f).port = s.port := rfl
@[simp] theorem mapReq_hl (s : State) (r : Req) (f : Rq → Rq) : (mapReq s r f).hl = s.hl := rfl
@[simp] theorem mapReq_serv (s : State) (r : Req) (f : Rq → Rq) : (mapReq s r f).serv = s.serv := rfl
@[simp] theorem mapReq_pw (s : State) (r : Req) (f : Rq → Rq) : (mapReq s r f).pw = s.pw := rfl
@[simp] theorem mapReq_sec (s : State) (r : Req) (f : Rq → Rq) : (mapReq s r f).sec = s.sec := rfl
@[simp] theorem mapReq_arr (s : State) (r : Req) (f : Rq → Rq) : (mapReq s r f).arr = s.arr := rfl
@[simp] theorem mapReq_fl (s : State) (r : Req) (f : Rq → Rq) : (mapReq s r f).fl = s.fl := rfl
@[simp] theorem mapReq_free (s : State) (r : Req) (f : Rq → Rq) : (mapReq s r f).free = s.free := rfl
@[simp] theorem mapReq_pending (s : State) (r : Req) (f : Rq → Rq) : (mapReq s r f).pending = s.pending := rfl
@[simp] theorem mapReq_eng_walks (s : State) (r : Req) (f : Rq → Rq) : (mapReq s r f).eng.walks = s.eng.walks := rfl
@[simp] theorem mapReq_eng_waits (s : State) (r : Req) (f : Rq → Rq) : (mapReq s r f).eng.waits = s.eng.waits := rfl
@[simp] theorem mapReq_eng_order (s : State) (r : Req) (f : Rq → Rq) : (mapReq s r f).eng.order = s.eng.order := rfl

/-! ## dropReq -/

@[simp] theorem dropReq_clock (s : State) (r : Req) : (dropReq s r).clock = s.clock := rfl
@[simp] theorem dropReq_mem (s : State) (r : Req) : (dropReq s r).mem = s.mem := rfl
@[simp] theorem dropReq_nuc (s : State) (r : Req) : (dropReq s r).nuc = s.nuc := rfl
@[simp] theorem dropReq_own (s : State) (r : Req) : (dropReq s r).own = s.own := rfl
@[simp] theorem dropReq_sq (s : State) (r : Req) : (dropReq s r).sq = s.sq := rfl
@[simp] theorem dropReq_port (s : State) (r : Req) : (dropReq s r).port = s.port := rfl
@[simp] theorem dropReq_hl (s : State) (r : Req) : (dropReq s r).hl = s.hl := rfl
@[simp] theorem dropReq_serv (s : State) (r : Req) : (dropReq s r).serv = s.serv := rfl
@[simp] theorem dropReq_pw (s : State) (r : Req) : (dropReq s r).pw = s.pw := rfl
@[simp] theorem dropReq_sec (s : State) (r : Req) : (dropReq s r).sec = s.sec := rfl
@[simp] theorem dropReq_arr (s : State) (r : Req) : (dropReq s r).arr = s.arr := rfl
@[simp] theorem dropReq_fl (s : State) (r : Req) : (dropReq s r).fl = s.fl := rfl
@[simp] theorem dropReq_free (s : State) (r : Req) : (dropReq s r).free = s.free := rfl
@[simp] theorem dropReq_pending (s : State) (r : Req) : (dropReq s r).pending = s.pending := rfl
@[simp] theorem dropReq_eng_order (s : State) (r : Req) : (dropReq s r).eng.order = s.eng.order := rfl

/-! ## mapSeq -/

@[simp] theorem mapSeq_clock (s : State) (a : Nat) (f : Seq → Seq) : (mapSeq s a f).clock = s.clock := rfl
@[simp] theorem mapSeq_mem (s : State) (a : Nat) (f : Seq → Seq) : (mapSeq s a f).mem = s.mem := rfl
@[simp] theorem mapSeq_nuc (s : State) (a : Nat) (f : Seq → Seq) : (mapSeq s a f).nuc = s.nuc := rfl
@[simp] theorem mapSeq_own (s : State) (a : Nat) (f : Seq → Seq) : (mapSeq s a f).own = s.own := rfl
@[simp] theorem mapSeq_eng (s : State) (a : Nat) (f : Seq → Seq) : (mapSeq s a f).eng = s.eng := rfl
@[simp] theorem mapSeq_port (s : State) (a : Nat) (f : Seq → Seq) : (mapSeq s a f).port = s.port := rfl
@[simp] theorem mapSeq_hl (s : State) (a : Nat) (f : Seq → Seq) : (mapSeq s a f).hl = s.hl := rfl
@[simp] theorem mapSeq_serv (s : State) (a : Nat) (f : Seq → Seq) : (mapSeq s a f).serv = s.serv := rfl
@[simp] theorem mapSeq_pw (s : State) (a : Nat) (f : Seq → Seq) : (mapSeq s a f).pw = s.pw := rfl
@[simp] theorem mapSeq_sec (s : State) (a : Nat) (f : Seq → Seq) : (mapSeq s a f).sec = s.sec := rfl
@[simp] theorem mapSeq_arr (s : State) (a : Nat) (f : Seq → Seq) : (mapSeq s a f).arr = s.arr := rfl
@[simp] theorem mapSeq_fl (s : State) (a : Nat) (f : Seq → Seq) : (mapSeq s a f).fl = s.fl := rfl
@[simp] theorem mapSeq_free (s : State) (a : Nat) (f : Seq → Seq) : (mapSeq s a f).free = s.free := rfl
@[simp] theorem mapSeq_pending (s : State) (a : Nat) (f : Seq → Seq) : (mapSeq s a f).pending = s.pending := rfl
@[simp] theorem mapSeq_sq_spans (s : State) (a : Nat) (f : Seq → Seq) : (mapSeq s a f).sq.spans = s.sq.spans := rfl
@[simp] theorem mapSeq_sq_gen (s : State) (a : Nat) (f : Seq → Seq) : (mapSeq s a f).sq.gen = s.sq.gen := rfl
@[simp] theorem mapSeq_sq_roots (s : State) (a : Nat) (f : Seq → Seq) : (mapSeq s a f).sq.roots = s.sq.roots := rfl
@[simp] theorem mapSeq_sq_old (s : State) (a : Nat) (f : Seq → Seq) : (mapSeq s a f).sq.old = s.sq.old := rfl
@[simp] theorem mapSeq_sq_turn (s : State) (a : Nat) (f : Seq → Seq) : (mapSeq s a f).sq.turn = s.sq.turn := rfl
@[simp] theorem mapSeq_sq_nodes (s : State) (a : Nat) (f : Seq → Seq) : (mapSeq s a f).sq.nodes = s.sq.nodes := rfl
@[simp] theorem mapSeq_sq_slots (s : State) (a : Nat) (f : Seq → Seq) : (mapSeq s a f).sq.slots = s.sq.slots := rfl
@[simp] theorem mapSeq_sq_colls (s : State) (a : Nat) (f : Seq → Seq) : (mapSeq s a f).sq.colls = s.sq.colls := rfl
@[simp] theorem mapSeq_sq_objs (s : State) (a : Nat) (f : Seq → Seq) : (mapSeq s a f).sq.objs = s.sq.objs := rfl

/-! ## setSpan -/

@[simp] theorem setSpan_clock (s : State) (x : Span) : (setSpan s x).clock = s.clock := rfl
@[simp] theorem setSpan_mem (s : State) (x : Span) : (setSpan s x).mem = s.mem := rfl
@[simp] theorem setSpan_nuc (s : State) (x : Span) : (setSpan s x).nuc = s.nuc := rfl
@[simp] theorem setSpan_own (s : State) (x : Span) : (setSpan s x).own = s.own := rfl
@[simp] theorem setSpan_eng (s : State) (x : Span) : (setSpan s x).eng = s.eng := rfl
@[simp] theorem setSpan_port (s : State) (x : Span) : (setSpan s x).port = s.port := rfl
@[simp] theorem setSpan_hl (s : State) (x : Span) : (setSpan s x).hl = s.hl := rfl
@[simp] theorem setSpan_serv (s : State) (x : Span) : (setSpan s x).serv = s.serv := rfl
@[simp] theorem setSpan_pw (s : State) (x : Span) : (setSpan s x).pw = s.pw := rfl
@[simp] theorem setSpan_sec (s : State) (x : Span) : (setSpan s x).sec = s.sec := rfl
@[simp] theorem setSpan_arr (s : State) (x : Span) : (setSpan s x).arr = s.arr := rfl
@[simp] theorem setSpan_fl (s : State) (x : Span) : (setSpan s x).fl = s.fl := rfl
@[simp] theorem setSpan_free (s : State) (x : Span) : (setSpan s x).free = s.free := rfl
@[simp] theorem setSpan_pending (s : State) (x : Span) : (setSpan s x).pending = s.pending := rfl
@[simp] theorem setSpan_sq_seqs (s : State) (x : Span) : (setSpan s x).sq.seqs = s.sq.seqs := rfl
@[simp] theorem setSpan_sq_roots (s : State) (x : Span) : (setSpan s x).sq.roots = s.sq.roots := rfl
@[simp] theorem setSpan_sq_old (s : State) (x : Span) : (setSpan s x).sq.old = s.sq.old := rfl
@[simp] theorem setSpan_sq_turn (s : State) (x : Span) : (setSpan s x).sq.turn = s.sq.turn := rfl
@[simp] theorem setSpan_sq_nodes (s : State) (x : Span) : (setSpan s x).sq.nodes = s.sq.nodes := rfl
@[simp] theorem setSpan_sq_slots (s : State) (x : Span) : (setSpan s x).sq.slots = s.sq.slots := rfl
@[simp] theorem setSpan_sq_colls (s : State) (x : Span) : (setSpan s x).sq.colls = s.sq.colls := rfl
@[simp] theorem setSpan_sq_objs (s : State) (x : Span) : (setSpan s x).sq.objs = s.sq.objs := rfl

/-! ## publish -/

@[simp] theorem publish_clock (s : State) (x : Span) : (publish s x).clock = s.clock := rfl
@[simp] theorem publish_mem (s : State) (x : Span) : (publish s x).mem = s.mem := rfl
@[simp] theorem publish_nuc (s : State) (x : Span) : (publish s x).nuc = s.nuc := rfl
@[simp] theorem publish_own (s : State) (x : Span) : (publish s x).own = s.own := rfl
@[simp] theorem publish_eng (s : State) (x : Span) : (publish s x).eng = s.eng := rfl
@[simp] theorem publish_port (s : State) (x : Span) : (publish s x).port = s.port := rfl
@[simp] theorem publish_hl (s : State) (x : Span) : (publish s x).hl = s.hl := rfl
@[simp] theorem publish_serv (s : State) (x : Span) : (publish s x).serv = s.serv := rfl
@[simp] theorem publish_pw (s : State) (x : Span) : (publish s x).pw = s.pw := rfl
@[simp] theorem publish_sec (s : State) (x : Span) : (publish s x).sec = s.sec := rfl
@[simp] theorem publish_arr (s : State) (x : Span) : (publish s x).arr = s.arr := rfl
@[simp] theorem publish_fl (s : State) (x : Span) : (publish s x).fl = s.fl := rfl
@[simp] theorem publish_free (s : State) (x : Span) : (publish s x).free = s.free := rfl
@[simp] theorem publish_pending (s : State) (x : Span) : (publish s x).pending = s.pending := rfl
@[simp] theorem publish_sq_seqs (s : State) (x : Span) : (publish s x).sq.seqs = s.sq.seqs := rfl
@[simp] theorem publish_sq_roots (s : State) (x : Span) : (publish s x).sq.roots = s.sq.roots := rfl
@[simp] theorem publish_sq_old (s : State) (x : Span) : (publish s x).sq.old = s.sq.old := rfl
@[simp] theorem publish_sq_turn (s : State) (x : Span) : (publish s x).sq.turn = s.sq.turn := rfl
@[simp] theorem publish_sq_nodes (s : State) (x : Span) : (publish s x).sq.nodes = s.sq.nodes := rfl
@[simp] theorem publish_sq_slots (s : State) (x : Span) : (publish s x).sq.slots = s.sq.slots := rfl
@[simp] theorem publish_sq_colls (s : State) (x : Span) : (publish s x).sq.colls = s.sq.colls := rfl
@[simp] theorem publish_sq_objs (s : State) (x : Span) : (publish s x).sq.objs = s.sq.objs := rfl

/-! ## setBank -/

@[simp] theorem setBank_clock (s : State) (k : Bank) : (setBank s k).clock = s.clock := rfl
@[simp] theorem setBank_nuc (s : State) (k : Bank) : (setBank s k).nuc = s.nuc := rfl
@[simp] theorem setBank_own (s : State) (k : Bank) : (setBank s k).own = s.own := rfl
@[simp] theorem setBank_sq (s : State) (k : Bank) : (setBank s k).sq = s.sq := rfl
@[simp] theorem setBank_eng (s : State) (k : Bank) : (setBank s k).eng = s.eng := rfl
@[simp] theorem setBank_port (s : State) (k : Bank) : (setBank s k).port = s.port := rfl
@[simp] theorem setBank_hl (s : State) (k : Bank) : (setBank s k).hl = s.hl := rfl
@[simp] theorem setBank_serv (s : State) (k : Bank) : (setBank s k).serv = s.serv := rfl
@[simp] theorem setBank_pw (s : State) (k : Bank) : (setBank s k).pw = s.pw := rfl
@[simp] theorem setBank_sec (s : State) (k : Bank) : (setBank s k).sec = s.sec := rfl
@[simp] theorem setBank_arr (s : State) (k : Bank) : (setBank s k).arr = s.arr := rfl
@[simp] theorem setBank_fl (s : State) (k : Bank) : (setBank s k).fl = s.fl := rfl
@[simp] theorem setBank_free (s : State) (k : Bank) : (setBank s k).free = s.free := rfl
@[simp] theorem setBank_pending (s : State) (k : Bank) : (setBank s k).pending = s.pending := rfl
@[simp] theorem setBank_mem_stks (s : State) (k : Bank) : (setBank s k).mem.stks = s.mem.stks := rfl
@[simp] theorem setBank_mem_t1 (s : State) (k : Bank) : (setBank s k).mem.t1 = s.mem.t1 := rfl
@[simp] theorem setBank_mem_regions (s : State) (k : Bank) : (setBank s k).mem.regions = s.mem.regions := rfl
@[simp] theorem setBank_mem_freed (s : State) (k : Bank) : (setBank s k).mem.freed = s.mem.freed := rfl
@[simp] theorem setBank_mem_ue (s : State) (k : Bank) : (setBank s k).mem.ue = s.mem.ue := rfl
@[simp] theorem setBank_mem_order (s : State) (k : Bank) : (setBank s k).mem.order = s.mem.order := rfl

/-! ## setStack -/

@[simp] theorem setStack_clock (s : State) (k : Stack) : (setStack s k).clock = s.clock := rfl
@[simp] theorem setStack_nuc (s : State) (k : Stack) : (setStack s k).nuc = s.nuc := rfl
@[simp] theorem setStack_own (s : State) (k : Stack) : (setStack s k).own = s.own := rfl
@[simp] theorem setStack_sq (s : State) (k : Stack) : (setStack s k).sq = s.sq := rfl
@[simp] theorem setStack_eng (s : State) (k : Stack) : (setStack s k).eng = s.eng := rfl
@[simp] theorem setStack_port (s : State) (k : Stack) : (setStack s k).port = s.port := rfl
@[simp] theorem setStack_hl (s : State) (k : Stack) : (setStack s k).hl = s.hl := rfl
@[simp] theorem setStack_serv (s : State) (k : Stack) : (setStack s k).serv = s.serv := rfl
@[simp] theorem setStack_pw (s : State) (k : Stack) : (setStack s k).pw = s.pw := rfl
@[simp] theorem setStack_sec (s : State) (k : Stack) : (setStack s k).sec = s.sec := rfl
@[simp] theorem setStack_arr (s : State) (k : Stack) : (setStack s k).arr = s.arr := rfl
@[simp] theorem setStack_fl (s : State) (k : Stack) : (setStack s k).fl = s.fl := rfl
@[simp] theorem setStack_free (s : State) (k : Stack) : (setStack s k).free = s.free := rfl
@[simp] theorem setStack_pending (s : State) (k : Stack) : (setStack s k).pending = s.pending := rfl
@[simp] theorem setStack_mem_banks (s : State) (k : Stack) : (setStack s k).mem.banks = s.mem.banks := rfl
@[simp] theorem setStack_mem_t1 (s : State) (k : Stack) : (setStack s k).mem.t1 = s.mem.t1 := rfl
@[simp] theorem setStack_mem_regions (s : State) (k : Stack) : (setStack s k).mem.regions = s.mem.regions := rfl
@[simp] theorem setStack_mem_freed (s : State) (k : Stack) : (setStack s k).mem.freed = s.mem.freed := rfl
@[simp] theorem setStack_mem_ue (s : State) (k : Stack) : (setStack s k).mem.ue = s.mem.ue := rfl
@[simp] theorem setStack_mem_order (s : State) (k : Stack) : (setStack s k).mem.order = s.mem.order := rfl

/-! ## t1Write -/

@[simp] theorem t1Write_clock (s : State) (b a : Nat) (v : Bytes) : (t1Write s b a v).clock = s.clock := rfl
@[simp] theorem t1Write_nuc (s : State) (b a : Nat) (v : Bytes) : (t1Write s b a v).nuc = s.nuc := rfl
@[simp] theorem t1Write_own (s : State) (b a : Nat) (v : Bytes) : (t1Write s b a v).own = s.own := rfl
@[simp] theorem t1Write_sq (s : State) (b a : Nat) (v : Bytes) : (t1Write s b a v).sq = s.sq := rfl
@[simp] theorem t1Write_eng (s : State) (b a : Nat) (v : Bytes) : (t1Write s b a v).eng = s.eng := rfl
@[simp] theorem t1Write_port (s : State) (b a : Nat) (v : Bytes) : (t1Write s b a v).port = s.port := rfl
@[simp] theorem t1Write_hl (s : State) (b a : Nat) (v : Bytes) : (t1Write s b a v).hl = s.hl := rfl
@[simp] theorem t1Write_serv (s : State) (b a : Nat) (v : Bytes) : (t1Write s b a v).serv = s.serv := rfl
@[simp] theorem t1Write_pw (s : State) (b a : Nat) (v : Bytes) : (t1Write s b a v).pw = s.pw := rfl
@[simp] theorem t1Write_sec (s : State) (b a : Nat) (v : Bytes) : (t1Write s b a v).sec = s.sec := rfl
@[simp] theorem t1Write_arr (s : State) (b a : Nat) (v : Bytes) : (t1Write s b a v).arr = s.arr := rfl
@[simp] theorem t1Write_fl (s : State) (b a : Nat) (v : Bytes) : (t1Write s b a v).fl = s.fl := rfl
@[simp] theorem t1Write_free (s : State) (b a : Nat) (v : Bytes) : (t1Write s b a v).free = s.free := rfl
@[simp] theorem t1Write_pending (s : State) (b a : Nat) (v : Bytes) : (t1Write s b a v).pending = s.pending := rfl
@[simp] theorem t1Write_mem_banks (s : State) (b a : Nat) (v : Bytes) : (t1Write s b a v).mem.banks = s.mem.banks := rfl
@[simp] theorem t1Write_mem_stks (s : State) (b a : Nat) (v : Bytes) : (t1Write s b a v).mem.stks = s.mem.stks := rfl
@[simp] theorem t1Write_mem_regions (s : State) (b a : Nat) (v : Bytes) : (t1Write s b a v).mem.regions = s.mem.regions := rfl
@[simp] theorem t1Write_mem_freed (s : State) (b a : Nat) (v : Bytes) : (t1Write s b a v).mem.freed = s.mem.freed := rfl
@[simp] theorem t1Write_mem_ue (s : State) (b a : Nat) (v : Bytes) : (t1Write s b a v).mem.ue = s.mem.ue := rfl
@[simp] theorem t1Write_mem_order (s : State) (b a : Nat) (v : Bytes) : (t1Write s b a v).mem.order = s.mem.order := rfl

/-! ## mapPart -/

@[simp] theorem mapPart_clock (s : State) (p : Nat) (f : Partition → Partition) : (mapPart s p f).clock = s.clock := rfl
@[simp] theorem mapPart_mem (s : State) (p : Nat) (f : Partition → Partition) : (mapPart s p f).mem = s.mem := rfl
@[simp] theorem mapPart_nuc (s : State) (p : Nat) (f : Partition → Partition) : (mapPart s p f).nuc = s.nuc := rfl
@[simp] theorem mapPart_own (s : State) (p : Nat) (f : Partition → Partition) : (mapPart s p f).own = s.own := rfl
@[simp] theorem mapPart_sq (s : State) (p : Nat) (f : Partition → Partition) : (mapPart s p f).sq = s.sq := rfl
@[simp] theorem mapPart_eng (s : State) (p : Nat) (f : Partition → Partition) : (mapPart s p f).eng = s.eng := rfl
@[simp] theorem mapPart_port (s : State) (p : Nat) (f : Partition → Partition) : (mapPart s p f).port = s.port := rfl
@[simp] theorem mapPart_hl (s : State) (p : Nat) (f : Partition → Partition) : (mapPart s p f).hl = s.hl := rfl
@[simp] theorem mapPart_pw (s : State) (p : Nat) (f : Partition → Partition) : (mapPart s p f).pw = s.pw := rfl
@[simp] theorem mapPart_sec (s : State) (p : Nat) (f : Partition → Partition) : (mapPart s p f).sec = s.sec := rfl
@[simp] theorem mapPart_arr (s : State) (p : Nat) (f : Partition → Partition) : (mapPart s p f).arr = s.arr := rfl
@[simp] theorem mapPart_fl (s : State) (p : Nat) (f : Partition → Partition) : (mapPart s p f).fl = s.fl := rfl
@[simp] theorem mapPart_free (s : State) (p : Nat) (f : Partition → Partition) : (mapPart s p f).free = s.free := rfl
@[simp] theorem mapPart_pending (s : State) (p : Nat) (f : Partition → Partition) : (mapPart s p f).pending = s.pending := rfl

/-! ## logErr -/

@[simp] theorem logErr_clock (s : State) (e : ErrRec) : (logErr s e).clock = s.clock := rfl
@[simp] theorem logErr_mem (s : State) (e : ErrRec) : (logErr s e).mem = s.mem := rfl
@[simp] theorem logErr_nuc (s : State) (e : ErrRec) : (logErr s e).nuc = s.nuc := rfl
@[simp] theorem logErr_own (s : State) (e : ErrRec) : (logErr s e).own = s.own := rfl
@[simp] theorem logErr_sq (s : State) (e : ErrRec) : (logErr s e).sq = s.sq := rfl
@[simp] theorem logErr_eng (s : State) (e : ErrRec) : (logErr s e).eng = s.eng := rfl
@[simp] theorem logErr_port (s : State) (e : ErrRec) : (logErr s e).port = s.port := rfl
@[simp] theorem logErr_serv (s : State) (e : ErrRec) : (logErr s e).serv = s.serv := rfl
@[simp] theorem logErr_pw (s : State) (e : ErrRec) : (logErr s e).pw = s.pw := rfl
@[simp] theorem logErr_sec (s : State) (e : ErrRec) : (logErr s e).sec = s.sec := rfl
@[simp] theorem logErr_arr (s : State) (e : ErrRec) : (logErr s e).arr = s.arr := rfl
@[simp] theorem logErr_areaA (s : State) (e : ErrRec) : (logErr s e).fl.areaA = s.fl.areaA := rfl
@[simp] theorem logErr_areaB (s : State) (e : ErrRec) : (logErr s e).fl.areaB = s.fl.areaB := rfl
@[simp] theorem logErr_free (s : State) (e : ErrRec) : (logErr s e).free = s.free := rfl
@[simp] theorem logErr_pending (s : State) (e : ErrRec) : (logErr s e).pending = s.pending := rfl

/-! ## setQueue -/

@[simp] theorem setQueue_clock (s : State) (i : Nat) (f : Queue → Queue) : (setQueue s i f).clock = s.clock := rfl
@[simp] theorem setQueue_mem (s : State) (i : Nat) (f : Queue → Queue) : (setQueue s i f).mem = s.mem := rfl
@[simp] theorem setQueue_nuc (s : State) (i : Nat) (f : Queue → Queue) : (setQueue s i f).nuc = s.nuc := rfl
@[simp] theorem setQueue_own (s : State) (i : Nat) (f : Queue → Queue) : (setQueue s i f).own = s.own := rfl
@[simp] theorem setQueue_sq (s : State) (i : Nat) (f : Queue → Queue) : (setQueue s i f).sq = s.sq := rfl
@[simp] theorem setQueue_eng (s : State) (i : Nat) (f : Queue → Queue) : (setQueue s i f).eng = s.eng := rfl
@[simp] theorem setQueue_hl (s : State) (i : Nat) (f : Queue → Queue) : (setQueue s i f).hl = s.hl := rfl
@[simp] theorem setQueue_serv (s : State) (i : Nat) (f : Queue → Queue) : (setQueue s i f).serv = s.serv := rfl
@[simp] theorem setQueue_pw (s : State) (i : Nat) (f : Queue → Queue) : (setQueue s i f).pw = s.pw := rfl
@[simp] theorem setQueue_sec (s : State) (i : Nat) (f : Queue → Queue) : (setQueue s i f).sec = s.sec := rfl
@[simp] theorem setQueue_arr (s : State) (i : Nat) (f : Queue → Queue) : (setQueue s i f).arr = s.arr := rfl
@[simp] theorem setQueue_fl (s : State) (i : Nat) (f : Queue → Queue) : (setQueue s i f).fl = s.fl := rfl
@[simp] theorem setQueue_free (s : State) (i : Nat) (f : Queue → Queue) : (setQueue s i f).free = s.free := rfl
@[simp] theorem setQueue_pending (s : State) (i : Nat) (f : Queue → Queue) : (setQueue s i f).pending = s.pending := rfl
@[simp] theorem setQueue_port_cfg (s : State) (i : Nat) (f : Queue → Queue) : (setQueue s i f).port.cfg = s.port.cfg := rfl
@[simp] theorem setQueue_port_link (s : State) (i : Nat) (f : Queue → Queue) : (setQueue s i f).port.link = s.port.link := rfl
@[simp] theorem setQueue_port_policers (s : State) (i : Nat) (f : Queue → Queue) : (setQueue s i f).port.policers = s.port.policers := rfl
@[simp] theorem setQueue_port_neighbors (s : State) (i : Nat) (f : Queue → Queue) : (setQueue s i f).port.neighbors = s.port.neighbors := rfl

/-! ## What an update of one entry of a list does -/

/-- An entry that `p` does not name stays; one it names becomes `f` of itself. -/
theorem mem_mapIf {α : Type} (p : α → Bool) (f : α → α) (xs : List α) (y : α) :
    y ∈ mapIf p f xs ↔ ∃ x ∈ xs, y = if p x then f x else x := by
  simp only [mapIf, List.mem_map]
  constructor <;> rintro ⟨x, hx, h⟩ <;> exact ⟨x, hx, h.symm⟩

/-- Two updates that agree on the named entries of a list are one. -/
theorem mapIf_congr {α : Type} (p : α → Bool) (f g : α → α) (xs : List α) (h : ∀ x ∈ xs, p x = true → f x = g x) :
    mapIf p f xs = mapIf p g xs := by
  unfold mapIf
  apply List.map_congr_left
  intro x hx
  by_cases hp : p x = true
  · simp [hp, h x hx hp]
  · simp [hp]

@[simp] theorem mapIf_length {α : Type} (p : α → Bool) (f : α → α) (xs : List α) : (mapIf p f xs).length = xs.length := by
  simp [mapIf]

/-! ## The cut on the queue -/

/-- A step never looks at the queue but for its front. -/
theorem step_front (c : Instr) (rest : List Instr) (s : State) (h : s.pending = c :: rest) :
    step s = exec c { s with pending := rest } := by
  simp [step, h]

end Sys2Proof.Machine
end

