-- ==== Sys2Proof/Tests/Slice0.lean ====
section
/-! SUPPORT. Witnesses of the statements' hypotheses, terms that each well-formedness check refuses, and small tests. -/

section

open Sys2Proof Sys2Proof.Machine
set_option Elab.async false

/-! ## States -/

/-- A node that has restored and runs. -/
def node : State := { State.reset with pw := { State.reset.pw with boot := .running, restored := true, node := 7 } }

/-- A command that a mailbox has armed, with its body. -/
def armedCmd (code : Nat) (body : Bytes) : MailCmd :=
  { code := code, copy := code, mseq := 0, rsvd := false, len := body.length, noticeAddr := 0, noticeRkey := 0, noticeQp := 0, body := body }

/-- QP 1 connected, with a session, and a command armed in its session mailbox. -/
def sessionNode (role : Option Role) (code : Nat) (body : Bytes) : State :=
  let mbox : Mailbox := { last := 0, run := some (armedCmd code body) }
  let q : Qp := { num := 1, state := .connected, session := role.map fun r => ⟨r, 10 ^ 12, 9⟩, mbox := mbox }
  { node with nuc := { node.nuc with qps := [q] }, port := { node.port with link := true } }

/-- The same with the tenant 3 that the session is of, under a locked clock and with an erased save area. -/
def tenantNode (code : Nat) (body : Bytes) : State :=
  let s := sessionNode (some (.tenant 3)) code body
  { s with own := { s.own with tenants := [{ id := 3, leaseMax := 1, slotMax := 1, t1Frames := 65536 }] },
           clock := { s.clock with ptp := .locked }, fl := { s.fl with areaA := { erased := true } } }

/-- A command armed in the sideband mailbox. -/
def controlNode (code : Nat) (body : Bytes) : State :=
  { node with nuc := { node.nuc with sideband := { last := 0, run := some (armedCmd code body) } } }

def onQp : Cmd := ⟨.session 1, 0⟩
def onSb : Cmd := ⟨.sideband, 0⟩

/-- A command that stands armed in a state passes the checks every command has. -/
abbrev Takes (c : Cmd) (code : Nat) (k : MailKind) (need : Bytes → Nat) (s : State) (b : Bytes) : Prop :=
  Accepted code k need c s s (armedCmd code b)

/-- A signature by a role key of the owner record in force verifies. -/
theorem signed_ok {s : State} {r : Bytes} (h : s.sec.record = some r) (off : Nat) (m : Bytes) :
    ownerVerified s off m (some ⟨cut r off 1312, m⟩) = true := by simp [ownerVerified, ownerKey, verified, h]

theorem vendor_ok (k m : Bytes) : verified k m (some ⟨k, m⟩) = true := by simp [verified]

/-! ## Session commands -/

/-- OPEN_SESSION of the owner role: no role, kind 0, NOT_AFTER 1, the nonce. -/
def openOwner (nonce : Bytes) : Bytes := zeros 8 ++ u64 1 ++ nonce ++ zeros sigLen
def openTenant : Bytes := u8 1 ++ u8 3 ++ u8 1 ++ zeros 5 ++ u64 1 ++ zeros (32 + sigLen)

def withRecord (s : State) : State := { s with sec := { s.sec with record := some (zeros 0x14A0) } }
def withNonce (s : State) (n : Bytes) (e : Nat) : State :=
  let f := fun (q : Qp) => { q with nonce := some (n, e) }
  { s with nuc := { s.nuc with qps := s.nuc.qps.map f } }

def nonceNode : State := withNonce (withRecord (sessionNode none 2 (openOwner (List.replicate 32 5)))) (List.replicate 32 5) 1

theorem witness_NoncesServeOneSession :
    Takes onQp 0x0001 .open (fun _ => 0) (sessionNode none 1 []) [] ∧
    (let b := openOwner (List.replicate 32 5)
     Takes onQp 0x0002 .open (fun _ => 0x30 + sigLen) nonceNode b ∧ boxRole nonceNode onQp.box = none ∧
     qpOf nonceNode (callerQp nonceNode onQp) = nonceNode.nuc.qps.head? ∧ zeroAt b 0 8 = true ∧
     (nonceNode.nuc.qps.head?).bind Qp.nonce = some (cut b 0x10 32, 1) ∧ nonceNode.now < 1 ∧ nonceNode.now < fld b 8 8 ∧
     ∃ sig, ownerVerified nonceNode sessionKeyOff (credential 0 nonceNode.pw.node 0 0 (fld b 8 8) (cut b 0x10 32)) sig = true) ∧
    (let b := openOwner (List.replicate 32 5)
     let s := withNonce (sessionNode none 2 b) (List.replicate 32 5) 0
     Takes onQp 0x0002 .open (fun _ => 0x30 + sigLen) s b ∧ fld b 0 1 ≤ 1 ∧ fld b 1 1 = 0 ∧ fld b 2 1 = 0 ∧ zeroAt b 3 5 = true ∧
     ∀ q e, qpOf s (callerQp s onQp) = some q → q.nonce = some (cut b 0x10 32, e) → e ≤ s.now) := by
  refine ⟨⟨⟨rfl, by decide⟩, rfl, by decide⟩, ⟨⟨⟨rfl, by decide⟩, rfl, by decide +kernel⟩, by decide, rfl, by decide +kernel, by decide +kernel, by decide, by decide +kernel, _,
    signed_ok rfl _ _⟩, ⟨⟨rfl, by decide⟩, rfl, by decide +kernel⟩, by decide +kernel, by decide +kernel, by decide +kernel, by decide +kernel, ?_⟩
  intro q e hq hn
  cases hq
  cases hn
  decide

theorem witness_SessionsOpenAndClose :
    (let s : State := { withRecord (sessionNode none 2 openTenant) with own := { node.own with tenants := [{ id := 3 }] } }
     let b := openTenant
     Takes onQp 0x0002 .open (fun _ => 0x30 + sigLen) s b ∧ boxRole s onQp.box = none ∧ fld b 0 1 = 1 ∧ fld b 2 1 = 1 ∧
     zeroAt b 3 5 = true ∧ zeroAt b 0x10 32 = true ∧ tenantOf s (fld b 1 1) = some { id := 3 } ∧ s.now < fld b 8 8 ∧
     ∃ sig, ownerVerified s sessionKeyOff (credential 1 s.pw.node 1 (fld b 1 1) (fld b 8 8) (cut b 0x10 32)) sig = true) ∧
    Takes onQp 0x0003 .any (fun _ => 0) (sessionNode (some .owner) 3 []) [] ∧
    (∃ q x, qpOf (sessionNode (some .owner) 3 []) 1 = some q ∧ q.session = some x) :=
  ⟨⟨⟨⟨rfl, by decide⟩, rfl, by decide +kernel⟩, rfl, by decide +kernel, by decide +kernel, by decide +kernel, by decide +kernel, by decide +kernel,
    by decide +kernel, _, signed_ok rfl _ _⟩, ⟨⟨rfl, by decide⟩, rfl, by decide⟩, _, _, rfl, rfl⟩

def boxed (s : State) : State := { s with nuc := { s.nuc with ctl := [{ id := 63, qp := some 1 }] } }

theorem witness_MailboxesAttachAndPeersConnect :
    (let s := sessionNode (some .owner) 4 []
     Takes onQp 0x0004 .owner (fun _ => 0) s [] ∧ (s.nuc.ctl.any fun k => k.qp == some (callerQp s onQp)) = false ∧
     ∃ m t, pickOf s ((List.range 64).filter fun m => (ctlOf s m).qp.isNone && (ctlOf s m).box.run.isNone) = some (m, t)) ∧
    (let s := boxed (sessionNode (some .owner) 5 [])
     Takes onQp 0x0005 .owner (fun _ => 0) s [] ∧ (s.nuc.ctl.any fun k => k.qp == some (callerQp s onQp)) = true) ∧
    (let b := zeros (0x20 + sigLen)
     let s := tenantNode 6 b
     Takes onQp 0x0006 .tenant (fun _ => 0x20 + sigLen) s b ∧ zeroAt b 2 6 = true ∧
     ∃ n t, openQp s (.peer (callerTenant s onQp) (fld b 8 8) onQp.box) (fld b 0x10 16) (fld b 0 2) (cut b 0x20 sigLen) = some (n, t)) :=
  ⟨⟨⟨⟨rfl, by decide⟩, rfl, by decide⟩, by decide, _, _, rfl⟩, ⟨⟨⟨rfl, by decide⟩, rfl, by decide⟩, by decide⟩,
   ⟨⟨rfl, by decide⟩, rfl, by decide +kernel⟩, by decide +kernel, _, _, rfl⟩

def lease5 : Lease := { id := 5, gen := 1, tenant := 3, state := .active, expiry := 10 ^ 9, fenceAt := 10 ^ 9, granted := 0, offset := 0,
                        ms := 1000, slotFirst := 16, slots := 4, cellFirst := 64, cells := 64, stageMib := 2, rkey := 77 }
def h9 : Nat := 3 * 2 ^ 56 + 9
def seq9 : Seq := { handle := h9, tenant := 3, als := 2, layers := 1, kvh := 1, dim := 1, fmt := 0, posOff := 0, seed := 0,
                    rope := 0xFFFFFFFF, ctables := [0xFFFF] }
def withLease (s : State) : State := { s with own := { s.own with leases := [lease5] } }
def withSeq (s : State) : State := { s with sq := { s.sq with seqs := [seq9] } }

theorem witness_QueriesAnswerFromState :
    (let b := u16 16 ++ u16 4
     let s := withLease (tenantNode 7 b)
     Takes onQp 0x0007 .tenant (fun _ => 4) s b ∧ 1 ≤ fld b 2 2 ∧ fld b 2 2 ≤ 1000 ∧
     (((List.range (fld b 2 2)).map (fld b 0 2 + ·)).all fun i => match slotLease s i with
        | some l => l.tenant == callerTenant s onQp && l.service.isNone | none => false) = true) ∧
    (let s := tenantNode 8 []
     Takes onQp 0x0008 .tenant (fun _ => 0) s [] ∧ (tenantOf s (callerTenant s onQp)).isSome = true) ∧
    (let b := u64 h9 ++ zeros 4 ++ u16 126 ++ zeros 2
     let s := withSeq (tenantNode 0x112 b)
     Takes onQp 0x0112 .tenant (fun _ => 16) s b ∧ 1 ≤ fld b 0xC 2 ∧ fld b 0xC 2 ≤ 126 ∧ zeroAt b 0xE 2 = true ∧
     tenantSeq s (callerTenant s onQp) (fld b 0 8) = some seq9) ∧
    Takes onQp 0x0115 .tenant (fun _ => 8) (withSeq (tenantNode 0x115 (u64 0))) (u64 0) ∧
    Takes onSb 0x0270 .control (fun _ => 8) (controlNode 0x270 (u64 0)) (u64 0) ∧
    Takes onSb 0x0271 .control (fun _ => 0) (controlNode 0x271 []) [] :=
  ⟨⟨⟨⟨rfl, by decide⟩, rfl, by decide⟩, by decide⟩, ⟨⟨⟨rfl, by decide⟩, rfl, by decide⟩, by decide⟩,
   ⟨⟨⟨rfl, by decide⟩, rfl, by decide⟩, by decide⟩, ⟨⟨rfl, by decide⟩, rfl, by decide⟩, ⟨⟨rfl, by decide⟩, rfl, by decide⟩, ⟨⟨rfl, by decide⟩, rfl, by decide⟩⟩

/-- LEASE_GRANT of the shortest term, one slot, 64 cells and the least staging. -/
def grantBody : Bytes := u32 100 ++ u32 1 ++ u32 64 ++ u32 2

theorem witness_LeasesGrantRenewRelease :
    (let b := grantBody
     let s := tenantNode 0x100 b
     Takes onQp 0x0100 .tenant (fun _ => 16) s b ∧ inRange (fld b 0 4) 100 60000 = true ∧ inRange (fld b 4 4) 1 16384 = true ∧
     fld b 8 4 ≤ 16384 ∧ fld b 8 4 % 64 = 0 ∧ fld b 12 4 ≤ 16384 ∧ fld b 12 4 % 2 = 0 ∧ clockOk s = true ∧ noSaveArea s = false ∧
     (allotLease s (callerTenant s onQp) (fld b 0 4) (fld b 4 4) (fld b 8 4) (fld b 12 4) none).isSome = true) ∧
    (let b := u16 5 ++ u16 1 ++ zeros 4
     let s := withLease (tenantNode 0x101 b)
     Takes onQp 0x0101 .tenant (fun _ => 8) s b ∧ zeroAt b 4 4 = true ∧ settleLease s (fld b 0 2) = s ∧
     tenantLease s (callerTenant s onQp) (fld b 0 2) = some lease5 ∧ lease5.gen = fld b 2 2 ∧ clockOk s = true) ∧
    (let s := withLease (tenantNode 0x102 (u16 5))
     Takes onQp 0x0102 .tenant (fun _ => 2) s (u16 5) ∧ tenantLease (settleLease s 5) (callerTenant s onQp) 5 = some lease5) :=
  ⟨⟨⟨⟨rfl, by decide⟩, rfl, by decide⟩, by decide +kernel⟩,
   ⟨⟨⟨rfl, by decide⟩, rfl, by decide⟩, by decide, rfl, by decide⟩, ⟨⟨rfl, by decide⟩, rfl, by decide⟩, by decide⟩

theorem witness_GrantedLeaseTerms : ∃ l t, allotLease (tenantNode 0x100 grantBody) 3 60000 1 0 0 none = some (l, t) := ⟨_, _, rfl⟩

/-- SEQ_CREATE of handle 9 of tenant 3: one layer, one KV head, dim 1, no rotary or coding table. -/
def createBody (fmt : Nat) : Bytes :=
  u32 9 ++ u8 0 ++ u8 0 ++ u8 0 ++ u8 3 ++ u16 1 ++ u8 1 ++ u8 (1 + 4 * fmt) ++ zeros 12 ++ u32 0xFFFFFFFF ++ zeros 36 ++ u16 0xFFFF

theorem witness_SeqCreate : ∀ fmt ≤ 2,
    let b := createBody fmt
    let s := tenantNode 0x110 b
    Takes onQp 0x0110 .tenant scNeed s b ∧
    (let q := seqOfBody b (callerTenant s onQp) 0 (tenantOf s (callerTenant s onQp))
     fld b 7 1 = callerTenant s onQp ∧ inRange q.layers 1 256 = true ∧ bfld b 8 2 15 9 = 0 ∧ inRange q.kvh 1 64 = true ∧
     bfld b 0xA 1 7 7 = 0 ∧ q.dim ≤ 2 ∧ q.fmt ≤ 2 ∧ bfld b 0xB 1 7 4 = 0 ∧ zeroAt b 0x20 32 = true ∧
     tenantSeq s (callerTenant s onQp) q.handle = none ∧
     ((tenantOf s (callerTenant s onQp)).map Tenant.floor).getD 0 ≤ fld b 0x1C 4 ∧ q.rope = 0xFFFFFFFF ∧
     s.sq.objs = [] ∧ (∀ k ∈ q.ctables, k = 0xFFFF)) ∧ ∃ a t, freeAlias s = some (a, t) := by
  intro fmt h
  match fmt, h with
  | 0, _ => exact ⟨⟨⟨rfl, by decide⟩, rfl, by decide⟩, by decide, _, _, rfl⟩
  | 1, _ => exact ⟨⟨⟨rfl, by decide⟩, rfl, by decide⟩, by decide, _, _, rfl⟩
  | 2, _ => exact ⟨⟨⟨rfl, by decide⟩, rfl, by decide⟩, by decide, _, _, rfl⟩

/-- COLL_CREATE with the least dimension and width, fan-out 16. -/
def collBody : Bytes := u16 32 ++ u8 5 ++ u8 2 ++ u8 16 ++ u8 1 ++ zeros 2 ++ u64 0
def coll7 : Coll := { id := 7, tenant := 3, dim := 32, fmt := 1, width := 256, fanout := 16, metric := 0, seed := 0 }

theorem witness_SequencesAndCollections :
    (let s := withSeq (tenantNode 0x111 (u64 h9))
     Takes onQp 0x0111 .tenant (fun _ => 8) s (u64 h9) ∧ tenantSeq s (callerTenant s onQp) (fld (u64 h9) 0 8) = some seq9 ∧ seq9.writer = none) ∧
    (let s := withSeq (tenantNode 0x113 (u64 h9))
     Takes onQp 0x0113 .tenant (fun _ => 8) s (u64 h9) ∧ tenantSeq s (callerTenant s onQp) (fld (u64 h9) 0 8) = some seq9) ∧
    (let s := withSeq (tenantNode 0x114 (u64 h9))
     Takes onQp 0x0114 .tenant (fun _ => 8) s (u64 h9) ∧ tenantSeq s (callerTenant s onQp) (fld (u64 h9) 0 8) = some seq9 ∧
     installAll seq9.len [] (sortBy (fun (a b : Span) => decide (spanId a.als a.layer a.head a.idx < spanId b.als b.layer b.head b.idx))
       (s.sq.spans.filter fun y => y.als == seq9.als && y.state == .flashOnly)) s = (s, stOK)) ∧
    (let b := collBody
     let s := tenantNode 0x120 b
     Takes onQp 0x0120 .tenant (fun _ => 16) s b ∧ inRange (fld b 0 2) 32 2048 = true ∧ fld b 0 2 % 32 = 0 ∧
     [1, 2, 3, 5].contains (fld b 2 1) = true ∧ fld b 3 1 ≤ 2 ∧ [16, 32, 64].contains (fld b 4 1) = true ∧ fld b 5 1 ≤ 1 ∧
     zeroAt b 6 2 = true ∧ ∃ i t, pickRun s 0 4096 1 (s.sq.colls.map fun c => (c.id, 1)) = some (i, t)) ∧
    (let s0 := tenantNode 0x121 (u16 7)
     let s := { s0 with sq := { s0.sq with colls := [coll7] } }
     Takes onQp 0x0121 .tenant (fun _ => 2) s (u16 7) ∧ collOf s (callerTenant s onQp) (fld (u16 7) 0 2) = some coll7) :=
  ⟨⟨⟨⟨rfl, by decide⟩, rfl, by decide⟩, by decide, rfl⟩, ⟨⟨⟨rfl, by decide⟩, rfl, by decide⟩, by decide⟩, ⟨⟨⟨rfl, by decide⟩, rfl, by decide⟩, by decide, rfl⟩,
   ⟨⟨⟨rfl, by decide⟩, rfl, by decide⟩, by decide, by decide, by decide, by decide, by decide, by decide, by decide, _, _, rfl⟩,
   ⟨⟨rfl, by decide⟩, rfl, by decide⟩, by decide⟩

def put9 : FObj := ⟨0, 3, .replica 8 9 [], 0, 9, 1, 0, [], 1, 0, [.unwritten], 0, []⟩
def withPuts (s : State) : State := { s with fl := { s.fl with objs := [put9] } }
def replicaBody : Bytes := u64 9 ++ u16 8 ++ zeros 6
def wholeBody : Bytes := u64 (wholeTenant 3) ++ u16 8 ++ zeros 6
def farTenant : Tenant := { id := 3, domain := 1, replica := 8 }
def replicaQp9 : Qp := { num := 256, state := .connected, use := .replica 3 }
def peer8 : Peer := { qp := 256, tenant := 3, mig := none, node := 8 }

theorem witness_ReplicasAndTheirSessions :
    (let b := replicaBody
     let s := withPuts (tenantNode 0x116 b)
     Takes onQp 0x0116 .tenant (fun _ => 16) s b ∧ zeroAt b 10 6 = true ∧ s.fl.withdrawn.contains (3, fld b 8 2) = false ∧
     replicasOf s (callerTenant s onQp) (fld b 8 2) (fld b 0 8) = [put9] ∧ sourceLive s [put9] = false ∧ seqOf s (fld b 0 8) = none ∧
     ∃ q t, promoteSeq s 3 9 [put9] = some (q, t)) ∧
    (let b := wholeBody
     let s := withPuts (tenantNode 0x117 b)
     Takes onQp 0x0117 .tenant (fun _ => 16) s b ∧ zeroAt b 10 6 = true ∧ fld b 0 8 = wholeTenant (callerTenant s onQp)) ∧
    (let b := replicaBody
     let s := withPuts (tenantNode 0x117 b)
     Takes onQp 0x0117 .tenant (fun _ => 16) s b ∧ fld b 0 8 ≠ wholeTenant (callerTenant s onQp) ∧
     replicasOf s (callerTenant s onQp) (fld b 8 2) (fld b 0 8) = [put9]) ∧
    (let s := { node with own := { node.own with tenants := [farTenant] }, nuc := { node.nuc with qps := [replicaQp9] } }
     serves s = true ∧ tenantOf s 3 = some farTenant ∧ (s.fl.retries.find? fun r => r.tenant == 3) = none ∧
     replicaQp s 3 = some replicaQp9) ∧
    (let w : Retry := ⟨3, 0, 0, [], 8, []⟩
     let s := { node with nuc := { node.nuc with qps := [replicaQp9] }, fl := { node.fl with peers := [peer8], withdraw := [w] } }
     serves s = true ∧ peerFor s 3 none = some peer8 ∧ (s.fl.withdraw.find? fun w => w.tenant == 3) = some w ∧ w.next ≤ s.now ∧
     (s.nuc.qps.find? fun q => q.use == .replica 3 && q.state == .connected) = some replicaQp9 ∧ peer8.lease = none) :=
  ⟨⟨⟨⟨rfl, by decide⟩, rfl, by decide⟩, by decide, by decide, by decide, by decide, by decide, _, _, rfl⟩, ⟨⟨⟨rfl, by decide⟩, rfl, by decide⟩, by decide⟩,
   ⟨⟨⟨rfl, by decide⟩, rfl, by decide⟩, by decide⟩, by decide⟩

/-! ## Loads and services -/

/-- A small NAND, formatted: two log blocks on each LUN. -/
def nand : FlashGeom := { targets := 1, luns := 1, planes := 1, pageMain := 8192, pageSpare := 768, pages := 768, blocks := 6,
                          bytesPerNs10 := 36, bad := [] }
/-- The body of a load of the first `n` staged bytes of lease 5, with REPLACE none and no weight-set fields. -/
def loadBody (n : Nat) (weight : Bytes) : Bytes :=
  u16 5 ++ zeros 2 ++ u32 n ++ zeros 8 ++ u32 0xFFFFFFFF ++ zeros 4 ++ weight ++ zeros (40 - weight.length)
/-- A tenant node with a formatted T2, an owner record, and `v` staged in lease 5. -/
def loadNode (code : Nat) (body v : Bytes) : State :=
  let s := withRecord (tenantNode code body)
  { s with mem := { s.mem with regions := [⟨3, 512, 720, 512, 0, .staging, 5⟩], t1 := memWrite [] (npa 512 720 0) v },
           own := { s.own with leases := [lease5],
                               tenants := [{ id := 3, t1Frames := 65536, t2Units := 4, leaseMax := 2, slotMax := 64, keyTop := 1,
                                              keys := [{ gen := 1, key := zeros 32, ctr := 0, snode := 7 }] }] },
           fl := { s.fl with geom := some nand } }

/-- One layer of a 1 by 16 row set of FP32. -/
def weightFields : Bytes := u8 1 ++ u8 2 ++ u8 0 ++ u8 0 ++ u16 1 ++ zeros 2 ++ u32 1 ++ u32 16
/-- A plan of one layer: one FP32 tensor of width 64 that is scaled in the banks. -/
def plan1 : Bytes :=
  u32 0x504C584B ++ u8 1 ++ u8 0 ++ u8 1 ++ u8 0 ++ u16 0 ++ u16 1 ++ u16 0 ++ u16 1 ++ u16 1 ++ u8 1 ++ zeros 0x6D ++ u16 64 ++ zeros 0x1FE ++
  u8 8 ++ u8 1 ++ u8 2 ++ u8 0 ++ u8 0 ++ u8 0xFF ++ u8 0 ++ u8 0 ++ u16 0xFFFF ++ u16 0xFFFF ++ u32 0x40000000 ++ zeros 16
/-- A coding table with one symbol. -/
def table1 : Bytes := u32 0x54414E53 ++ u8 9 ++ zeros 11 ++ u16 512 ++ zeros 510
/-- An image of four payload bytes, one core, 16 MiB, one slot, 64 ring entries and 2 MiB of staging. -/
def image1 : Bytes :=
  u32 0x43565253 ++ u16 1 ++ u8 1 ++ u8 0 ++ u32 16 ++ u16 1 ++ u16 64 ++ u64 0x80000000 ++ u32 4 ++ u32 2 ++ zeros 96 ++ zeros 4 ++ zeros sigLen


/-- The last clause says that a free id and the frames and T2 units are there; the other loads find theirs in the same way. -/
theorem witness_ObjectsAreLoadedAndUnloaded_WeightLoad :
    let b := loadBody 32 weightFields
    let s := loadNode 0x130 b []
    let o := weightObj (callerTenant s onQp) 0xFFFFFFFF (settleLease s 5).eng.order b (zeros 32)
    LoadTaken 0x0130 true onQp s s (armedCmd 0x130 b) (zeros 32) ∧ inRange (wFmt o) 1 6 = true ∧ wEnc o ≤ 2 ∧ o.store ≤ 4 ∧
    inRange (wLayers o) 1 256 = true ∧ wA o ≠ 0 ∧ wB o ≠ 0 ∧ weightFits o = true ∧ ldReplace b = 0xFFFFFFFF ∧
    ((pickRun (settleLease s (fld b 0 2)) 0 0xFFFF 1 (usedIds s .weight)).bind fun p =>
      keepObj p.2 { o with id := p.1 } b).isSome = true :=
  ⟨⟨⟨⟨rfl, by decide⟩, rfl, by decide +kernel⟩, by decide +kernel⟩, by decide +kernel⟩

theorem witness_ObjectsAreLoadedAndUnloaded_PlanLoad :
    let b := loadBody 672 []
    let s := loadNode 0x131 b plan1
    LoadTaken 0x0131 false onQp s s (armedCmd 0x131 b) plan1 ∧ headerOk plan1 = true ∧ ((planRecords plan1).all fun r => recordOk plan1 r.1) = true ∧
    ((planRecords plan1).any fun r => namesMissing (settleLease s 5) 3 r.1) = false ∧
    ((planRecords plan1).all fun r => weightsOk (settleLease s 5) 3 plan1 r.1 r.2) = true ∧
    ((pickRun (settleLease s 5) 0 256 1 (usedIds s .plan)).bind fun p =>
      keepObj p.2 { kind := .plan, id := p.1, tenant := 3, bytes := plan1, digest := sha3 plan1, store := 2 } b).isSome = true :=
  ⟨⟨⟨⟨rfl, by decide⟩, rfl, by decide +kernel⟩, by decide +kernel⟩, by decide +kernel⟩

theorem witness_ObjectsAreLoadedAndUnloaded_TableLoad :
    let b := loadBody 528 []
    let s := loadNode 0x134 b table1
    LoadTaken 0x0134 false onQp s s (armedCmd 0x134 b) table1 ∧ tableOk table1 = true ∧
    ∃ i t, pickRun (settleLease s (fld b 0 2)) 0 256 1 (usedIds s .table) = some (i, t) :=
  ⟨⟨⟨⟨rfl, by decide⟩, rfl, by decide +kernel⟩, by decide +kernel⟩, by decide +kernel, _, _, rfl⟩

set_option maxRecDepth 20000 in
/-- The frames and T2 units are there as in witness_ObjectsAreLoadedAndUnloaded_TableLoad. -/
theorem witness_ObjectsAreLoadedAndUnloaded_ServiceLoad :
    let b := loadBody 2552 []
    let s := loadNode 0x136 b image1
    LoadTaken 0x0136 false onQp s s (armedCmd 0x136 b) image1 ∧ imageOk image1 = true ∧
    ∃ sig, ownerVerified (settleLease s 5) serviceKeyOff (imageDigest image1) sig = true :=
  ⟨⟨⟨⟨rfl, by decide⟩, rfl, by decide +kernel⟩, by decide +kernel⟩, by decide +kernel, _, signed_ok rfl _ _⟩

def objNode (code : Nat) (o : Obj) : State :=
  let s := loadNode code (u16 o.id) []
  { s with sq := { s.sq with objs := [o] } }
def planObj : Obj := { kind := .plan, id := 4, tenant := 3, bytes := plan1, digest := [] }
def tableObj : Obj := { kind := .table, id := 6, tenant := 3, bytes := table1, digest := [] }
def imageObj : Obj := { kind := .image, id := 8, tenant := 3, bytes := image1, digest := [] }

theorem witness_ObjectsAreLoadedAndUnloaded_Unloads :
    (Takes onQp 0x0132 .tenant (fun _ => 2) (objNode 0x132 planObj) (u16 4) ∧
     (planOf (objNode 0x132 planObj) (callerTenant (objNode 0x132 planObj) onQp) (fld (u16 4) 0 2)).isSome = true) ∧
    (let s := objNode 0x135 tableObj
     Takes onQp 0x0135 .tenant (fun _ => 2) s (u16 6) ∧
     (s.sq.objs.find? fun o => o.kind == .table && o.id == fld (u16 6) 0 2 && o.tenant == callerTenant s onQp && !o.gone).isSome = true ∧
     tableUsed s tableObj = false) :=
  ⟨⟨⟨⟨rfl, by decide⟩, rfl, by decide⟩, by decide +kernel⟩, ⟨⟨rfl, by decide⟩, rfl, by decide⟩, by decide +kernel⟩

/-- Partition 2 of tenant 3 with a timer set, one SCORE waiting for it and one in its ring. -/
def part2 : Partition := { id := 2, tenant := 3, image := 8, cores := [{ num := 0, on := true, timerAt := some 1 }], memMib := 16, nslots := 1, entries := 64, stageMib := 2, lease := 5,
                           restartMax := 1, delivered := 9, ring := [⟨9, 9, .net 17⟩] }
def rq (id : Req) (op : Nat) (phase : Phase) (body : Bytes) : Rq :=
  { id := id, op := op, prio := 0, lease := 5, tenant := 3, seq := 0, via := 1, csync := none, cmplAddr := 0, cmplRkey := 0, cmplQp := 0,
    armTime := 0, order := 0, deadline := 1, body := body, phase := phase }
def scoreBody : Bytes := zeros 12 ++ u8 2 ++ zeros 7 ++ u16 768
def partNode (s : State) : State :=
  { s with serv := { parts := [part2] }, eng := { s.eng with reqs := [rq (.net 16) 0x31 .ring scoreBody, rq (.net 17) 0x31 .running scoreBody] } }

theorem witness_PartitionsAndScores :
    (let s0 := loadNode 0x137 (u32 8) []
     let s := { s0 with sq := { s0.sq with objs := [imageObj] } }
     Takes onQp 0x0137 .tenant (fun _ => 4) s (u32 8) ∧ (imageOf s (callerTenant s onQp) (fld (u32 8) 0 4)).isSome = true ∧
     clockOk s = true ∧ noSaveArea s = false ∧ (startPartition s imageObj none []).isSome = true) ∧
    (let s := partNode (tenantNode 0x138 (u8 2))
     Takes onQp 0x0138 .tenant (fun _ => 1) s (u8 2) ∧ partOf s (fld (u8 2) 0 1) = some part2 ∧ part2.tenant = callerTenant s onQp) ∧
    (let s := partNode node
     serves s = true ∧ guestRun 2 [] s = (s, false) ∧ part2.restarts.length < part2.restartMax ∧
     ∀ x ∈ part2.cores, (part2.cores.find? fun c => c.num == 0) = some x ∧ x.timerAt = some 1) ∧
    (let s0 := loadNode 0 [] []
     let s : State := { s0 with sq := { s0.sq with objs := [imageObj] }, serv := { parts := [part2] } }
     imageOf (haltPartition s part2) 3 8 = some imageObj ∧ (startPartition (haltPartition s part2) imageObj (some 2) [0]).isSome = true) ∧
    (let s := partNode node
     serves s = true ∧ partOf s 2 = some part2 ∧
     (waiting s fun r => r.op == 0x31 && r.phase == .ring && scService r.body == 2) = [rq (.net 16) 0x31 .ring scoreBody] ∧
     (part2.ring.any fun x => x.entry == (part2.delivered + 1) % 2 ^ 32 % part2.entries) = false) ∧
    (let s := partNode node
     let w : W64 := 768#64 <<< 46 ||| 9#64
     (part2.ring.find? fun x => x.entry == 9 && x.delivery == w.toNat % 2 ^ 32) = some ⟨9, 9, .net 17⟩ ∧
     (reqOf (ringWrite s 2 9 0xFF8 (u64 w.toNat)) (.net 17)).isSome = true ∧ bits w.toNat 63 56 = stOK ∧
     bits w.toNat 55 46 ≤ scRes scoreBody) :=
  ⟨⟨⟨⟨rfl, by decide⟩, rfl, by decide⟩, by decide +kernel⟩, ⟨⟨⟨rfl, by decide⟩, rfl, by decide⟩, by decide⟩,
   ⟨rfl, rfl, by decide⟩, by decide +kernel⟩

/-! ## Control commands -/

def powerBody : Bytes := (List.replicate 18 (u16 340)).flatten ++ List.replicate 8 (BitVec.ofNat 8 140) ++ u16 180 ++ zeros 2

theorem witness_NodeSettingsTakeEffect :
    (let s := controlNode 0x200 (u16 9)
     Takes onSb 0x0200 .control (fun _ => 2) s (u16 9) ∧ fld (u16 9) 0 2 ≠ 0 ∧ s.own.leases = []) ∧
    Takes onSb 0x0201 .control (fun _ => 24) (controlNode 0x201 (zeros 24)) (zeros 24) ∧
    (let b := u64 4096 ++ zeros 4 ++ u32 1 ++ u8 16 ++ zeros 7
     let s0 := controlNode 0x201 b
     let s := { s0 with nuc := { s0.nuc with qps := [{ num := 1, state := .connected }] } }
     Takes onSb 0x0201 .control (fun _ => 24) s b ∧ zeroAt b 17 7 = true ∧ fld b 0 8 ≠ 0 ∧ inRange (fld b 16 1) 6 16 = true ∧
     fld b 12 4 = 1 ∧ connected s 1 = true) ∧
    (let b := u32 10080 ++ u8 90 ++ zeros 3
     Takes onSb 0x0272 .control (fun _ => 8) (controlNode 0x272 b) b ∧ inRange (fld b 0 4) 60 10080 = true ∧ fld b 4 1 ≤ 90 ∧
     zeroAt b 5 3 = true) ∧
    (let b := u32 100000 ++ u32 10 ++ zeros 8
     Takes onSb 0x0251 .control (fun _ => 16) (controlNode 0x251 b) b ∧ fld b 0 4 ≤ 100000 ∧
     inRange (fld b 4 4) 10 1000000 = true ∧ zeroAt b 8 8 = true) ∧
    (let b := powerBody
     let st := (List.range 18).map fun i => fld b (2 * i) 2
     let gs := (List.range 8).map fun i => fld b (0x24 + i) 1
     Takes onSb 0x0250 .control (fun _ => 0x30) (controlNode 0x250 b) b ∧ (∀ v ∈ st, inRange v 120 340 = true) ∧
     (∀ v ∈ gs, inRange v 20 140 = true) ∧ inRange (fld b 0x2C 2) 40 200 = true ∧ zeroAt b 0x2E 2 = true ∧ sumBy id st ≤ 6200 ∧
     sumBy id gs * 5 + fld b 0x2C 2 * 10 + 800 ≤ 8200) :=
  ⟨⟨⟨⟨rfl, by decide⟩, rfl, by decide⟩, by decide, rfl⟩, ⟨⟨rfl, by decide⟩, rfl, by decide⟩,
   ⟨⟨⟨rfl, by decide⟩, rfl, by decide⟩, by decide⟩,
   ⟨⟨⟨rfl, by decide⟩, rfl, by decide⟩, by decide⟩, ⟨⟨⟨rfl, by decide⟩, rfl, by decide⟩, by decide⟩,
   ⟨⟨rfl, by decide⟩, rfl, by decide +kernel⟩, by decide +kernel⟩

/-- A control command on a node with tenant 3, which has key generations 1 and 2, and an owner record. -/
def tenant3 : Tenant :=
  { id := 3, keyTop := 2, keys := [{ gen := 1, key := zeros 32, ctr := 0, snode := 7 }, { gen := 2, key := zeros 32, ctr := 0, snode := 7 }] }
def ruledNode (code : Nat) (body : Bytes) (k : Tenant) : State :=
  let s := withRecord (controlNode code body)
  { s with own := { s.own with tenants := [k] } }
def durBody (domain : Nat) : Bytes := u8 3 ++ u8 64 ++ u8 domain ++ u8 0 ++ u16 (8 * domain) ++ zeros (26 + sigLen)
/-- A wrap record of generation 3 of tenant 3's key, valid to 1 ns. -/
def wrapBody : Bytes := u32 0x5052574B ++ u8 1 ++ u8 3 ++ u16 3 ++ u64 1 ++ zeros (wrapLen - 16)

set_option maxRecDepth 20000 in
theorem witness_TenantCommandsTakeEffect :
    (let b := u8 4 ++ zeros 7
     Takes onSb 0x0210 .control (fun _ => 8) (ruledNode 0x210 b tenant3) b ∧ zeroAt b 1 7 = true ∧
     tenantOf (ruledNode 0x210 b tenant3) (fld b 0 1) = none) ∧
    (let b := u8 3 ++ u8 4 ++ u8 8 ++ u8 32 ++ u16 4096 ++ zeros 2 ++ u32 65536 ++ zeros 20
     let s := ruledNode 0x211 b tenant3
     Takes onSb 0x0211 .control (fun _ => 0x20) s b ∧ quotaRange b = true ∧ tenantOf s (fld b 0 1) = some tenant3 ∧
     quotaSum s 3 (fun k => k.groups.length) (bfld b 2 1 3 0) ≤ 8 ∧ quotaSum s 3 Tenant.flashMib (bfld b 3 1 5 0) ≤ 32 ∧
     quotaSum s 3 Tenant.t2Units (fld b 0x18 8) ≤ usableT2 s ∧ quotaSum s 3 Tenant.t1Frames (fld b 0x10 8) ≤ allocatable s ∧
     bfld b 2 1 3 0 ≤ tenant3.groups.length + ((List.range 8).filter fun g => s.own.tenants.all fun x => !x.groups.contains g).length) ∧
    (∀ d ≤ 1, let b := durBody d
     let s := ruledNode 0x212 b tenant3
     Takes onSb 0x0212 .control (fun _ => 0x20 + sigLen) s b ∧ inRange (fld b 1 1) 1 64 = true ∧ zeroAt b 3 1 = true ∧
     zeroAt b 6 2 = true ∧ tenantOf s (fld b 0 1) = some tenant3 ∧ fld b 2 1 = d ∧ (d = 0 → zeroAt b 4 (0x1C + sigLen) = true) ∧
     (d = 1 → fld b 4 2 ≠ 0 ∧ fld b 4 2 ≠ s.pw.node) ∧
     ∃ sig, ownerVerified s sessionKeyOff (credential 1 (fld b 4 2) 1 (fld b 0 1) (fld b 8 8) []) sig = true) ∧
    (let b := u8 3 ++ zeros 7
     let s := ruledNode 0x213 b tenant3
     Takes onSb 0x0213 .control (fun _ => 8) s b ∧ zeroAt b 1 7 = true ∧ tenantOf s (fld b 0 1) = some tenant3 ∧ tenant3.dying = false) ∧
    (let k : Tenant := { id := 3, keyTop := 2 }
     let s := ruledNode 0x220 wrapBody k
     Takes onSb 0x0220 .control (fun _ => wrapLen) s wrapBody ∧ s.sec.record ≠ none ∧ tenantOf s (fld wrapBody 5 1) = some k ∧
     k.keyTop < fld wrapBody 6 2 ∧ k.keys.length < 2 ∧ ∃ sig, openWrap s 1 wrapBody sig (some (zeros 32)) = (stOK, cut (zeros 32) 0 32)) ∧
    (let b := u8 3 ++ u8 0 ++ u16 1 ++ zeros 4
     let s := ruledNode 0x221 b tenant3
     Takes onSb 0x0221 .control (fun _ => 8) s b ∧ zeroAt b 1 1 = true ∧ zeroAt b 4 4 = true ∧ tenantOf s (fld b 0 1) = some tenant3 ∧
     keyGenOf tenant3 (fld b 2 2) ≠ none ∧ (newestKey tenant3).map KeyGen.gen ≠ some (fld b 2 2) ∧
     keyUsed s tenant3.id (fld b 2 2) = false) := by
  refine ⟨⟨⟨⟨rfl, by decide⟩, rfl, by decide⟩, by decide⟩, ⟨⟨⟨rfl, by decide⟩, rfl, by decide⟩, by decide +kernel⟩, ?_, ⟨⟨⟨rfl, by decide⟩, rfl, by decide⟩, by decide, by decide, rfl⟩, ⟨⟨⟨rfl, by decide⟩, rfl, by decide +kernel⟩, by decide +kernel,
    by decide +kernel, by decide +kernel, by decide, some ⟨cut (zeros 0x14A0) wrapKeyOff 1312, sha3 (cut wrapBody 0 0x480)⟩, ?_⟩,
    ⟨⟨rfl, by decide⟩, rfl, by decide⟩, by decide⟩
  · intro d h
    match d, h with
    | 0, _ => exact ⟨⟨⟨rfl, by decide⟩, rfl, by decide +kernel⟩, by decide, by decide, by decide, by decide, by decide, by decide +kernel, by decide, _, signed_ok rfl _ _⟩
    | 1, _ => exact ⟨⟨⟨rfl, by decide⟩, rfl, by decide +kernel⟩, by decide, by decide, by decide, by decide, by decide, by decide, by decide, _, signed_ok rfl _ _⟩
  · unfold openWrap
    rw [if_neg (by decide +kernel), signed_ok rfl wrapKeyOff (sha3 (cut wrapBody 0 0x480)), if_neg (by decide +kernel)]

/-- A life-cycle node: the nonce of 32 fives is in force until 1 ns. -/
def fives : Bytes := List.replicate 32 5
def lcsNode (lcs : Lcs) (body : Bytes) : State :=
  let s := withRecord (controlNode 0x222 body)
  { s with sec := { s.sec with lcs := lcs, lcsNonce := some (fives, 1) } }
def lcsBody (op : Nat) (rest : Bytes) : Bytes := u8 op ++ zeros 7 ++ fives ++ rest
def lcsNeed (op need : Nat) (b : Bytes) : Nat := if fld b 0 1 = op then 0x28 + need else 0x28
def recordBody : Bytes := u32 0x524E574F ++ u32 1 ++ zeros (recordLen - 8)

set_option maxRecDepth 20000 in
theorem witness_LifeCycleOperations :
    (let b := lcsBody 0 []
     Takes onSb 0x0222 .control (fun _ => 0x28) (lcsNode .field b) b ∧ fld b 0 1 = 0 ∧ zeroAt b 1 7 = true) ∧
    (let b := lcsBody 1 (zeros sigLen)
     Takes onSb 0x0222 .control (lcsNeed 1 sigLen) (lcsNode .test b) b ∧ fld b 0 1 = 1 ∧ lifecycleNonceHeld (lcsNode .test b) b ∧
     ∃ sig, verified Config.vendorKey (lcsDigest 1 (cut b 8 32)) sig = true) ∧
    (let b := lcsBody 2 (zeros 1320)
     Takes onSb 0x0222 .control (lcsNeed 2 1320) (lcsNode .field b) b ∧ fld b 0 1 = 2 ∧ lifecycleNonceHeld (lcsNode .field b) b ∧
     (lcsNode .field b).sec.ownerRoot = none ∧ zeroAt b 0x29 7 = true) ∧
    (let b := lcsBody 3 recordBody
     let v := cut b 0x28 recordLen
     let s0 := lcsNode .test b
     let s := { s0 with sec := { s0.sec with record := none, ownerRoot := some (sha3 (cut v rootKeyOff 1312)) } }
     Takes onSb 0x0222 .control (lcsNeed 3 recordLen) s b ∧ fld b 0 1 = 3 ∧ lifecycleNonceHeld s b ∧ fld v 0 4 = 0x524E574F ∧
     zeroAt v 8 24 = true ∧ (s.sec.record.map fun o => fld o 4 4).getD 0 < fld v 4 4 ∧
     s.sec.ownerRoot = some (sha3 (cut v rootKeyOff 1312)) ∧
     ∃ sig, verified (cut v rootKeyOff 1312) (sha3 (cut v 0 0x14A0)) sig = true) ∧
    (let b := lcsBody 4 (zeros (2 * sigLen))
     let s := lcsNode .field b
     Takes onSb 0x0222 .control (lcsNeed 4 (2 * sigLen)) s b ∧ fld b 0 1 = 4 ∧ lifecycleNonceHeld s b ∧ s.own.tenants = [] ∧
     (∃ sig, ownerRootVerified s (lcsDigest 4 (cut b 8 32)) sig = true) ∧
     ∃ sig, verified Config.vendorKey (lcsDigest 4 (cut b 8 32)) sig = true) ∧
    (let b := lcsBody 5 (zeros sigLen)
     let s := lcsNode .field b
     Takes onSb 0x0222 .control (lcsNeed 5 sigLen) s b ∧ fld b 0 1 = 5 ∧ lifecycleNonceHeld s b ∧ s.sec.lcs ≠ .void ∧
     ∃ sig, ownerRootVerified s (lcsDigest 5 (cut b 8 32)) sig = true) ∧
    (∃ g : Signed, g.key = Config.vendorKey ∧ (lcsNode .return_ []).sec.lcs = .return_) := by
  refine ⟨⟨⟨⟨rfl, by decide⟩, rfl, by decide +kernel⟩, by decide⟩,
    ⟨⟨⟨rfl, by decide⟩, rfl, by decide +kernel⟩, by decide, ⟨by decide, 1, by decide +kernel⟩, _, vendor_ok _ _⟩,
    ⟨⟨⟨rfl, by decide⟩, rfl, by decide +kernel⟩, by decide, ⟨by decide, 1, by decide +kernel⟩, rfl, by decide +kernel⟩,
    ⟨⟨⟨rfl, by decide⟩, rfl, by decide +kernel⟩, by decide, ⟨by decide, 1, by decide +kernel⟩, by decide +kernel, by decide +kernel,
      by decide +kernel, rfl, _, vendor_ok _ _⟩,
    ⟨⟨⟨rfl, by decide⟩, rfl, by decide +kernel⟩, by decide, ⟨by decide, 1, by decide +kernel⟩, rfl, ⟨_, signed_ok rfl _ _⟩, _, vendor_ok _ _⟩,
    ⟨⟨⟨rfl, by decide⟩, rfl, by decide +kernel⟩, by decide, ⟨by decide, 1, by decide +kernel⟩, by decide, _, signed_ok rfl _ _⟩,
    ⟨Config.vendorKey, []⟩, rfl, rfl⟩

theorem witness_EvidenceIsBuiltAndAnswered : ∀ scope, scope = 0 ∨ scope = 2 →
    let b := fives ++ u8 0 ++ u8 scope ++ zeros 6
    let s := sessionNode (some .owner) 0x140 b
    Takes onQp 0x0140 .both (fun _ => 0x28) s b ∧ boxRole s onQp.box = some .owner ∧ fld b 0x20 1 = 0 ∧ fld b 0x21 1 = scope ∧
    fld b 0x23 1 = 0 ∧ fld b 0x24 4 = 0 := by
  rintro scope (rfl | rfl)
  · exact ⟨⟨⟨rfl, by decide⟩, rfl, by decide⟩, rfl, by decide⟩
  · exact ⟨⟨⟨rfl, by decide⟩, rfl, by decide⟩, rfl, by decide⟩

/-! ## Migration -/

/-- MIGRATE_BEGIN of migration 1 of tenant 3's sequence to or from node 8. -/
def beginBody (role grace : Nat) : Bytes :=
  u32 1 ++ u8 role ++ u8 3 ++ u16 8 ++ u32 5 ++ u16 1 ++ zeros 2 ++ u32 grace ++ zeros (0x9A8 - 0x14) ++ u64 h9
def phaseBody (phase wait : Nat) : Bytes := u32 1 ++ u8 phase ++ zeros 3 ++ u32 wait ++ zeros 4
def mig1 (source : Bool) (st : MigState) : Mig :=
  { id := 1, source := source, tenant := 3, peer := 8, epoch := 5, seqs := [h9], graceMs := 100, notAfter := 0, state := st }
def migNode (code : Nat) (body : Bytes) (migs : List Mig) : State :=
  let s := withSeq (ruledNode code body tenant3)
  { s with fl := { s.fl with migs := migs } }

theorem seqs_of_begin : mgSeqs (beginBody 1 0) = [h9] ∧ mgSeqs (beginBody 0 600000) = [h9] := by decide +kernel

set_option maxRecDepth 20000 in
theorem witness_MigrationsGoThroughTheirPhases_begin :
    (let b := beginBody 1 0
     let s := migNode 0x230 b [mig1 true .installed]
     Takes onSb 0x0230 .control migNeed s b ∧ fld b 4 1 = 1 ∧ migrationMayBegin s b ∧
     ∀ h ∈ mgSeqs b, ∃ q, seqOf s h = some q ∧ q.len = 0 ∧ (s.sq.spans.any fun x => x.als == q.als) = false) ∧
    (let b := beginBody 0 600000
     let s := migNode 0x230 b []
     Takes onSb 0x0230 .control migNeed s b ∧ fld b 4 1 = 0 ∧ migrationMayBegin s b ∧
     (openQp (dropMig s 1) (.migration 1) 0 8 []).isSome = true) := by
  refine ⟨⟨⟨by decide +kernel, by decide +kernel⟩, by decide +kernel,
    ⟨by decide +kernel, ⟨tenant3, by decide +kernel⟩, ?_, by decide +kernel⟩, ?_⟩,
    ⟨by decide +kernel, by decide +kernel⟩, by decide +kernel,
    ⟨by decide +kernel, ⟨tenant3, by decide +kernel⟩, ?_, by decide +kernel⟩, by decide +kernel⟩
  · intro h hh
    rw [seqs_of_begin.1, List.mem_singleton] at hh
    subst hh
    exact ⟨⟨seq9, by decide +kernel, rfl⟩, by decide +kernel⟩
  · intro h hh
    rw [seqs_of_begin.1, List.mem_singleton] at hh
    subst hh
    exact ⟨seq9, by decide +kernel, rfl, by decide +kernel⟩
  · intro h hh
    rw [seqs_of_begin.2, List.mem_singleton] at hh
    subst hh
    exact ⟨⟨seq9, by decide +kernel, rfl⟩, by decide +kernel⟩

def held9 : FObj := ⟨0, 3, .replica 8 h9 [], 0, h9, 1, 0, [], 1, 0, [.unwritten], 0, []⟩
def peerOf3 : Peer := { qp := 256, tenant := 3, mig := some 1, node := 8 }

theorem witness_MigrationsGoThroughTheirPhases :
    (let b := phaseBody 0 60000
     let s := migNode 0x231 b [mig1 true .copying]
     Takes onSb 0x0231 .control (fun _ => 16) s b ∧ migrationPhase 0 s b (mig1 true .copying)) ∧
    (let b := phaseBody 1 0
     let m := mig1 false .prepared
     let s := migNode 0x231 b [m]
     Takes onSb 0x0231 .control (fun _ => 16) s b ∧ migrationPhase 1 s b m ∧
     ∀ q ∈ migSeqs s m, heldMax (replicasOf s m.tenant m.peer q.handle) ≤ heldLen s (replicasOf s m.tenant m.peer q.handle) q.layers q.kvh) ∧
    (let b := phaseBody 2 0
     let s := migNode 0x231 b [mig1 true .frozen]
     Takes onSb 0x0231 .control (fun _ => 16) s b ∧ migrationPhase 2 s b (mig1 true .frozen)) ∧
    (let b := u32 1 ++ zeros 4
     let s := migNode 0x232 b [mig1 false .prepared]
     Takes onSb 0x0232 .control (fun _ => 8) s b ∧ zeroAt b 4 4 = true ∧ migById s (fld b 0 4) = some (mig1 false .prepared) ∧
     ∀ t, tenantOf s 3 = some t → t.dying = false) ∧
    (let m := { mig1 true .freezing with waitUntil := 1 }
     let s0 := migNode 0 [] [m]
     let s : State := { s0 with sq := { s0.sq with seqs := [{ seq9 with writer := some 5 }] } }
     serves s = true ∧ migById s 1 = some m ∧ m.waitUntil ≠ 0 ∧ ∃ q ∈ migSeqs (s.at m.waitUntil) m, q.writer ≠ none) ∧
    (serves (migNode 0 [] [mig1 true .stubbed]) = true ∧ migById (migNode 0 [] [mig1 true .stubbed]) 1 = some (mig1 true .stubbed)) ∧
    (let m := { mig1 true .copying with qp := some 256 }
     let q : Qp := { num := 256, state := .connected, use := .migration 1 }
     let s0 := migNode 0 [] [m]
     let s : State := { s0 with nuc := { s0.nuc with qps := [q] }, fl := { s0.fl with peers := [peerOf3] } }
     serves s = true ∧ migById s 1 = some m ∧ qpOf s 256 = some q ∧ peerFor s m.tenant (some 1) = some peerOf3) := by
  have live : ∀ (c : Nat) (b : Bytes) (ms : List Mig) (t : Tenant), tenantOf (migNode c b ms) 3 = some t → t.dying = false := by
    intro c b ms t h
    cases h
    rfl
  exact ⟨⟨⟨⟨rfl, by decide⟩, rfl, by decide⟩, by decide, by decide, by decide, by decide, by decide, live _ _ _⟩,
    ⟨⟨⟨rfl, by decide⟩, rfl, by decide⟩, ⟨by decide, by decide, by decide, by decide, by decide, live _ _ _⟩, by decide +kernel⟩,
    ⟨⟨⟨rfl, by decide⟩, rfl, by decide⟩, by decide, by decide, by decide, by decide, by decide, live _ _ _⟩,
    ⟨⟨⟨rfl, by decide⟩, rfl, by decide⟩, by decide, by decide, live _ _ _⟩, by decide +kernel⟩

/-! ## Functions and the port -/

theorem witness_FunctionsStopAndStart : ∀ f ≤ 4,
    let b := u8 f ++ zeros 7
    fld b 0 1 = f ∧ zeroAt b 1 7 = true ∧ Takes onSb 0x0253 .control (fun _ => 8) (controlNode 0x253 b) b ∧
    Takes onSb 0x0254 .control (fun _ => 8) (controlNode 0x254 b) b ∧
    (let s0 := controlNode 0x254 b
     let s : State := { s0 with port := { s0.port with schedOn := false, policeOn := false } }
     Takes onSb 0x0254 .control (fun _ => 8) s b ∧ s.port.schedOn = false ∧ s.port.policeOn = false) := by
  intro f h
  match f, h with
  | 0, _ => exact ⟨by decide, by decide, ⟨⟨rfl, by decide⟩, rfl, by decide⟩, ⟨⟨rfl, by decide⟩, rfl, by decide⟩, ⟨⟨rfl, by decide⟩, rfl, by decide⟩, rfl, rfl⟩
  | 1, _ => exact ⟨by decide, by decide, ⟨⟨rfl, by decide⟩, rfl, by decide⟩, ⟨⟨rfl, by decide⟩, rfl, by decide⟩, ⟨⟨rfl, by decide⟩, rfl, by decide⟩, rfl, rfl⟩
  | 2, _ => exact ⟨by decide, by decide, ⟨⟨rfl, by decide⟩, rfl, by decide⟩, ⟨⟨rfl, by decide⟩, rfl, by decide⟩, ⟨⟨rfl, by decide⟩, rfl, by decide⟩, rfl, rfl⟩
  | 3, _ => exact ⟨by decide, by decide, ⟨⟨rfl, by decide⟩, rfl, by decide⟩, ⟨⟨rfl, by decide⟩, rfl, by decide⟩, ⟨⟨rfl, by decide⟩, rfl, by decide⟩, rfl, rfl⟩
  | 4, _ => exact ⟨by decide, by decide, ⟨⟨rfl, by decide⟩, rfl, by decide⟩, ⟨⟨rfl, by decide⟩, rfl, by decide⟩, ⟨⟨rfl, by decide⟩, rfl, by decide⟩, rfl, rfl⟩

/-- PORT_CONFIG with IPv4 192.0.2.1/24, path MTU 4,096 and the least DCQCN settings. -/
def portBody : Bytes :=
  u32 0x33221102 ++ u16 0x5544 ++ u16 0 ++ u32 0x010200C0 ++ u8 24 ++ u8 64 ++ u8 5 ++ u8 3 ++ zeros 4 ++ zeros 4 ++ zeros 32 ++
  u8 26 ++ u8 3 ++ u8 48 ++ u8 6 ++ u8 7 ++ u8 14 ++ u8 7 ++ zeros 5 ++ u32 65536 ++ u32 0 ++ u16 1 ++ u16 1 ++ u32 1 ++ u32 1 ++ u32 65536 ++
  u32 1 ++ u32 1 ++ u32 100 ++ u8 1 ++ zeros 23

/-- Two gates over 1,000 ns. -/
def gclBody : Bytes := u8 1 ++ u8 0 ++ u8 1 ++ zeros 13 ++ u16 2 ++ zeros 2 ++ u32 1000 ++ u64 0 ++ (u8 255 ++ zeros 3 ++ u32 999) ++ (u8 1 ++ zeros 3 ++ u32 1)

theorem witness_PortTakesItsSettings :
    (Takes onSb 0x0260 .control (fun _ => 128) (controlNode 0x260 portBody) portBody ∧ portCfgOk portBody = true ∧
     ∀ q ∈ (controlNode 0x260 portBody).nuc.qps, q.state ≠ .connected) ∧
    (∀ n, n = 0 ∨ n = 7 →
     let b := u8 0 ++ u8 n ++ zeros 2 ++ u32 (if n < 6 then 65536 else 0) ++ u32 1600000 ++ u32 1024 ++ zeros 16
     Takes onSb 0x0261 .control (fun _ => 32) (controlNode 0x261 b) b ∧ fld b 0 1 = 0 ∧ fld b 1 1 = n ∧ zeroAt b 2 2 = true ∧
     zeroAt b 0x10 16 = true ∧ fld b 8 4 ≤ 1600000 ∧ inRange (fld b 0xC 4) 1024 16777216 = true ∧
     (if n < 6 then inRange (fld b 4 4) 256 65536 = true else fld b 4 4 = 0)) ∧
    (let b := gclBody
     let s0 := controlNode 0x261 b
     let s : State := { s0 with port := { s0.port with schedOn := false } }
     let gs := (List.range 2).map fun i => (⟨fld b (0x20 + 8 * i) 1, fld b (0x24 + 8 * i) 4⟩ : Gate)
     Takes onSb 0x0261 .control (fun b => 0x20 + 8 * (fld b 0x10 2 % 512)) s b ∧ fld b 0 1 = 1 ∧ fld b 1 1 = 0 ∧ fld b 2 1 ≤ 1 ∧ fld b 3 1 = 0 ∧
     zeroAt b 4 12 = true ∧ fld b 0x10 2 = 2 ∧ zeroAt b 0x12 2 = true ∧ inRange (fld b 0x14 4) 1 1000000000 = true ∧
     (∀ i < 2, zeroAt b (0x21 + 8 * i) 3 = true) ∧ (∀ g ∈ gs, g.dur ≠ 0) ∧ sumBy Gate.dur gs = fld b 0x14 4 ∧ s.port.schedOn = false) ∧
    (let b := u16 1023 ++ u8 2 ++ u8 0 ++ u16 3 ++ zeros 2 ++ u32 1 ++ u32 16777216
     let s := controlNode 0x262 b
     Takes onSb 0x0262 .control (fun _ => 16) s b ∧ fld b 0 2 ≤ 1023 ∧ fld b 2 1 ≤ 2 ∧ fld b 3 1 = 0 ∧ zeroAt b 6 2 = true ∧
     inRange (fld b 8 4) 1 1600000 = true ∧ inRange (fld b 0xC 4) 1024 16777216 = true ∧
     (s.port.policers.any fun p => p.index != fld b 0 2 && p.scope == fld b 2 1 && p.id == fld b 4 2) = false) ∧
    (let b := u8 127 ++ u8 1 ++ u8 7 ++ u8 253 ++ u32 100 ++ zeros 8 ++ u32 500000 ++ zeros 12
     Takes onSb 0x0264 .control (fun _ => 32) (controlNode 0x264 b) b ∧ fld b 0 1 ≤ 127 ∧ fld b 1 1 ≤ 1 ∧ fld b 2 1 ≤ 7 ∧
     signed 8 (fld b 3 1) = -3 ∧ inRange (fld b 4 4) 100 1000000 = true ∧ inRange (fld b 0x10 4) 1 500000 = true ∧ zeroAt b 0x14 12 = true) := by
  refine ⟨⟨⟨⟨rfl, by decide⟩, rfl, by decide +kernel⟩, by decide +kernel⟩, ?_, ⟨⟨⟨rfl, by decide⟩, rfl, by decide +kernel⟩, by decide +kernel⟩, ⟨⟨⟨rfl, by decide⟩, rfl, by decide +kernel⟩, by decide +kernel⟩,
    ⟨⟨rfl, by decide⟩, rfl, by decide +kernel⟩, by decide +kernel⟩
  rintro n (rfl | rfl)
  · exact ⟨⟨⟨rfl, by decide⟩, rfl, by decide +kernel⟩, by decide +kernel⟩
  · exact ⟨⟨⟨rfl, by decide⟩, rfl, by decide +kernel⟩, by decide +kernel⟩

/-- A control node with MACsec on, transmit SA 1 and receive SA 2 of SC 3. -/
def sa (an : Nat) : Sa := { an := an, key := zeros 32, ssci := 0, salt := zeros 12, pn := 1, window := 0 }
def macNode (body : Bytes) : State :=
  let s := withRecord (controlNode 0x263 body)
  { s with port := { s.port with cfg := some { portCfgOf portBody with macsecEn := true }, txSas := [sa 1], txAn := some 1, rxScs := [⟨3, zeros 8, [sa 2]⟩] } }
def macWrap : Bytes := u32 0x5052574B ++ u8 2 ++ zeros 3 ++ u64 1 ++ zeros (wrapLen - 16)
def installBody (op an : Nat) : Bytes := u8 op ++ u8 an ++ u8 3 ++ zeros 0x25 ++ u32 (2 ^ 30) ++ u32 wrapLen ++ macWrap
def switchBody (op an : Nat) : Bytes := u8 op ++ u8 an ++ u8 3 ++ zeros 0x2D

set_option maxRecDepth 20000 in
theorem witness_MacsecKeysAreInstalled :
    (∀ op ≤ 1,
     let b := installBody op 0
     let s := macNode b
     Takes onSb 0x0263 .control (fun b => 0x30 + (if fld b 0 1 ≤ 1 then fld b 0x2C 4 else 0)) s b ∧ fld b 0 1 = op ∧ macsecOn s = true ∧
     fld b 1 1 ≤ 3 ∧ fld b 2 1 ≤ 3 ∧ fld b 3 1 = 0 ∧ zeroAt b 0x1C 4 = true ∧ fld b 0x2C 4 = wrapLen ∧ fld b 0x28 4 ≤ 2 ^ 30 ∧
     s.port.txAn ≠ some (fld b 1 1)) ∧
    (∃ (s : State) (sig : Option Signed), s.sec.record ≠ none ∧ openWrap s 2 macWrap sig (some (zeros 32)) = (stOK, cut (zeros 32) 0 32)) ∧
    (let b := switchBody 2 1
     let s := macNode b
     Takes onSb 0x0263 .control (fun b => 0x30 + (if fld b 0 1 ≤ 1 then fld b 0x2C 4 else 0)) s b ∧ fld b 0 1 = 2 ∧ zeroAt b 4 0x2C = true ∧
     (s.port.txSas.any fun a => a.an == fld b 1 1) = true) ∧
    (let b := switchBody 3 2
     let s := macNode b
     Takes onSb 0x0263 .control (fun b => 0x30 + (if fld b 0 1 ≤ 1 then fld b 0x2C 4 else 0)) s b ∧ fld b 0 1 = 3 ∧ zeroAt b 4 0x2C = true ∧
     (s.port.rxScs.any fun r => r.id == fld b 2 1 && r.sas.any fun a => a.an == fld b 1 1) = true) := by
  refine ⟨?_, ⟨macNode [], some ⟨cut (zeros 0x14A0) wrapKeyOff 1312, sha3 (cut macWrap 0 0x480)⟩, by decide, ?_⟩, ⟨⟨⟨rfl, by decide⟩, rfl, by decide +kernel⟩, by decide⟩, ⟨⟨rfl, by decide⟩, rfl, by decide +kernel⟩,
    by decide⟩
  · intro op h
    match op, h with
    | 0, _ => exact ⟨⟨⟨rfl, by decide⟩, rfl, by decide +kernel⟩, by decide +kernel⟩
    | 1, _ => exact ⟨⟨⟨rfl, by decide⟩, rfl, by decide +kernel⟩, by decide +kernel⟩
  · unfold openWrap
    rw [if_neg (by decide +kernel), signed_ok rfl wrapKeyOff (sha3 (cut macWrap 0 0x480)), if_neg (by decide +kernel)]

/-! ## The port -/

/-- QP 1 of tenant 3 under a link; lease 5 is its own. -/
def linked : State :=
  let s := withLease (tenantNode 0 [])
  { s with port := { s.port with link := true, cfg := some (portCfgOf portBody) } }
def rx (psn : Nat) : Rx := { qp := 1, psn := psn, pcp := 3, count := 100, ce := false, icrcOk := true, supported := true, sec := .none }
def qp1 : Qp := { num := 1, state := .connected, session := some ⟨.tenant 3, 10 ^ 12, 9⟩, mbox := { last := 0, run := some (armedCmd 0 []) } }
/-- Where a packet in order is executed. -/
def taken : State := mapQp linked 1 fun q => { q with nakSent := false }
def stagePut : WriteMsg := ⟨0x40000000, 77, 4, 0, [1, 2, 3, 4], false, false⟩

theorem rx_taken (k : Nat) (h : k = 0 ∨ k = 77) : RxTaken (rx 0) k linked taken qp1 := by
  rcases h with rfl | rfl <;> exact ⟨linked, linked, rfl, rfl, rfl, rfl, by decide +kernel, rfl, rfl, rfl, rfl, rfl⟩

theorem witness_RdmaRequestsExecute :
    (∀ k, k = 0 ∨ k = 77 → RxTaken (rx 0) k linked taken qp1) ∧ readOk taken 1 0 4096 0 = true ∧ readOk taken 1 (0x10000000 + 0x1000 * 16) 4096 77 = true ∧
    (writeOk taken 1 stagePut.addr stagePut.len 77 = true ∧ regionOf taken 1 stagePut.addr stagePut.len 77 = some (.stage 5 0) ∧
     stagePut.off + stagePut.data.length ≤ stagePut.len) ∧
    (regionOf taken 1 (0x400000 + 8 * 64) 8 77 = some (.cell 64 0) ∧ cellLease taken 64 = some 5 ∧ leaseKey taken 1 77 5 = true) ∧
    (∃ l, leaseKey taken 1 77 5 = true ∧ leaseOf taken 5 = some l) :=
  ⟨rx_taken, by decide +kernel, by decide +kernel, by decide +kernel, by decide +kernel, lease5, by decide +kernel, rfl⟩

theorem rx_out_of_order (psn : Nat) (h : psn ≠ 0) : RxOutOfOrder (rx psn) 0 linked linked qp1 :=
  have p : police linked (some 0) 1 100 = (linked, true) := by decide +kernel
  ⟨linked, linked, rfl, rfl, rfl, rfl, p, rfl, rfl, rfl, h, rfl⟩

theorem witness_RefusedAndUnorderedPacketsAreAnswered :
    writeOk taken 1 0x200000 8 0 = false ∧ readOk taken 1 0x110000 4096 1 = false ∧
    RxOutOfOrder (rx (2 ^ 24 - 1)) 0 linked linked qp1 ∧ psnLe (2 ^ 24) qp1.rxPsn = true ∧
    RxOutOfOrder (rx 1) 0 linked linked qp1 ∧ psnLe 2 qp1.rxPsn = false ∧ qp1.nakSent = false :=
  ⟨by decide +kernel, by decide +kernel, rx_out_of_order _ (by decide), by decide, rx_out_of_order _ (by decide), by decide, rfl⟩

def setupQp (u : QpUse) : Qp := { num := 1, state := .setup, use := u }
def withQp (q : Qp) : State := { linked with nuc := { linked.nuc with qps := [q] } }

theorem witness_ConnectionsOpenAndClose :
    (serves linked = true ∧ linked.port.link = true ∧ ∃ n t, freeQpn linked = some (n, t)) ∧
    qpOf (withQp (setupQp .host)) 1 = some (setupQp .host) ∧
    (let q := setupQp (.peer 3 1 onQp.box)
     qpOf (withQp q) 1 = some q ∧ q.unsent = false) ∧
    (let q : Qp := { num := 1, state := .closing }
     qpOf (withQp q) 1 = some q) :=
  ⟨⟨rfl, rfl, _, _, rfl⟩, rfl, ⟨rfl, rfl⟩, rfl⟩

def waitQp : Qp := { qp1 with unacked := [⟨.write 0 0 [], 5, .plain⟩], txPsn := 6 }

theorem witness_AcknowledgementsSettleMessages :
    qpOf (withQp waitQp) 1 = some waitQp ∧ waitQp.unacked ≠ [] ∧ waitQp.retries < cfgNat (withQp waitQp) PortCfg.retryCnt ∧
    (let q := { waitQp with retries := 7 }
     qpOf (withQp q) 1 = some q ∧ cfgNat (withQp q) PortCfg.retryCnt ≤ q.retries) ∧
    (serves (withQp waitQp) = true ∧ (withQp waitQp).port.link = true ∧ waitQp.state = .connected) ∧
    ∃ k, qpOf (ackTo (withQp waitQp) 1 5) 1 = some k :=
  ⟨rfl, by decide, by decide +kernel, by decide +kernel, ⟨rfl, rfl, rfl⟩, _, rfl⟩

def cutQp : Qp := { qp1 with cc := { qp1.cc with cutAt := some 0, sent := 65536 } }
def gated : State :=
  { linked with port := { linked.port with gclOn := true, gcl := [⟨255, 999⟩, ⟨1, 1⟩], cycle := 1000, start := some 0,
                                           queues := linked.port.queues.set 3 { paused := some 1 } } }
def ready7 : State :=
  { linked with port := { linked.port with queues := linked.port.queues.set 7 { frames := [⟨.pfc 0 true, 64, 0, none⟩] } } }

theorem witness_CongestionPauseAndEgress :
    (qpOf linked 1 = some qp1 ∧ linked.port.cfg = some (portCfgOf portBody) ∧ qp1.cc.cutAt = none) ∧
    (qpOf (withQp cutQp) 1 = some cutQp ∧ (withQp cutQp).now < 0 + 1000 * (portCfgOf portBody).cnpGap ∧
     (portCfgOf portBody).incBytes ≤ cutQp.cc.sent) ∧
    (∀ p ∈ [0, 1], pfcOn linked p = true) ∧
    (∃ q, gated.port.queues[3]? = some q ∧ q.paused = some 1) ∧ schedule gated = some ([⟨255, 999⟩, ⟨1, 1⟩], 1000, 0) ∧
    (ready7.port.txSwitch = none ∧ ready7.port.gates = maskAt ready7 ready7.now ∧
     ∃ q, ready7.port.queues[7]? = some q ∧ eligible ready7 7 q = some ⟨.pfc 0 true, 64, 0, none⟩) :=
  ⟨⟨rfl, rfl, rfl⟩, ⟨rfl, by decide +kernel⟩, by decide +kernel, ⟨_, rfl, rfl⟩, by decide +kernel, rfl, by decide +kernel, _, rfl,
    by decide +kernel⟩

theorem witness_CongestionControlStaysInRange :
    let c := portCfgOf portBody
    1 ≤ c.g ∧ c.g ≤ 65535 ∧ c.minRate ≤ 1600000 ∧
    (∀ q ∈ linked.nuc.qps, (c.minRate : Rat) ≤ q.cc.rc ∧ q.cc.rc ≤ 1600000 ∧ q.cc.rc ≤ q.cc.rt ∧ q.cc.rt ≤ 1600000 ∧ 0 ≤ q.cc.alpha ∧ q.cc.alpha ≤ 1) ∧
    ∃ t, exec (.cnpReceived 1) linked = .next t :=
  ⟨by decide +kernel, by decide +kernel, by decide +kernel, by decide +kernel, _, rfl⟩

theorem witness_AddressesLinkAndNetworkClock :
    (portCfgOf portBody).ipv4 ≠ 0 ∧
    (let c := { portCfgOf portBody with ipv6 := 1 }
     let s := { linked with port := { linked.port with cfg := some c, neighbors := [⟨9, none⟩] } }
     s.port.link = true ∧ s.port.cfg = some c ∧ c.ipv6 ≠ 0 ∧ (s.port.neighbors.any fun n => n.ip == 9) = true) ∧
    (let s := { linked with port := { linked.port with link := false } }
     s.port.link = false ∧ linkReady s = true) :=
  ⟨by decide +kernel, ⟨rfl, rfl, by decide⟩, rfl, by decide +kernel⟩

theorem witness_TimeSynchronization :
    (linked.clock.ptp = .locked ∧ linked.port.ptp.oneStep = false) ∧
    (let s := { linked with clock := { linked.clock with ptp := .unlocked }, port := { linked.port with ptp := { linked.port.ptp with oneStep := true, lastSync := some 0 } } }
     s.clock.ptp ≠ .locked ∧ ordinaryActive s = true ∧ s.port.ptp.oneStep = true ∧
     (let t := { s with own := { s.own with leases := [] } }
      ¬ ((1001 : Int).natAbs ≤ t.port.ptp.lockNs) ∧ ordinaryActive t = false)) ∧
    (∃ s : State, s.clock.ptp = .locked ∧ s.port.ptp.lastSync = some 0) :=
  ⟨by decide, by decide, { linked with port := { linked.port with ptp := { lastSync := some 0 } } }, rfl, rfl⟩

/-! ## Armed requests -/

/-- Partition 2 with a slot 0 that holds a header of OP, lease 5 and a record address in its private memory. -/
def slotHead (op : Nat) : Bytes := u8 op ++ u8 0 ++ u16 5 ++ zeros 4 ++ u64 0x80000000
def armPart (op : Nat) : Partition := { part2 with mem := memWrite [] (guestSlot 0) (slotHead op) }
def armNode (op : Nat) : State := { linked with serv := { parts := [armPart op] } }
def armOf (ue : Bool) : Arm := ⟨.part 2 [], 0, 0, ue⟩
def arm0 : Arm := armOf false
/-- The state with the arm word stored. -/
def stored (op : Nat) (cancel : Bool) (s : State) : State :=
  mapPart s 2 fun k => { k with mem := memWrite k.mem (guestSlot 0 + 0xFF8) (u64 (wordOf op cancel arm0)) }

theorem arm_reaches (u : Bool) (op : Nat) (c : Bool) (s : State) (k : Partition) (h : serves s = true ∧ k.lease = 5 ∧ partOf s 2 = some k ∧ leaseOf s k.lease = some lease5 ∧
    0 < k.nslots ∧ leaseLive s lease5 = true) : ArmReaches op c (armOf u) (.int 5 0) lease5 0 s (stored op c s) :=
  ⟨h.1, .inl ⟨2, [], s, k, rfl, rfl, h.2.1 ▸ rfl, rfl, h.2.2.1, h.2.2.2.1, h.2.2.2.2.1, h.2.2.2.2.2, rfl⟩⟩

theorem witness_ArmedSlotsStartTheirRequests : ∀ op ∈ dataOps, ArmTaken op arm0 (.int 5 0) lease5 0 (armNode op) (stored op false (armNode op)) ∧
    Arms op (armOf true) (.int 5 0) lease5 0 (armNode op) (stored op false (armNode op)) := by
  have p : ∀ op ∈ dataOps, reqOf (stored op false (armNode op)) (.int 5 0) = none ∧
      arm0.seq % 65536 = (lastOf (stored op false (armNode op)) (.int 5 0) + 1) % 65536 ∧
      fld (cut (slotBytes (stored op false (armNode op)) (.int 5 0)) 0 64) 0 1 = op ∧
      headOk (armedState (stored op false (armNode op)) (.int 5 0) lease5 0 (wordOf op false arm0)) (.int 5 0) lease5
        (cut (slotBytes (stored op false (armNode op)) (.int 5 0)) 0 64) (wordOf op false arm0) = true ∧
      leaseLive (stored op false (armNode op)) lease5 = true := by decide +kernel
  intro op h
  have r := fun u => arm_reaches u op false (armNode op) (armPart op) ⟨rfl, rfl, rfl, rfl, Nat.zero_lt_one, rfl⟩
  obtain ⟨a, b, c⟩ := p op h
  exact ⟨⟨⟨r false, a, b⟩, rfl, c⟩, ⟨r true, a, b⟩⟩

/-- The same arm word as an RDMA WRITE into network slot 16. -/
theorem witness_WriteReaches : WriteReaches (wordOf 1 false ⟨.qp 1, 16, 0, false⟩) ⟨.qp 1, 16, 0, false⟩ (.net 16) lease5 1 linked
    (mapQp (postAck (advance (windowWrite linked (.slot 16 0xFF8) 0 (u64 (wordOf 1 false ⟨.qp 1, 16, 0, false⟩))) 1 1) qp1 qp1.rxPsn) 1
      (fun q => { q with placing := none })) :=
  ⟨1, qp1, linked, rfl, rfl, rfl, by decide, rfl, rfl, rfl, rfl, by decide +kernel, by decide +kernel, rfl, by decide +kernel⟩

theorem witness_ArmWordsFollowTheSlotSequence :
    (let s0 := armNode 1
     let s : State := { s0 with eng := { s0.eng with reqs := [rq (.int 5 0) 1 .running []] }, nuc := { s0.nuc with slots := [⟨.int 5 0, 0⟩] } }
     ArmReaches 0 true arm0 (.int 5 0) lease5 0 s (stored 0 true s) ∧ reqOf (stored 0 true s) (.int 5 0) ≠ none ∧
     arm0.seq % 65536 = lastOf (stored 0 true s) (.int 5 0) ∧
     ArmReaches 1 false arm0 (.int 5 0) lease5 0 s (stored 1 false s) ∧ reqOf (stored 1 false s) (.int 5 0) ≠ none) ∧
    (ArmReaches 0 true arm0 (.int 5 0) lease5 0 (armNode 1) (stored 0 true (armNode 1)) ∧ reqOf (stored 0 true (armNode 1)) (.int 5 0) = none) :=
  ⟨⟨arm_reaches _ _ _ _ (armPart 1) ⟨rfl, rfl, rfl, rfl, Nat.zero_lt_one, rfl⟩, by decide, by decide,
    arm_reaches _ _ _ _ (armPart 1) ⟨rfl, rfl, rfl, rfl, Nat.zero_lt_one, rfl⟩, by decide⟩,
   arm_reaches _ _ _ _ (armPart 1) ⟨rfl, rfl, rfl, rfl, Nat.zero_lt_one, rfl⟩, by decide⟩

/-! ## Timers and grants -/

def reqNode (rs : List Rq) : State := { linked with eng := { linked.eng with reqs := rs } }
/-- A TRUNCATE of sequence 9 to length 0 whose older requests have ended. -/
def truncRq : Rq := { rq (.net 16) 0x12 .older (u64 h9 ++ zeros 56) with handle := h9 }

theorem witness_TimersActOnTheirSubjects :
    (∀ p ∈ [Phase.turn, .moving, .running], ∀ op ∈ [0x10, 0x21, 0x30],
      (reqOf (reqNode [rq (.net 16) op p []]) (.net 16)).isSome = true ∧ serves (reqNode [rq (.net 16) op p []]) = true) ∧
    (0x10 ∈ appendOps ∧ 0x21 ∉ appendOps ∧ 0x21 ∈ vecClass ∧ 0x30 ∉ appendOps ∧ 0x30 ∉ vecClass) ∧
    (let s := withSeq (reqNode [truncRq])
     reqOf s (.net 16) = some truncRq ∧ olderRun s truncRq (cmNew truncRq.body) = false ∧ seqAny s truncRq.handle = some seq9) ∧
    (leaseOf linked 5 = some lease5 ∧ lease5.state = .active ∧ lease5.service = none) ∧
    (let l : Lease := { lease5 with state := .ended }
     let s := { linked with own := { linked.own with leases := [l] } }
     leaseOf s 5 = some l ∧ ∀ r ∈ s.eng.reqs, r.lease ≠ 5) :=
  by decide

def walk3 : Walk := { ctx := 3, req := .net 16, kind := .pages 0 0, sketch := 0, level := 1, todo := [⟨4, 0⟩, ⟨5, 0⟩], seen := [], stale := 0 }
def runRq : Rq := { rq (.net 16) 0x30 .workspace [] with handle := 4 }
def spaceUnit : UnitWork :=
  let y : Span := { als := 2, layer := 0, head := 0, idx := 0, tenant := 3, gen := 0, state := .flashOnly, dim := 1, fmt := 0, strength := 0, bank := 0, frame := 0 }
  { q := 0, kv := 0, g0 := 0, n := 1, stage := 1, pool := 0, passes := [⟨0, y, [(0, 1)], 4, 0, none⟩] }

theorem witness_GrantsGoToTheFirstWaiting :
    (let r := rq (.net 16) 0x01 .context []
     (waiting (reqNode [r]) fun r => attnOps.contains r.op && r.phase == .context) = [r] ∧ ctxUsed (reqNode [r]) attnOps < 4096) ∧
    (∀ op ∈ [0x10, 0x21, 0x40], let r := rq (.net 16) op .context []
     (waiting (reqNode [r]) fun r => scatterOps.contains r.op && r.phase == .context) = [r] ∧ scatterFree (reqNode [r]) = true) ∧
    (let s0 := reqNode [runRq]
     let s : State := { s0 with sq := { s0.sq with objs := [planObj] } }
     let room := fun (r : Rq) => match runPlan s r with
       | some o => decide ((instUsed s r.tenant o.id).length < pcInst o.bytes)
       | none => true
     (waiting s fun r => r.op == 0x30 && r.phase == .workspace).find? room = some runRq) ∧
    (let r := { rq (.net 16) 0x01 .running [] with units := [spaceUnit] }
     let s0 := reqNode [r]
     let s : State := { s0 with own := { s0.own with tenants := [{ id := 3, flashMib := 1 }] } }
     (waiting s fun r => r.units.any fun u => u.passes.any fun p => p.stage == 4).find? (fun r => spaceFree s r.tenant) = some r ∧
     r.units.findIdx (fun u => u.passes.any fun p => p.stage == 4) = 0 ∧ spaceUnit.passes.findIdx (fun p => p.stage == 4) = 0) ∧
    (let r := rq (.net 16) 0x02 .running []
     let s0 := reqNode [r]
     let s : State := { s0 with eng := { s0.eng with walks := [walk3] } }
     (s.eng.walks.find? fun w => w.ctx == 3) = some walk3 ∧ reqOf s walk3.req = some r ∧ walk3.kind = .pages 0 0 ∧ r.stop = none ∧
     walk3.todo = ⟨4, 0⟩ :: [⟨5, 0⟩]) ∧
    (let r := { rq (.net 16) 0x02 .running [] with handle := h9 }
     let w : WalkWait := ⟨.net 16, .pages 0 0⟩
     let s0 := withSeq (reqNode [r])
     let s : State := { s0 with eng := { s0.eng with waits := [w] } }
     sortBy (waitBefore s) s.eng.waits = [w] ∧ reqOf s w.req = some r ∧
     (startWalk { s with eng := { s.eng with waits := s.eng.waits.erase w } } r 0 0).isSome = true) :=
  by decide +kernel

/-! ## The sideband, resets and power -/

/-- A node in a state of Table 20-6. -/
def inState (b : Boot) : State := { node with pw := { node.pw with boot := b } }

theorem witness_SidebandRegistersAndMailbox :
    standby node = true ∧ (∀ p ∈ [(0, 1024), (0x10000, 8), (0x10038, 8)], sbOk p.1 p.2 = true) ∧ sbOk 0x8000 8 = false ∧ sbOk 4 8 = false ∧
    node.pw.boot ≠ .failStop ∧ (standby (inState .failStop) = true ∧ (inState .failStop).pw.boot = .failStop) ∧ warmable node = true ∧
    (zeros 8).length = 8 ∧ (0x1FF8 + 8 ≤ 8192) := by decide

theorem witness_ManagementRequestsAreAnswered :
    standby node = true ∧ sensorValue node 20 = some (some 0) ∧ sensorValue node 1 = some none ∧ fld [0, 0, 2] 2 1 = 2 ∧ node.pw.dynAddr = none := by decide

/-- The header of an image of 4,096 bytes (Table 20-3). -/
def bootHead : Bytes := u32 0x4657584B ++ u16 1 ++ u8 0 ++ u8 0 ++ u32 4096 ++ zeros 4 ++ u32 4096 ++ zeros 44
theorem rom_image (s : State) (h : norRead s 0 64 = bootHead) (f : s.sec.ownerFlags = 0 ∧ s.sec.svnCount = 0) :
    romCheck s ⟨some ⟨Config.vendorKey, sha3 (norRead s 0 (64 + fld bootHead 8 4))⟩, none, false, {}⟩ =
      .inl (bootHead, sha3 (norRead s 0 (64 + fld bootHead 8 4))) := by
  have : imageHeaderOk bootHead = true := by decide +kernel
  simp [romCheck, h, this, vendor_ok, f.1, f.2]

/-- The image range as ROM reads it: only the bytes of the header differ from an erased flash here. -/
def headFlash (b : Boot) : State :=
  let s := norWrite (inState b) 0 bootHead
  { s with pw := { s.pw with restored := false }, sec := { s.sec with recState := 1, recLen := 4096 } }

theorem head_read (b : Boot) : norRead (headFlash b) 0 64 = bootHead := by
  have : norRead (headFlash .rom) 0 64 = bootHead := by decide +kernel
  exact this

theorem witness_RecoveryLoaderTakesImage :
    standby (headFlash .recovery) = true ∧ (headFlash .recovery).pw.boot = .recovery ∧ (headFlash .recovery).sec.recState = 1 ∧
    (headFlash .recovery).sec.recBytes + 1024 ≤ (headFlash .recovery).sec.recLen ∧
    (∃ v h d, romCheck (vendorReply (headFlash .recovery) 4 1 stOK 0 []) v = .inl (h, d)) ∧
    (∃ v cause, romCheck (vendorReply (headFlash .recovery) 4 1 stOK 0 []) v = .inr cause) ∧
    (standby node = true ∧ node.pw.boot ≠ .recovery) :=
  ⟨by decide, rfl, rfl, by decide, ⟨_, _, _, rom_image _ (head_read .recovery) ⟨rfl, rfl⟩⟩, ⟨⟨none, none, true, {}⟩, _, rfl⟩, by decide⟩

theorem witness_ResetsAndBootRun :
    ((inState .off).pw.boot = .off ∧ node.pw.boot ≠ .off ∧ node.pw.saveAct = false) ∧ (∃ s : State, s.pw.boot ≠ .off ∧ s.pw.saveAct = true) ∧
    (warmable node = true ∧ (inState .failStop).pw.boot ≠ .off ∧ warmable (inState .failStop) = false) ∧
    Takes onSb 0x0252 .control (fun _ => 0) (controlNode 0x252 []) [] ∧
    (∃ s : State, s.pw.boot = .rom ∧ s.pw.pwrfailLow = true) ∧ (∃ s : State, s.pw.boot = .warmReset ∧ s.pw.wrstLow = true) ∧
    (∀ b, b = .rom ∨ b = .warmReset →
      ((headFlash b).pw.boot = b ∧ (headFlash b).pw.pwrfailLow = false ∧ (headFlash b).pw.wrstLow = false ∧ (headFlash b).sec.lcs ≠ .void ∧
        (headFlash b).pw.restored = false ∧ (∃ v h d, romCheck (headFlash b) v = .inl (h, d)) ∧ ∃ v c, romCheck (headFlash b) v = .inr c) ∧
      (let s : State := { headFlash b with pw := { (headFlash b).pw with restored := true } }
       s.pw.boot = b ∧ s.pw.restored = true ∧ ∃ v h d, romCheck s v = .inl (h, d)) ∧
      ∃ s : State, s.pw.boot = b ∧ s.pw.pwrfailLow = false ∧ s.pw.wrstLow = false ∧ s.sec.lcs = .void) := by
  refine ⟨by decide, ⟨{ node with pw := { node.pw with saveAct := true } }, by decide⟩, by decide, ⟨⟨rfl, by decide⟩, rfl, by decide⟩,
    ⟨{ node with pw := { node.pw with boot := .rom, pwrfailLow := true } }, by decide⟩,
    ⟨{ node with pw := { node.pw with boot := .warmReset, wrstLow := true } }, by decide⟩, fun b _ => ⟨⟨rfl, rfl, rfl, ?_, rfl,
      ⟨_, _, _, rom_image _ (head_read b) ⟨rfl, rfl⟩⟩, ⟨none, none, true, {}⟩, _, rfl⟩,
      ⟨rfl, rfl, _, _, _, rom_image _ (head_read b) ⟨rfl, rfl⟩⟩, { inState b with sec := { node.sec with lcs := .void } }, rfl, rfl, rfl, rfl⟩⟩
  intro h
  cases h

theorem witness_RestoredNodeRuns : (inState .booting).pw.boot = .booting := rfl

def image0 : SaveImage := { commit := false, lsn := 0, start := 0, dur := 0, kib := 0, seqs := [], spans := [], objs := [], migs := [], destroyed := [],
                            segs := [], errs := [], durs := [], ctrs := [] }

theorem witness_SavesAndFailStop :
    (let s := tenantNode 0 []
     savable s = true ∧ s.pw.restored = true ∧ s.fl.areaA.erased = true) ∧
    (savable node = true ∧ node.fl.areaA.erased = false ∧ node.fl.areaB.erased = false) ∧
    (let s : State := { inState .saving with fl := { node.fl with areaB := ⟨false, some image0⟩ } }
     s.pw.boot = .saving ∧ savingImage s = some (image0, true)) ∧
    (node.pw.boot ≠ .off ∧ node.pw.boot ≠ .failStop ∧ node.pw.boot ≠ .void) := by decide

theorem witness_PowerAndTemperatureFollowEvents :
    (serves node = true ∧ ∀ b, node.pw.pstate ≤ deepest node b) ∧
    (let s : State := { node with pw := { node.pw with budgetUs := 2 } }
     ∀ b, s.pw.pstate < deepest s b) ∧
    (let s := setStack node { id := 17, selfRefresh := true }
     serves s = true ∧ (stackOf s 17).selfRefresh = true) ∧
    (node.pw.boot ≠ .off ∧ hottest [704, 760] = some 760) := by decide

theorem witness_DeratingStepHasHysteresis : (704 : Int) + 16 ≤ 736 ∧ (736 : Int) + 16 ≤ 760 ∧ (760 : Int) + 16 ≤ 800 ∧ (800 : Int) + 16 ≤ 840 := by decide

/-! ## Banks, arrays, Mace and flash -/

def desc0 : Desc := { fmt := 0, sub := 0, frame := 40959, first := 0, count := 1, heads := 0, dim := 0, mask := 0, vreg := 0, pent := 0, arg0 := 0,
                      arg1 := 0, arg2 := 0, arg3 := 0, optag := 0, rsvd := false }
def env0 : OpEnv := { ue := none, parity := none, corrected := [] }
def op0 : QOp := { opc := 14, tenant := 3, desc := desc0, chan := [], own := .free, order := 1 }
def bankNode (k : Bank) : State := { node with mem := { node.mem with banks := [k] } }

theorem witness_BankRowsQueueTheirOperation : (9215 < 9216) ∧ (bankOf node 9215).retired = false := by decide

theorem witness_AbsentHardwareFaults : (9216 ≤ 9216 ∧ 576 ≤ 576 ∧ 18 ≤ 18) ∧ exec (.refreshDue 9216) node = .fault .noSuchBank ∧
    exec (.bucketLeak true 576) node = .fault .noSuchBank ∧ exec (.maceSelfRefreshWake ⟨18, {}⟩) node = .fault .noSuchBank := ⟨by decide, rfl, rfl, rfl⟩

theorem witness_GovernorHoldsOperations :
    (let k : Bank := { id := 5, queue := [op0] }
     let s := bankNode k
     s.pw.boot = .running ∧ bankOf s 5 = k ∧ takeOp s k = some (op0, []) ∧ k.last = none ∧ ungoverned k op0 = false ∧ (stackOf s 0).step ≠ 3 ∧
     chargeOf k op0.opc op0.desc ≤ creditAtTime (stackOf s 0) s.now ∧ earlierHeld s 5 s.now = false ∧ tooLong s k op0 env0 = false) ∧
    (let k : Bank := { id := 5, queue := [op0] }
     let s := setStack (bankNode k) { id := 0, step := 3 }
     (stackOf s 0).step = 3 ∧ bankOf s 5 = k ∧ takeOp s k = some (op0, []) ∧ ungoverned k op0 = false) ∧
    (let k : Bank := { id := 5, queue := [op0], sealBase := 40959 }
     let s := bankNode k
     bankOf s 5 = k ∧ takeOp s k = some (op0, []) ∧ ungoverned k op0 = true ∧ tooLong s k op0 env0 = false) := by decide +kernel

theorem witness_BanksClearBetweenTenants :
    (let k : Bank := { id := 5, queue := [op0], last := some 4 }
     let s := bankNode k
     s.pw.boot = .running ∧ bankOf s 5 = k ∧ takeOp s k = some (op0, []) ∧ 4 ≠ op0.tenant ∧ k.pass = none ∧ k.p7 = none) := by decide

theorem witness_BankOperationsKeepToTheirFrames :
    (let k : Bank := { id := 5 }
     k.id < 9216 ∧ ∃ e, memGet (runOp [(npa 5 40959 0, 7)] k op0 e).1.mem (npa 5 40959 0) ≠ memGet [(npa 5 40959 0, 7)] (npa 5 40959 0)) ∧
    preFault { id := 5, sealBase := 40959 } op0.opc op0.desc ≠ 0 := ⟨⟨by decide, env0, by decide +kernel⟩, by decide +kernel⟩

theorem witness_BankEventsAdvanceTheBank :
    (let r : Running := { op := op0, out := ⟨0, 0, 0, 0, []⟩, suspended := false, corrected := [] }
     let k : Bank := { id := 5, running := some r, held := true, refreshing := true }
     serves (bankNode k) = true ∧ bankOf (bankNode k) 5 = k ∧ k.running = some r ∧ r.suspended = false ∧ r.corrected = [] ∧ r.out.fault = 0 ∧ k.held = true ∧
     k.refreshing = true ∧ k.retired = false ∧ (stackOf (bankNode k) 0).selfRefresh = false) ∧
    (let k : Bank := { id := 5, pins := [⟨7, some [], .scrub 3⟩] }
     bankOf (bankNode k) 5 = k ∧ atBreak (bankNode k) 5 = true ∧ ∀ r i, (Own.scrub 3) ≠ .page r i) :=
  ⟨by decide, rfl, by decide, by intro r i; exact Own.noConfusion⟩

theorem witness_MaceAndHealthRun :
    (node.hl.maceT1 = true ∧ atBreak node 9215 = true ∧ walkAt node 9215 < 40960) ∧
    (let s : State := { node with hl := { node.hl with repairs := [⟨5, 6, 0⟩], retiring := [⟨9215, 0, 0⟩] } }
     (s.hl.repairs.find? fun r => r.bank == 5) = some ⟨5, 6, 0⟩ ∧ atBreak s 5 = true ∧ serves s = true ∧ retiresNow s 9215 = some ⟨9215, 0, 0⟩ ∧ atBreak s 9215 = true) := by
  decide

theorem witness_HealthAndLogsAreBounded :
    (serves node = true ∧ ∃ t, exec .healthSample node = .next t) ∧ (∃ s : State, s.hl.band = 3 ∧ serves s = true) ∧ node.hl.errs.length ≤ 1048576 :=
  ⟨⟨rfl, _, rfl⟩, ⟨{ node with hl := { node.hl with band := 3 } }, by decide⟩, by decide⟩

def event0 : Event := { eseq := 1, code := 65535, sev := 2, time := 0, data := [] }
theorem witness_SidebandQueueHoldsEvents :
    node.nuc.sbEvents.length < 256 ∧ (List.replicate 256 event0).length = 256 ∧ event0.code < 65536 ∧ event0.sev ≤ 2 ∧ event0.time < 2 ^ 64 ∧
    standby node = true ∧ 1024 % 32 = 0 :=
  ⟨by decide, List.length_replicate .., by decide, by decide, by decide, by decide, rfl⟩

/-- A run of the plan of part d whose operation is next, and a job of each kind on array 7. -/
def colJob : ArrJob := { group := 0, arr := some 7, req := .net 16, prio := 0, order := 0, kind := .col 0 0, todo := [], charge := 0, ready := true }
def opNode (op : Nat) : State :=
  let c := patch plan1 0x280 (u8 op)
  let s := reqNode [{ rq (.net 16) 0x30 .running (u16 4 ++ u16 1 ++ zeros 2 ++ u16 1 ++ zeros 56) with handle := 4 }]
  { s with sq := { s.sq with objs := [{ planObj with bytes := c }] } }

theorem witness_ArraysAndPlansRun :
    (∀ op ∈ (List.range 14).map (· + 1), opReady (opNode op) (.net 16) [op] ≠ none) ∧
    (let s : State := { node with arr := { node.arr with jobs := [colJob] } }
     serves s = true ∧ jobOn s 7 = some colJob) ∧
    (let j := { colJob with kind := .span 0 0 }
     let s : State := { node with arr := { node.arr with jobs := [j] } }
     jobOn s 7 = some j) := by decide +kernel

def flashNode : State :=
  { loadNode 0 [] [] with pw := node.pw }
def ver0 : FObj := ⟨1, 3, .span, 0, h9, 1, 0, [], 1, 0, [.lost], 0, []⟩
def profile0 : Bytes := zeros 0x18 ++ u32 100 ++ u32 1000
def loc (k : JobKind) (todo : List Nat) : FJob := { id := 1, tenant := 3, epoch := 0, kind := k, ver := ver0, todo := todo }
def jobNode (j : FJob) : State := { flashNode with fl := { flashNode.fl with jobs := [j], objs := [ver0], profile := some (profileOf profile0) } }
def flushSpan0 : Span := { als := 2, layer := 0, head := 0, idx := 0, tenant := 3, gen := 0, state := .resident, dim := 1, fmt := 0, strength := 0,
                           bank := 0, frame := 2768, pages := List.replicate 64 { snap := some 0 } }

theorem witness_FlashTierRuns :
    (serves flashNode = true ∧ flashNode.fl.geom ≠ none ∧ flushMover flashNode = true) ∧
    (let j := loc (.flush 2 0 0 0 [] false false) [4]
     jobOf (jobNode j) 1 = some j ∧ jobLive (jobNode j) j = true) ∧
    (let j := loc (.flush 2 0 0 0 [⟨0, 0⟩] false false) []
     let s := { jobNode j with sq := { (jobNode j).sq with spans := [flushSpan0] } }
     jobOf s 1 = some j ∧ jobLive s j = true ∧ (flushSpan s j).isSome = true) ∧
    (let s : State := { flashNode with fl := { flashNode.fl with segs := [{ id := 3, use := .erasing }] } }
     (segOf s 3).use = .erasing) ∧
    (let s := jobNode (loc (.flush 2 0 0 0 [] false false) [])
     (∃ p, s.fl.profile = some p ∧ s.hl.maceT2 = true ∧ p.disturb ≤ (segOf { s with fl := { s.fl with segs := [{ id := 3, reads := 1000 }] } } 3).reads) ∧
     (segOf s 3).fill = 0 ∧ 15 < lunCount nand) ∧
    (let s : State := { flashNode with fl := { flashNode.fl with repair := [(1, 0)], objs := [ver0] } }
     s.fl.repair.contains (1, 0) = true ∧ objFlushing s 1 = false ∧ objOf s 1 = some ver0) ∧
    (let t := { tenant3 with rekey := true }
     let s : State := { flashNode with own := { flashNode.own with tenants := [t] } }
     tenantOf s 3 = some t ∧ t.rekey = true ∧ t.dying = false ∧ (newestKey t).isSome = true) ∧
    (let s : State := { flashNode with fl := { flashNode.fl with journalled := true, areaA := ⟨false, some image0⟩ } }
     s.fl.journalled = true ∧ s.fl.areaA.image ≠ none) ∧
    (Takes onSb 0x0240 .control (fun b => 0x20 + 4 * min 16 (profileCount b)) (controlNode 0x240 profile0) profile0 ∧ profileOk profile0 = true) ∧
    (let s0 := controlNode 0x241 []
     let s : State := { s0 with fl := { s0.fl with profile := some (profileOf profile0) } }
     Takes onSb 0x0241 .control (fun _ => 0) s [] ∧ flashStrength nand = some 128 ∧ geomOk nand = true ∧
     saveTime nand (profileOf profile0) ≤ 30 * 10 ^ 6) :=
  ⟨by decide, by decide, by decide, by decide, ⟨⟨_, rfl, rfl, by decide +kernel⟩, by decide +kernel⟩, by decide, by decide, by decide,
   ⟨⟨⟨rfl, by decide⟩, rfl, by decide⟩, by decide⟩, ⟨⟨rfl, by decide⟩, rfl, by decide⟩, by decide +kernel⟩

theorem witness_FailedMailboxChecksChangeNothing :
    serves (sessionNode none 0x100 grantBody) = true ∧ (sessionNode none 0x100 grantBody).port.link = true ∧ onQp.box ≠ .sideband ∧ mailTake (sessionNode none 0x100 grantBody) onQp 0x0100 = some ((sessionNode none 0x100 grantBody), armedCmd 0x100 grantBody) ∧
    mailCheck .tenant onQp.box (boxRole (sessionNode none 0x100 grantBody) onQp.box) (armedCmd 0x100 grantBody) (fun _ => 16) = some stFENCED := ⟨rfl, rfl, by decide, rfl, by decide⟩

theorem witness_CommandWordsArmInSequence :
    (∃ m, boxGet node .sideband = some m ∧ m.run = none ∧ (0 : Nat) = (m.last + 1) % 65536) ∧
    (∃ m, boxGet (controlNode 1 []) .sideband = some m ∧ m.run ≠ none) := ⟨⟨_, rfl, rfl, by decide⟩, _, rfl, by decide⟩

theorem witness_RepliesFillTheOutboundHalf :
    (∃ m r, (controlNode 0x271 []).nuc.sideband = m ∧ Memory.wf m.mem = true ∧ m.run = some r ∧ r.noticeAddr = 0 ∧ r.code < 65536 ∧ r.mseq < 65536) :=
  ⟨_, _, rfl, by decide, rfl, rfl, by decide⟩

theorem witness_CompletionRecordsHaveTheirFields :
    (let r := rq (.net 65535) 0x40 .running []
     r.op < 256 ∧ r.seq < 65536 ∧ reqSlot r.id < 65536 ∧ r.count < 2 ^ 32 ∧ r.redirect < 65536 ∧ r.detail < 2 ^ 64) ∧
    (spanId 65535 255 63 8191 < 2 ^ 48) ∧ coll7.id < 4096 ∧ planObj.id < 65536 := by decide

theorem witness_PublicationsRaiseSpanGen :
    (let s : State := { node with sq := { node.sq with spans := [flushSpan0] } }
     spanOf s 2 0 0 0 = some flushSpan0) := by decide

theorem witness_MemoryReadsWhatWasWritten : Memory.wf [(3, 7), (9, 1)] = true := by decide

theorem witness_WellFormedCommandsComplete : Instr.wf (.attend ⟨.qp 0xFFFFFF, 65535, 65535, false⟩) = true := by decide

theorem witness_FusesNeverGoBack : FusesHold 0 0 none State.reset ∧ ∃ t, step State.reset = .next t :=
  ⟨⟨by decide, by decide, by intro r h; cases h⟩, _, rfl⟩

theorem witness_IdleStepAdvancesClock : State.reset.pending = [] := rfl

/-! ## Well-formed commands: each check refuses a term that fails it -/

def rx0 : Rx := { qp := 1, psn := 0, pcp := 0, count := 64, ce := false, icrcOk := true, supported := true, sec := .none }
def cm0 : CmReq := { peer := 0, peerQpn := 1, rc := true, pkey := 0xFFFF, depth := 1, mtu := 4096, tclass := 0, pcp := none, psn := 0 }
def descOk0 : Desc :=
  { fmt := 0, sub := 0, frame := 0, first := 0, count := 1, heads := 1, dim := 1, mask := 0, vreg := 0, pent := 0, arg0 := 0, arg1 := 0,
    arg2 := 0, arg3 := 0, optag := 0, rsvd := false }
def bank0 : BankCmd := ⟨9215, 255, descOk0, [], ⟨some 63, none, [40959]⟩⟩
def frame0 : FrameEnv := ⟨[(4287, 1)], false, false⟩

/-- The last number of each range is a command's. -/
theorem wf_holds_at_the_last_number :
    [Instr.nonceGet ⟨.session 0xFFFFFF, 65535⟩, .nonceGet ⟨.control 63, 0⟩, .attend ⟨.part 31 [], 1023, 65535, false⟩, .deadlineExpiry (.int 4095 1023),
     .cmReq cm0, .failStop (.thermtripStack 17 100), .leaseExpiry 4095, .stackTemperatureReading 17 [0], .tilePass 119 .clean false, .bucketLeak true 575,
     .spanAttend bank0, .maceT1Frame 9215 frame0, .rdmaWrite rx0 ⟨0, 0, 4, 2, [1, 2], false, false⟩,
     .rdmaRead { rx0 with sec := .tag 3 3 (2 ^ 64 - 1) true } 0 0 0 false, .setdasa 127 127].all Instr.wf = true := by decide

theorem wf_refuses_mailboxes :
    [Instr.nonceGet ⟨.session 0x1000000, 0⟩, .nonceGet ⟨.control 64, 0⟩, .nonceGet ⟨.sideband, 65536⟩].all (fun i => !(Instr.wf i)) = true := by decide

theorem wf_refuses_arms :
    [Instr.attend ⟨.qp 0x1000000, 0, 0, false⟩, .attend ⟨.qp 1, 65536, 0, false⟩, .attend ⟨.qp 1, 0, 65536, false⟩, .attend ⟨.part 32 [], 0, 0, false⟩,
     .attend ⟨.part 0 [], 1024, 0, false⟩, .deadlineExpiry (.net 65536), .deadlineExpiry (.int 4096 0), .gemm (.int 0 1024)].all
      (fun i => !(Instr.wf i)) = true := by decide

theorem wf_refuses_packets :
    [Instr.rdmaRead { rx0 with qp := 0x1000000 } 0 0 0 false, .rdmaRead { rx0 with psn := 0x1000000 } 0 0 0 false, .rdmaRead { rx0 with pcp := 8 } 0 0 0 false,
     .rdmaRead { rx0 with sec := .tag 4 0 1 true } 0 0 0 false, .rdmaRead { rx0 with sec := .tag 0 4 1 true } 0 0 0 false,
     .rdmaRead { rx0 with sec := .tag 0 0 (2 ^ 64) true } 0 0 0 false, .fetchAdd rx0 (2 ^ 64) 0 0, .fetchAdd rx0 0 (2 ^ 32) 0,
     .rdmaWrite rx0 ⟨0, 0, 4, 3, [1, 2], false, false⟩, .leaseCellRenewal rx0 4096 0, .cmReq { cm0 with psn := 0x1000000 },
     .pfcReceived 8 0].all (fun i => !(Instr.wf i)) = true := by decide

theorem wf_refuses_bank_operations :
    [Instr.spanQk { bank0 with bank := 9216 }, .spanQk { bank0 with tenant := 256 }, .spanQk { bank0 with desc := { descOk0 with frame := 65536 } },
     .spanQk { bank0 with desc := { descOk0 with first := 64 } }, .spanQk { bank0 with desc := { descOk0 with count := 128 } },
     .spanQk { bank0 with desc := { descOk0 with heads := 32 } }, .spanQk { bank0 with desc := { descOk0 with vreg := 64 } },
     .spanQk { bank0 with desc := { descOk0 with pent := 8 } }, .spanQk { bank0 with env := ⟨some 64, none, []⟩ },
     .spanQk { bank0 with env := ⟨none, none, [40960]⟩ }, .refreshDue 9216, .maceT1Frame 0 ⟨[(4288, 1)], false, false⟩].all
      (fun i => !(Instr.wf i)) = true := by decide

theorem wf_refuses_units :
    [Instr.failStop (.thermtripStack 18 100), .failStop (.frame (9216 * 2 ^ 28)), .leaseExpiry 4096, .treeNodeRead 8192 false, .scoreDelivery 32,
     .maceSelfRefreshWake ⟨18, {}⟩, .powerStateExit ⟨.mailbox, ⟨[576], []⟩⟩, .tilePass 120 .clean false, .arrayGovernorRelease 8, .bucketLeak false 9216, .bucketLeak true 576, .reKeyWalk 256,
     .recStatus 256, .regRead 0 (2 ^ 32) 8, .setdasa 128 0, .pldmSensorReading 65536, .stubGraceExpiry (2 ^ 32)].all
      (fun i => !(Instr.wf i)) = true := by decide

/-! ## Small tests: expected values from the spec's figures and from the standards it names -/

/-- The state a command answers, for a test (the same state where it stops). -/
def after (o : Host.Outcome State Fault Refusal) (s : State) : State := match o with | .next t => t | _ => s

/-- Whether a command faults. -/
def faults (o : Host.Outcome State Fault Refusal) : Bool := match o with | .fault _ => true | _ => false

/-- The check value of CRC-32C: the nine ASCII digits give E306_9283. -/
theorem test_crc32c : crc32c ([0x31, 0x32, 0x33, 0x34, 0x35, 0x36, 0x37, 0x38, 0x39].map (BitVec.ofNat 8)) = 0xE3069283 := by decide +kernel

/-- SHA3-256 of no bytes (FIPS 202). -/
theorem test_sha3_empty : cut (sha3 []) 0 4 = ([0xA7, 0xFF, 0xC6, 0xF8].map (BitVec.ofNat 8)) := by decide +kernel

/-- The block of FIPS 197, appendix C.3. -/
theorem test_aes256 :
    (aesBlock (keyWords ((List.range 32).map (BitVec.ofNat 8))) ((List.range 16).map fun i => 17 * i)).take 4 = [0x8E, 0xA2, 0xB7, 0xCA] := by
  decide +kernel

/-- 1.5 + 2.25 in FP32; the BF16 and E4M3 codes of 1; E4M3 saturates at 448 (R76, R77). -/
theorem test_fp_sum : fadd 0x3FC00000#32 0x40100000#32 = 0x40700000#32 := by decide +kernel
theorem test_fp_codes : (narrow .bf16 one32, narrow .e4m3 one32, narrow .e4m3 0x447A0000#32) = (0x3F80, 0x38, 0x7E) := by decide +kernel

/-- A page check record at t = 32 is 96 bytes and the untouched page decodes to itself, a flipped byte is mended (R55). -/
theorem test_page_check_length : (checkRecord 32 (zeros 4096)).length = 96 := by decide +kernel

/-- Table 2-5's frames of a span: FP8 at head dimension 128 takes 64 frames of pages. -/
theorem test_span_frames : spanFrames 0 1 = 64 ∧ pageBytes 0 1 = 4096 ∧ spanFrames 2 2 = 256 := by decide

/-- Reset: the standby rail is off, nothing is queued, and both directories are empty. -/
theorem test_reset : State.reset.pending = [] ∧ State.reset.own.tenants = [] ∧ State.reset.nuc.qps = [] ∧ serves State.reset = false := by decide

/-- A write of four bytes below a cell leaves the cells above and reads back; a byte of 0 is not listed. -/
theorem test_memory_write : memWrite [(4, 9)] 2 [1, 2, 0, 3] = [(2, 1), (3, 2), (5, 3)] ∧ memRead [(2, 1)] 1 3 = [0, 1, 0] := by decide

/-- The cell of lease 2 stands at 0x40_0010 of the window, as 8 bytes with the lowest first (Table 16-6). -/
theorem test_lease_cell : cellAddr 2 = 0x400010 ∧ cellRead (cellAdd (cellWrite node 2 0xFF) 2 1) 2 = 0x100 := by decide +kernel

/-- A bank operation on bank 9,216 faults by name; on bank 9,215 it is taken. -/
theorem test_absent_bank : faults (exec (.spanQk { bank0 with bank := 9216 }) node) = true := by decide
theorem test_present_bank : faults (exec (.refreshDue 9215) node) = false := by decide +kernel

/-- The idle step and the queue's order (log entry 4). -/
theorem test_idle_step : (after (step State.reset) State.reset).now = State.reset.now + 1 := by decide
theorem test_queue_is_first_in_first_out :
    (after (step { node with pending := [.sbCtrlEvflush, .healthSample] }) node).pending = [.healthSample] := by decide

/-- The I3C controller assigns a dynamic address (R598). -/
theorem test_setdasa : (after (exec (.entdaa 9) node) node).pw.dynAddr = some 9 := by decide

/-- The event queue of the sideband is emptied by SBCTRL.EVFLUSH; EVLOST is cleared by its write. -/
theorem test_evflush : (after (exec .sbCtrlEvflush { node with nuc := { node.nuc with sbEvents := [event0] } }) node).nuc.sbEvents = [] := by decide
theorem test_evlost : (after (exec .sbStatusEvlost { node with nuc := { node.nuc with evLost := true } }) node).nuc.evLost = false := by decide

/-- A sideband read of a register outside the blocks of Table 17-2 answers an error, an aligned one eight bytes (R588). -/
theorem test_reg_read_length : ((after (exec (.regRead 5 0x10000 8) node) node).pw.sent.getLast?).isSome = true := by decide +kernel

/-- An expiry of no lease changes nothing. -/
theorem test_lease_expiry_without_lease : after (exec (.leaseExpiry 7) node) State.reset = node := by decide +kernel

/-- A tenant that is not there has nothing to zero; a lost link is down. -/
theorem test_background_zeroing_absent : after (exec (.backgroundZeroing 9) node) State.reset = node := by decide +kernel
theorem test_link_down : (after (exec .linkDown { node with port := { node.port with link := true } }) node).port.link = false := by decide +kernel

/-- The registers of the worked example of chapter 20; a retiring bank counts as a retired one in RETIRED (R532, Table 20-7). -/
theorem test_sideband_example :
    sbStatus { State.reset with pw := { State.reset.pw with boot := .failStop }, clock := { State.reset.clock with ptp := .holdover },
                                nuc := { State.reset.nuc with sbEvents := List.replicate 3 event0 } } = 0x3847 ∧
    sbHealth { State.reset with hl := { State.reset.hl with score := 60, band := 3, retiring := List.replicate 466 ⟨0, 1, 0⟩ } } =
      0x1D20003003C ∧
    sbFailcause { State.reset with pw := { State.reset.pw with fail := failRegs (.thermtripStack 9 922) } } = 0x39A00090103 := by
  decide +kernel

/-- IDCODE and the revision it fixes (R601). -/
theorem test_idcode : idcode = 0x10880A35 ∧ siRev = 0x100 := by decide

end
end

section

namespace Sys2Proof.Machine

/-! ## The step on an empty queue -/

/-- The other case of `step_front`: with no command at the front a step is the tick of the clock. -/
theorem step_of_pending_nil (s : State) (h : s.pending = []) : step s = .next (idle s) := by
  simp [step, h]

/-- Settles O2: an empty queue leaves `step` only the tick `idle`, which writes the clock's `now` and no other field. -/
theorem idleStepAdvancesClock : Obligations.IdleStepAdvancesClock := by
  intro s h
  exact step_of_pending_nil s h

end Sys2Proof.Machine

end

section
/-! SUPPORT. What the halting of movers, the self-refresh of stacks and the link's fall leave alone; a stack as it stands after an update. -/

namespace Sys2Proof.Machine

/-! ## Updates along a list -/

/-- What each update leaves alone, a run of updates leaves alone. -/
theorem foldl_keeps {α β : Type} (p : State → β) (f : State → α → State) (h : ∀ s a, p (f s a) = p s) (xs : List α) (s : State) :
    p (xs.foldl f s) = p s :=
  List.foldlRecOn xs f (motive := fun t => p t = p s) rfl fun t ht a _ => (h t a).trans ht

/-- The entry found under a key after `putBy`: the new one under its own key, the old one elsewhere. -/
theorem find?_putBy_key {α : Type} (key : α → Nat) (v : α) (n : Nat) (xs : List α) :
    (putBy (fun x => key x == key v) v xs).find? (fun x => key x == n) =
      if key v = n then some v else xs.find? (fun x => key x == n) := by
  induction xs with
  | nil => by_cases hv : key v = n <;> simp [putBy, hv]
  | cons x xs ih =>
    by_cases hx : key x = key v
    · by_cases hv : key v = n <;> simp [putBy, hx, hv]
    · by_cases hn : key x = n
      · subst hn
        simp [putBy, hx, Ne.symm hx]
      · simp [putBy, hx, hn, ih]

/-! ## Stacks -/

@[simp] theorem stackOf_id (s : State) (n : Nat) : (stackOf s n).id = n := by
  unfold stackOf
  cases h : s.mem.stks.find? fun x => x.id == n with
  | none => rfl
  | some k => simpa using List.find?_some h

theorem stackOf_setStack (s : State) (k : Stack) (n : Nat) : stackOf (setStack s k) n = if k.id = n then k else stackOf s n := by
  have h := find?_putBy_key Stack.id k n s.mem.stks
  simp only [stackOf, setStack, h]
  split <;> rfl

/-- Stack `i` enters self-refresh: one step of `allSelfRefresh`. -/
def selfRefreshStack (s : State) (i : Nat) : State := setStack s { stackOf s i with selfRefresh := true, srSince := s.now }

theorem allSelfRefresh_eq (s : State) : allSelfRefresh s = (List.range 18).foldl selfRefreshStack s := rfl

/-- A stack in self-refresh stays there, and the stack named enters it. -/
theorem selfRefresh_selfRefreshStack (s : State) (i j : Nat) (h : j = i ∨ (stackOf s j).selfRefresh = true) :
    (stackOf (selfRefreshStack s i) j).selfRefresh = true := by
  by_cases hij : i = j
  · simp [selfRefreshStack, stackOf_setStack, hij]
  · simpa [selfRefreshStack, stackOf_setStack, hij, Ne.symm hij] using h

theorem selfRefresh_foldl (is : List Nat) (j : Nat) :
    ∀ s : State, j ∈ is ∨ (stackOf s j).selfRefresh = true → (stackOf (is.foldl selfRefreshStack s) j).selfRefresh = true := by
  induction is with
  | nil => simp
  | cons i is ih =>
    intro s h
    refine ih _ ?_
    rcases h with hj | hj
    · rcases List.mem_cons.1 hj with rfl | hj
      · exact .inr (selfRefresh_selfRefreshStack s j j (.inl rfl))
      · exact .inl hj
    · exact .inr (selfRefresh_selfRefreshStack s i j (.inr hj))

theorem allSelfRefresh_selfRefresh (s : State) (i : Nat) (h : i < 18) : (stackOf (allSelfRefresh s) i).selfRefresh = true := by
  rw [allSelfRefresh_eq]
  exact selfRefresh_foldl _ i s (.inl (List.mem_range.2 h))

/-- Only the stacks' own records change. -/
theorem allSelfRefresh_changes (s : State) : ∃ ks, allSelfRefresh s = { s with mem.stks := ks } := by
  rw [allSelfRefresh_eq]
  refine List.foldlRecOn (List.range 18) selfRefreshStack (motive := fun t => ∃ ks, t = { s with mem.stks := ks })
    ⟨s.mem.stks, rfl⟩ ?_
  rintro t ⟨ks, rfl⟩ i -
  exact ⟨_, rfl⟩

/-! ## The link's fall -/

@[simp] theorem dropLink_port_link (s : State) : (dropLink s).port.link = false := by
  unfold dropLink leaveLocked
  cases h : s.port.link <;> simp only [Bool.false_eq_true, ↓reduceIte, h]
  split <;> rfl

/-- The link, the clock's state and the leases' fences change, no other part of the state. -/
theorem dropLink_changes (s : State) : ∃ c o p, dropLink s = { s with clock := c, own.leases := o, port := p } := by
  unfold dropLink leaveLocked
  split
  · split <;> exact ⟨_, _, _, rfl⟩
  · exact ⟨_, _, _, rfl⟩

/-! ## The halt of the movers -/

/-- The frames that jobs had taken go back; nothing else changes. -/
theorem freePlaces_change (js : List FJob) (s : State) :
    ∃ rs fs, js.foldl freePlace s = { s with mem.regions := rs, mem.freed := fs } := by
  refine List.foldlRecOn js freePlace (motive := fun t => ∃ rs fs, t = { s with mem.regions := rs, mem.freed := fs })
    ⟨s.mem.regions, s.mem.freed, rfl⟩ ?_
  rintro t ⟨rs, fs, rfl⟩ j -
  unfold freePlace
  split
  · split <;> exact ⟨_, _, rfl⟩
  · exact ⟨_, _, rfl⟩

/-- What the halt of the movers changes: freed frames, the spans, and of T2 the log, jobs, space and segments. -/
theorem haltMovers_changes (s : State) : ∃ rs fs xs lg gs, haltMovers s =
    { s with mem.regions := rs, mem.freed := fs, sq.spans := xs, fl.log := lg, fl.jobs := [], fl.space := [], fl.segs := gs } := by
  obtain ⟨rs, fs, h⟩ := freePlaces_change s.fl.jobs s
  unfold haltMovers
  rw [h]
  exact ⟨_, _, _, _, _, rfl⟩

end Sys2Proof.Machine

end

section
/-! SUPPORT. What restarting firmware does leaves the power registers alone: events, the configuration copy, replica sessions and the
destructions that go on. -/

namespace Sys2Proof.Machine

/-! ## Frames and events -/

@[simp] theorem toQueue_pw (s : State) (p : Nat) (f : Frame) : (toQueue s p f).pw = s.pw := by
  unfold toQueue
  split <;> rfl

@[simp] theorem send_pw (s : State) (q : Nat) (op : OutOp) (tag : AckTag) : (send s q op tag).pw = s.pw := by
  unfold send
  split
  · rfl
  · exact foldl_keeps State.pw _ (fun _ _ => toQueue_pw ..) _ _

@[simp] theorem raise_pw (s : State) (code : Nat) (data : Bytes) : (raise s code data).pw = s.pw :=
  foldl_keeps State.pw _ (fun _ _ => send_pw ..) _ _

/-! ## Save area and configuration copy -/

@[simp] theorem saveCfg_pw (s : State) : (saveCfg s).pw = s.pw := by
  unfold saveCfg
  split <;> rfl

@[simp] theorem noteSave_pw (s : State) : (noteSave s).pw = s.pw := rfl

/-! ## Destructions -/

@[simp] theorem dropTenant_pw (s : State) (t : Nat) : (dropTenant s t).pw = s.pw := by
  unfold dropTenant
  split
  · split
    · rfl
    · exact saveCfg_pw _
  · rfl

@[simp] theorem freeTenantFrames_pw (s : State) (t : Nat) : (freeTenantFrames s t).pw = s.pw :=
  foldl_keeps State.pw freeRegion (fun _ _ => rfl) _ _

@[simp] theorem clearBanks_pw (s : State) (t : Nat) : (clearBanks s t).pw = s.pw := rfl

theorem destroyDone_none_pw (s : State) (t : Nat) : (destroyDone s t none).pw = s.pw := by
  simp only [destroyDone, dropTenant_pw, saveCfg_pw, freeTenantFrames_pw, clearBanks_pw, mapTenant_pw]
  split
  · split <;> rfl
  · rfl

@[simp] theorem resumeDestroys_pw (s : State) : (resumeDestroys s).pw = s.pw := by
  unfold resumeDestroys
  refine foldl_keeps State.pw _ (fun s t => ?_) _ _
  rw [destroyDone_none_pw]

/-! ## Replica sessions -/

@[simp] theorem postCm_pw (s : State) (k : FrameKind) : (postCm s k).pw = s.pw := toQueue_pw ..

@[simp] theorem postCtl_pw (s : State) (n : Nat) (k : FrameKind) : (postCtl s n k).pw = s.pw := toQueue_pw ..

@[simp] theorem startConnect_pw (s : State) (q : Nat) : (startConnect s q).pw = s.pw := by
  simp only [startConnect]
  split
  · split <;> simp
  · rfl

theorem pickRun_pw {s t : State} {lo hi n k : Nat} {used : List (Nat × Nat)} (h : pickRun s lo hi n used = some (k, t)) : t.pw = s.pw := by
  simp only [pickRun] at h
  split at h
  · cases h
  · cases h
    rfl

theorem freeQpn_pw {s t : State} {n : Nat} (h : freeQpn s = some (n, t)) : t.pw = s.pw := pickRun_pw h

theorem openQp_pw {s t : State} {use : QpUse} {addr node n : Nat} {sig : Bytes} (h : openQp s use addr node sig = some (n, t)) :
    t.pw = s.pw := by
  unfold openQp at h
  split at h
  · cases h
  · next hq =>
    have hp := freeQpn_pw hq
    cases h
    exact (startConnect_pw ..).trans hp

@[simp] theorem connectReplica_pw (s : State) (k : Tenant) : (connectReplica s k).pw = s.pw := by
  unfold connectReplica
  split
  · next h => exact openQp_pw h
  · rfl

@[simp] theorem reconnect_pw (s : State) : (reconnect s).pw = s.pw :=
  foldl_keeps State.pw connectReplica connectReplica_pw _ _

/-! ## Firmware is up -/

/-- Whatever a reset met, firmware that has finished it runs and serves. -/
theorem upAgain_boot (s : State) : (upAgain s).pw.boot = .running := by
  simp [upAgain]

theorem serves_of_running {s : State} (h : s.pw.boot = .running) : serves s = true := by
  simp [serves, h]

end Sys2Proof.Machine

end

section
/-! SUPPORT. The states that resets lead to, and what ROM makes of its checks (chapters 17 and 19). -/

namespace Sys2Proof.Machine

/-! ## Cold and warm reset -/

/-- What of the fuses, the save areas and the standby registers outlives a cold reset. -/
theorem coldState_keeps (s : State) :
    (coldState s).pw.fail = s.pw.fail ∧ (coldState s).fl.cfg = s.fl.cfg ∧ (coldState s).fl.areaA = s.fl.areaA ∧
      (coldState s).fl.areaB = s.fl.areaB ∧ (coldState s).sec.lcs = s.sec.lcs ∧ (coldState s).sec.svnCount = s.sec.svnCount := by
  obtain ⟨rs, fs, xs, lg, gs, h⟩ := haltMovers_changes s
  unfold coldState
  rw [h]
  exact ⟨rfl, rfl, rfl, rfl, rfl, rfl⟩

/-- The link's fall, the halt of what is in flight and the self-refresh of every stack leave all this alone. -/
theorem warmStart_keeps (s : State) :
    (warmStart s).mem.t1 = s.mem.t1 ∧ (warmStart s).own.tenants = s.own.tenants ∧ (warmStart s).sq.seqs = s.sq.seqs ∧
      (warmStart s).pw.wrstLow = s.pw.wrstLow := by
  obtain ⟨ks, hk⟩ := allSelfRefresh_changes (haltMovers (dropFlight (dropLink s)))
  obtain ⟨rs, fs, xs, lg, gs, hm⟩ := haltMovers_changes (dropFlight (dropLink s))
  obtain ⟨c, o, p, hl⟩ := dropLink_changes s
  unfold warmStart
  rw [hk, hm, hl]
  exact ⟨rfl, rfl, rfl, rfl⟩

/-- What a warm reset drops: the requests and the link. -/
theorem warmStart_drops (s : State) : (warmStart s).port.link = false ∧ (warmStart s).eng.reqs = [] := by
  obtain ⟨ks, hk⟩ := allSelfRefresh_changes (haltMovers (dropFlight (dropLink s)))
  obtain ⟨rs, fs, xs, lg, gs, hm⟩ := haltMovers_changes (dropFlight (dropLink s))
  unfold warmStart
  rw [hk, hm]
  exact ⟨dropLink_port_link s, rfl⟩

theorem warmStart_boot (s : State) : (warmStart s).pw.boot = .warmReset := rfl

theorem warmStart_serves (s : State) : serves (warmStart s) = false := rfl

theorem warmStart_selfRefresh (s : State) (i : Nat) (h : i < 18) : (stackOf (warmStart s) i).selfRefresh = true := by
  have hs : stackOf (warmStart s) i = stackOf (allSelfRefresh (haltMovers (dropFlight (dropLink s)))) i := by
    simp only [stackOf, warmStart, dropKeys]
  rw [hs]
  exact allSelfRefresh_selfRefresh _ i h

/-! ## What each row runs -/

theorem exec_standbyPowerUp (s : State) : exec .standbyPowerUp s = execStandbyPowerUp s := rfl
theorem exec_coldReset (s : State) : exec .coldReset s = execColdReset s := rfl
theorem exec_warmReset (s : State) : exec .warmReset s = execWarmReset s := rfl
theorem exec_resetWarm (c : Cmd) (s : State) : exec (.resetWarm c) s = execResetWarm c s := rfl
theorem exec_romBoot (v : BootSigs) (s : State) : exec (.romBoot v) s = execRomBoot v s := rfl

/-! ## ROM -/

theorem norRead_congr {s s1 : State} (h : s1.sec = s.sec) (a n : Nat) : norRead s1 a n = norRead s a n := by
  simp only [norRead, h]

theorem ownerRootVerified_congr {s s1 : State} (h : s1.sec = s.sec) (msg : Bytes) (sig : Option Signed) :
    ownerRootVerified s1 msg sig = ownerRootVerified s msg sig := by
  unfold ownerRootVerified ownerVerified ownerKey
  rw [h]

/-- ROM's checks read the fuses, the owner record and the boot flash only. -/
theorem romCheck_congr {s s1 : State} (h : s1.sec = s.sec) (v : BootSigs) : romCheck s1 v = romCheck s v := by
  simp only [romCheck, norRead_congr h, ownerRootVerified_congr h, h]

/-- PWRFAIL_N is high at a cold reset, or WRST_N at a warm one: ROM may run. -/
def romReady (s : State) : Prop := (s.pw.boot = .rom ∧ s.pw.pwrfailLow = false) ∨ (s.pw.boot = .warmReset ∧ s.pw.wrstLow = false)

/-- ROM then runs, on a state with the same secrets and the same record of a restore. -/
theorem exec_romBoot_of_romReady {s : State} (h : romReady s) (v : BootSigs) :
    ∃ s1, exec (.romBoot v) s = .next (romRun s1 v) ∧ s1.sec = s.sec ∧ s1.pw.restored = s.pw.restored := by
  rcases h with ⟨hb, hp⟩ | ⟨hb, hw⟩
  · exact ⟨{ s with pw := { s.pw with porstLow := false, thermtrip := s.pw.thermtrip && !coolEnough s, romHeld := false } },
      by simp [exec_romBoot, execRomBoot, hb, hp], rfl, rfl⟩
  · exact ⟨s, by simp [exec_romBoot, execRomBoot, hb, hw], rfl, rfl⟩

theorem romRun_void {s : State} (h : s.sec.lcs = .void) (v : BootSigs) :
    romRun s v = { s with pw.boot := .void, pw.failN := true } := by
  simp [romRun, h]

theorem romRun_of_failed {s : State} {v : BootSigs} {cause : RecCause} (hl : s.sec.lcs ≠ .void) (hc : romCheck s v = .inr cause) :
    romRun s v = { s with pw.boot := .recovery, sec.recState := 0, sec.recCause := cause, sec.recBytes := 0 } := by
  simp [romRun, hl, hc]

theorem romRun_of_good {s : State} {v : BootSigs} {h d : Bytes} (hl : s.sec.lcs ≠ .void) (hc : romCheck s v = .inl (h, d)) :
    romRun s v = romHand s h d v.train := by
  simp [romRun, hl, hc]

/-- The hand-over at a cold reset: the node boots, with the image measured, its range locked and the SVN fuses raised. -/
theorem romHand_of_cold {s : State} (hr : s.pw.restored = false) (h d : Bytes) (t : Train) :
    (romHand s h d t).pw.boot = .booting ∧ (romHand s h d t).sec.locked = true ∧ (romHand s h d t).sec.fwDig = d ∧
      (romHand s h d t).sec.svn = fld h 6 1 ∧
      (romHand s h d t).sec.svnCount = (if flagAt h 7 0 then max s.sec.svnCount (fld h 6 1) else s.sec.svnCount) := by
  simp [romHand, hr]

/-- The hand-over at a warm reset: the row itself ends the reset, and the node runs (log entry 81). -/
theorem romHand_of_warm {s : State} (hr : s.pw.restored = true) (h d : Bytes) (t : Train) :
    (romHand s h d t).pw.boot = .running := by
  simp [romHand, hr, warmFinish, upAgain_boot]

end Sys2Proof.Machine

end

section

namespace Sys2Proof.Machine

/-! ## Resets and boot, row by row -/

theorem exec_standbyPowerUp_of_off {s : State} (h : s.pw.boot = .off) :
    exec .standbyPowerUp s = .next { s with pw := { s.pw with boot := .rom, porstLow := true } } := by
  simp [exec_standbyPowerUp, execStandbyPowerUp, h]

theorem exec_standbyPowerUp_of_on {s : State} (h : s.pw.boot ≠ .off) : exec .standbyPowerUp s = .next s := by
  simp [exec_standbyPowerUp, execStandbyPowerUp, h]

theorem exec_coldReset_taken {s : State} (hb : s.pw.boot ≠ .off) (ha : s.pw.saveAct = false) :
    exec .coldReset s = .next (coldState s) := by
  simp [exec_coldReset, execColdReset, hb, ha]

theorem exec_coldReset_of_saveAct {s : State} (ha : s.pw.saveAct = true) : exec .coldReset s = .next s := by
  simp [exec_coldReset, execColdReset, ha]

theorem exec_warmReset_of_off {s : State} (h : s.pw.boot = .off) : exec .warmReset s = .next s := by
  simp [exec_warmReset, execWarmReset, h]

/-- WRST_N falls on a powered node: whether a warm reset starts does not depend on the pin itself. -/
theorem exec_warmReset_of_on {s : State} (h : s.pw.boot ≠ .off) :
    exec .warmReset s = .next (if warmable s then warmStart { s with pw := { s.pw with wrstLow := true } }
      else { s with pw := { s.pw with wrstLow := true } }) := by
  have hw : warmable { s with pw := { s.pw with wrstLow := true } } = warmable s := rfl
  simp [exec_warmReset, execWarmReset, h, hw]

theorem exec_sbCtrlWarm (s : State) : exec .sbCtrlWarm s = .next (if warmable s then warmStart s else s) := rfl

/-- RESET_WARM starts the warm reset and answers nothing (R556). -/
theorem exec_resetWarm_accepted {c : Cmd} {s s1 : State} {r : MailCmd} (h : Accepted 0x0252 .control (fun _ => 0) c s s1 r) :
    exec (.resetWarm c) s = .next (warmStart s1) := by
  simp only [exec_resetWarm, execResetWarm, mailRow_accepted h]

theorem exec_romBoot_pwrfailLow {s : State} (hb : s.pw.boot = .rom) (hp : s.pw.pwrfailLow = true) (v : BootSigs) :
    exec (.romBoot v) s = .next
      { s with pw := { s.pw with porstLow := false, thermtrip := s.pw.thermtrip && !coolEnough s, romHeld := true } } := by
  simp [exec_romBoot, execRomBoot, hb, hp]

theorem exec_romBoot_wrstLow {s : State} (hb : s.pw.boot = .warmReset) (hw : s.pw.wrstLow = true) (v : BootSigs) :
    exec (.romBoot v) s = .next s := by
  simp [exec_romBoot, execRomBoot, hb, hw]

/-- ROM has a beginning only after a cold or a warm reset. -/
theorem exec_romBoot_elsewhere {s : State} (hr : s.pw.boot ≠ .rom) (hw : s.pw.boot ≠ .warmReset) (v : BootSigs) :
    exec (.romBoot v) s = .next s := by
  simp only [exec_romBoot, execRomBoot]

section
variable {s : State} (h : romReady s) (v : BootSigs)
include h

theorem exec_romBoot_void (hl : s.sec.lcs = .void) : ∃ t, exec (.romBoot v) s = .next t ∧ t.pw.boot = .void ∧ t.pw.failN = true := by
  obtain ⟨s1, he, hs, -⟩ := exec_romBoot_of_romReady h v
  refine ⟨_, he, ?_⟩
  simp [romRun_void (hs.symm ▸ hl)]

/-- A failed check enters the recovery loader, which keeps the cause that ROM found (log entry 80). -/
theorem exec_romBoot_failed {cause : RecCause} (hl : s.sec.lcs ≠ .void) (hc : romCheck s v = .inr cause) :
    ∃ t, exec (.romBoot v) s = .next t ∧ t.pw.boot = .recovery ∧ t.sec.recCause = cause := by
  obtain ⟨s1, he, hs, -⟩ := exec_romBoot_of_romReady h v
  refine ⟨_, he, ?_⟩
  simp [romRun_of_failed (hs.symm ▸ hl) ((romCheck_congr hs v).trans hc)]

theorem exec_romBoot_good_cold {i d : Bytes} (hl : s.sec.lcs ≠ .void) (hc : romCheck s v = .inl (i, d)) (hr : s.pw.restored = false) :
    ∃ t, exec (.romBoot v) s = .next t ∧ t.pw.boot = .booting ∧ t.sec.locked = true ∧ t.sec.fwDig = d ∧ t.sec.svn = fld i 6 1 ∧
      t.sec.svnCount = (if flagAt i 7 0 then max s.sec.svnCount (fld i 6 1) else s.sec.svnCount) := by
  obtain ⟨s1, he, hs, hr1⟩ := exec_romBoot_of_romReady h v
  refine ⟨_, he, ?_⟩
  rw [romRun_of_good (hs.symm ▸ hl) ((romCheck_congr hs v).trans hc), ← hs]
  exact romHand_of_cold (hr1.trans hr) i d v.train

theorem exec_romBoot_good_warm {i d : Bytes} (hl : s.sec.lcs ≠ .void) (hc : romCheck s v = .inl (i, d)) (hr : s.pw.restored = true) :
    ∃ t, exec (.romBoot v) s = .next t ∧ t.pw.boot = .running ∧ serves t = true := by
  obtain ⟨s1, he, hs, hr1⟩ := exec_romBoot_of_romReady h v
  have hb : (romRun s1 v).pw.boot = .running := by
    rw [romRun_of_good (hs.symm ▸ hl) ((romCheck_congr hs v).trans hc)]
    exact romHand_of_warm (hr1.trans hr) i d v.train
  exact ⟨_, he, hb, serves_of_running hb⟩

end

/-! ## The obligation -/

/-- Settles O35, row by row. That ROM_BOOT itself ends a warm reset is log entry 81; the cause with which ROM enters RECOVERY is log
entry 80. -/
theorem resetsAndBootRun : Obligations.ResetsAndBootRun := by
  refine ⟨fun s => ?_, fun s => ?_, fun s => ?_, fun _ _ _ _ h => exec_resetWarm_accepted h, ?_⟩
  · obtain ⟨-, -, hA, hB, hlcs, -⟩ := coldState_keeps s
    exact ⟨exec_standbyPowerUp_of_off, exec_standbyPowerUp_of_on, rfl, rfl, rfl, rfl, hA, hB, hlcs⟩
  · exact ⟨exec_coldReset_taken, fun _ => exec_coldReset_of_saveAct,
      rfl, rfl, rfl, rfl, rfl, rfl, rfl, rfl, rfl, rfl, rfl, coldState_keeps s⟩
  · obtain ⟨ht1, htenants, hseqs, hwrst⟩ := warmStart_keeps s
    obtain ⟨hlink, hreqs⟩ := warmStart_drops s
    refine ⟨exec_warmReset_of_off, fun hb => ⟨fun hw => ?_, fun hw => ?_⟩, fun hw => ?_, fun hw => ?_, rfl, rfl,
      warmStart_boot s, warmStart_serves s, hlink, hreqs, ht1, htenants, hseqs, hwrst, warmStart_selfRefresh s⟩
    · simp [exec_warmReset_of_on hb, hw]
    · simp [exec_warmReset_of_on hb, hw]
    · simp [exec_sbCtrlWarm, hw]
    · simp [exec_sbCtrlWarm, hw]
  · exact ⟨fun v _ hb hp => exec_romBoot_pwrfailLow hb hp v, fun v _ hb hw => exec_romBoot_wrstLow hb hw v,
      fun v _ hr hw => exec_romBoot_elsewhere hr hw v, fun v _ h => ⟨exec_romBoot_void h v, fun _ => exec_romBoot_failed h v,
        fun _ _ => exec_romBoot_good_cold h v, fun _ _ => exec_romBoot_good_warm h v⟩⟩

end Sys2Proof.Machine

end

section
/-! SUPPORT. What a run of bytes reads as after it was written or cleared, and what a published span entry holds. -/

namespace Sys2Proof.Machine

/-! ## Byte memory -/

/-- Each byte of a run is read back where it was stored. -/
theorem memGet_memWrite_getElem (bs : Bytes) (i : Nat) (h : i < bs.length) (m : Mem) (a : Nat) (w : Memory.wf m = true) :
    memGet (memWrite m a bs) (a + i) = bs[i] := by
  induction bs generalizing i m a with
  | nil => simp at h
  | cons b bs ih =>
    rw [memWrite]
    cases i with
    | zero =>
      calc memGet (memWrite (memPut m a b) (a + 1) bs) a
          = memGet (memPut m a b) a := memGet_memWrite_other _ _ _ _ (.inl a.lt_succ_self)
        _ = b := memGet_memPut_same m a b w
    | succ i =>
      have hi : i < bs.length := by simpa using h
      have ha : a + (i + 1) = a + 1 + i := by omega
      rw [ha, ih i hi (memPut m a b) (a + 1) (memPut_wf m a b w), List.getElem_cons_succ]

theorem memRead_memWrite_same (m : Mem) (a : Nat) (bs : Bytes) (w : Memory.wf m = true) :
    memRead (memWrite m a bs) a bs.length = bs := by
  refine List.ext_getElem (memRead_length ..) fun i _ hi => ?_
  simpa [memRead] using memGet_memWrite_getElem bs i hi m a w

/-- Clearing keeps a listed byte that stands outside the run. -/
theorem memZero_cons (b : Nat) (v : Byte) (t : Mem) (a n : Nat) :
    memZero ((b, v) :: t) a n = if b < a ∨ a + n ≤ b then (b, v) :: memZero t a n else memZero t a n := by
  simp [memZero, List.filter_cons]

/-- A byte of a cleared run reads as the default, any other as before. -/
theorem memGet_memZero (m : Mem) (a n x : Nat) :
    memGet (memZero m a n) x = if x < a ∨ a + n ≤ x then memGet m x else memDefault := by
  induction m with
  | nil => simp [memZero, memGet]
  | cons c t ih =>
    obtain ⟨b, v⟩ := c
    by_cases hx : x = b
    · subst hx
      by_cases hb : x < a ∨ a + n ≤ x <;> simp [memZero_cons, memGet, hb, ih]
    · by_cases hb : b < a ∨ a + n ≤ b <;> simp [memZero_cons, memGet, hb, hx, ih]

theorem memRead_memZero_same (m : Mem) (a n : Nat) : memRead (memZero m a n) a n = zeros n := by
  refine List.ext_getElem (by simp [zeros]) fun i hi _ => ?_
  have hn : i < n := by rwa [memRead_length] at hi
  have hin : ¬(a + i < a ∨ a + n ≤ a + i) := by omega
  simp only [memRead, zeros, List.getElem_map, List.getElem_range, List.getElem_replicate, memGet_memZero, if_neg hin, memDefault]

/-! ## Published entries -/

/-- What `putBy` puts under a key is what is found there. -/
theorem find?_putBy_self {α : Type} {p : α → Bool} {v : α} (hv : p v = true) (xs : List α) : (putBy p v xs).find? p = some v := by
  induction xs with
  | nil => simp [putBy, hv]
  | cons x xs ih => by_cases hx : p x = true <;> simp [putBy, hx, hv, ih]

/-- The entry of a span's own identity is the first one that `Span.same` takes for it. -/
theorem spanOf_self (s : State) (x : Span) : spanOf s x.als x.layer x.head x.idx = s.sq.spans.find? x.same := by
  have hp : (fun y : Span => y.als == x.als && y.layer == x.layer && y.head == x.head && y.idx == x.idx) = x.same := by
    funext y
    simp only [Span.same, Bool.beq_comm]
  rw [spanOf, hp]

/-- SPAN_GEN with which `x` takes the place of the entry `y` (R52). -/
def nextSpanGen (x y : Span) : Nat :=
  if y.state = x.state ∧ y.bank = x.bank ∧ y.frame = x.frame then y.gen else (y.gen + 1) % 65536

/-- The published entry stands as it was given, but for its SPAN_GEN. -/
theorem spanOf_publish {s : State} {x y : Span} (h : spanOf s x.als x.layer x.head x.idx = some y) :
    spanOf (publish s x) x.als x.layer x.head x.idx = some { x with gen := nextSpanGen x y } := by
  rw [spanOf_self] at h ⊢
  have hsame : x.same { x with gen := nextSpanGen x y } = true := by simp [Span.same]
  have hput : (publish s x).sq.spans = putBy x.same { x with gen := nextSpanGen x y } s.sq.spans := by
    simp [publish, h, nextSpanGen, and_assoc]
  rw [hput, find?_putBy_self hsame]

theorem publish_sq_gen (s : State) (x : Span) : (publish s x).sq.gen = s.sq.gen + 1 := rfl

end Sys2Proof.Machine

end

section

namespace Sys2Proof.Machine

/-- Settles O59: the bytes of a run and the bytes outside it, after a write and after a clearing. -/
theorem memoryReadsWhatWasWritten : Obligations.MemoryReadsWhatWasWritten := by
  intro m a n v w
  refine ⟨memWrite_wf m a v w, memZero_wf m a n w, memRead_memWrite_same m a v w, memRead_memZero_same m a n,
    fun x hx => memGet_memWrite_other m a x v hx, fun x hx => ?_⟩
  rw [memGet_memZero, if_pos hx]

/-- Settles O58 for an entry that stands; the first SPAN_GEN of a new one is log entry 103. -/
theorem publicationsRaiseSpanGen : Obligations.PublicationsRaiseSpanGen := by
  intro s x y h
  exact ⟨publish_sq_gen s x, _, spanOf_publish h, rfl, rfl, rfl, fun heq => if_pos heq, fun hne => if_neg hne⟩

end Sys2Proof.Machine

end

section
/-! SUPPORT. Rows that name a bank, a channel or a stack: they answer where the part has it, and fault where it has not (R37). -/

namespace Sys2Proof.Machine

/-! ## Outcomes that are states -/

/-- The outcome is a next state: of `exec i s`, what `Completes i s` says. -/
def Answers (o : Host.Outcome State Fault Refusal) : Prop := ∃ t, o = .next t

theorem answers_next (t : State) : Answers (.next t) := ⟨t, rfl⟩

/-- A choice between two states is a state. -/
theorem answers_ite_next (c : Prop) [Decidable c] (t u : State) : Answers (if c then .next t else .next u) := by
  split <;> exact answers_next _

/-! ## Units by number -/

/-- A row that names one of `c` units by its number `n` answers as its meaning does where the unit is there. -/
theorem answers_of_present {n c : Nat} {o : Host.Outcome State Fault Refusal} (h : n < c) (ho : Answers o) :
    Answers (if n < c then o else .fault .noSuchBank) := by
  rwa [if_pos h]

theorem faults_of_absent {n c : Nat} (o : Host.Outcome State Fault Refusal) (h : c ≤ n) :
    (if n < c then o else .fault .noSuchBank) = .fault .noSuchBank := if_neg (Nat.not_lt.2 h)

/-- A well-formed bank operation names a bank that the part has. -/
theorem bank_lt_of_bankCmdOk {k : BankCmd} (h : bankCmdOk k = true) : k.bank < bankCount := by
  simp only [bankCmdOk, Bool.and_eq_true] at h
  obtain ⟨⟨⟨hbank, -⟩, -⟩, -⟩ := h
  exact of_decide_eq_true hbank

/-! ## Rows that send a bank one operation -/

theorem bankRow_answers (opc : Nat) {k : BankCmd} (s : State) (h : bankCmdOk k = true) : Answers (bankRow opc k s) :=
  answers_of_present (bank_lt_of_bankCmdOk h) (answers_next _)

theorem clearRow_answers {k : BankCmd} (s : State) (h : bankCmdOk k = true) : Answers (clearRow k s) :=
  answers_of_present (bank_lt_of_bankCmdOk h) (answers_ite_next ..)

/-- LOAD_REG is a CLEAR or a bank row (R123). -/
theorem execLoadReg_answers {k : BankCmd} (s : State) (h : bankCmdOk k = true) : Answers (execLoadReg k s) := by
  unfold execLoadReg
  split
  · exact clearRow_answers s h
  · exact bankRow_answers opLoad s h

theorem bankRow_faults (opc : Nat) {k : BankCmd} (s : State) (h : bankCount ≤ k.bank) : bankRow opc k s = .fault .noSuchBank :=
  faults_of_absent _ h

theorem clearRow_faults {k : BankCmd} (s : State) (h : bankCount ≤ k.bank) : clearRow k s = .fault .noSuchBank :=
  faults_of_absent _ h

theorem execLoadReg_faults {k : BankCmd} (s : State) (h : bankCount ≤ k.bank) : execLoadReg k s = .fault .noSuchBank := by
  unfold execLoadReg
  split
  · exact clearRow_faults s h
  · exact bankRow_faults opLoad s h

/-! ## Rows with branches of their own -/

theorem execMaceRepair_answers {b : Nat} (s : State) (h : b < bankCount) : Answers (execMaceRepair b s) := by
  refine answers_of_present h ?_
  split
  · exact answers_ite_next ..
  · exact answers_next s

theorem execBankRetirement_answers {b : Nat} (s : State) (h : b < bankCount) : Answers (execBankRetirement b s) := by
  refine answers_of_present h ?_
  split
  · exact answers_next s
  · split <;> exact answers_next _

theorem execBucketLeak_answers {channel : Bool} {n : Nat} (s : State) (h : n < if channel then 576 else bankCount) :
    Answers (execBucketLeak channel n s) := by
  cases channel with
  | false => exact answers_of_present h (answers_next _)
  | true => exact answers_of_present h (answers_next _)

end Sys2Proof.Machine

end

section

namespace Sys2Proof.Machine

/-- Settles O4: each row compares the number it names with the number of units before anything else; LOAD_REG is a CLEAR or a bank row. -/
theorem absentHardwareFaults : Obligations.AbsentHardwareFaults := by
  refine ⟨fun k s hk => ?_, fun b s hb => ?_, fun b e s hb => ?_, fun b e s hb => ?_, fun n s hn => faults_of_absent _ hn,
    fun n s hn => faults_of_absent _ hn, fun n ts s hn => faults_of_absent _ hn, fun n t s hn => faults_of_absent _ hn⟩
  all_goals simp only [List.forall_mem_cons, List.not_mem_nil, false_imp_iff, implies_true, and_true]
  · have hrow : ∀ opc, bankRow opc k s = .fault .noSuchBank := fun opc => bankRow_faults opc s hk
    exact ⟨hrow _, hrow _, hrow _, hrow _, hrow _, hrow _, hrow _, hrow _, hrow _, hrow _, hrow _, hrow _, hrow _, hrow _, hrow _,
      execLoadReg_faults s hk, clearRow_faults s hk, hrow _⟩
  · exact ⟨faults_of_absent _ hb, faults_of_absent _ hb, faults_of_absent _ hb, faults_of_absent _ hb⟩
  · exact ⟨faults_of_absent _ hb, faults_of_absent _ hb⟩
  · exact ⟨faults_of_absent _ hb, faults_of_absent _ hb⟩

/-- Settles O3, by the shape of each row's meaning: a choice between two states, a guard on the unit that the row names (which
well-formedness opens), a tree of branches that each end in a state, or a state outright. -/
theorem wellFormedCommandsComplete : Obligations.WellFormedCommandsComplete := by
  intro i s h
  change Answers (exec i s)
  cases i
  case ackReceived | sbStatusEvlost | sbCtrlEvflush | sbFailcauseAck | getEndpointId | getMctpVersionSupport | getMessageTypeSupport |
      setdasa | entdaa | standbyPowerUp | coldReset | coldRestore | saveCommit | appendClassTurn | attentionContextGrant |
      pepperContextGrant | scatterContextGrant | workspaceInstanceGrant | flashReadSpaceGrant | spanMovingWaitEnd | truncateZeroing |
      treeNodeRead | scoreDelivery | arrayGovernorRelease | flush | mapCheckpoint | backgroundZeroing | healthSample |
      dieTemperatureReading | appGovernorStep | powerEstimateUpdate | spanTableCheckpoint => exact answers_ite_next ..
  case spanAttend | spanQk | spanPv | pageTagCheck | pageTagWrite | sketchPage | quantStore | ropeApply | normRms | normLayer | elem |
      dotRows | distExact | fillZero | copyInBank | storeReg => exact bankRow_answers _ s h
  case clear => exact clearRow_answers s h
  case loadReg => exact execLoadReg_answers s h
  case refreshDue | refreshDone => exact answers_of_present (of_decide_eq_true h) (answers_ite_next ..)
  case bankOperationOutcome | pinAccess => exact answers_of_present (of_decide_eq_true (Bool.and_eq_true_iff.1 h).1) (answers_next _)
  case governorRelease | maceT1Frame | maceSelfRefreshWake =>
    exact answers_of_present (of_decide_eq_true (Bool.and_eq_true_iff.1 h).1) (answers_ite_next ..)
  case stackTemperatureReading => exact answers_of_present (of_decide_eq_true h) (answers_ite_next ..)
  case maceRepair => exact execMaceRepair_answers s (of_decide_eq_true h)
  case bankRetirement => exact execBankRetirement_answers s (of_decide_eq_true h)
  case bucketLeak => exact execBucketLeak_answers s (of_decide_eq_true h)
  case cmReq | cmRtu | cmDreq | cmDrep | nakReceived | ackTimeout | cnpReceived | alphaTimer | increaseTimer | increaseBytes | pfcReceived |
      pfcPauseExpiry | gateChange | arpRequest | neighborSolicitation | icmpEcho | syncReceived | syncTimeout | pdelayReqReceived |
      pdelayTimer | pdelayRespReceived | linkUp | refclkLoss | regRead | regWrite | mboxWrite | mboxRead | eventRead | setEndpointId |
      pldmSensorReading | romBoot | warmReset | cloveSave | failStop | deadlineExpiry | leaseExpiry | leaseFree | sessionExpiry |
      stubGraceExpiry | migrationLeaseRenewal | replicaRetry | peerWithdrawRetry | scoreReply | partitionStop | tilePass |
      arraySpanPassPage | flushComplete | flashReadDone | flashProgramDone | flashEraseDone | garbageCollection | readDisturb |
      readRefresh | wearLevelling | blockRepair | reKeyWalk | saveAreaErase | powerStateEntry | powerStateExit | cmRep | cmRej |
      replicaLeaseRenewal | freezeWaitExpiry | partitionTimer | jtagVendorToken | pldmBase =>
    dsimp only [exec]
    simp only [execCmReq, execCmRtu, execCmDreq, execCmDrep, execNakReceived, execAckTimeout, execCnpReceived, execAlphaTimer,
      execIncreaseTimer, execIncreaseBytes, execPfcReceived, execPfcPauseExpiry, execGateChange, execArpRequest,
      execNeighborSolicitation, execIcmpEcho, execSyncReceived, execSyncTimeout, execPdelayReqReceived, execPdelayTimer,
      execPdelayRespReceived, execLinkUp, execRefclkLoss, execRegRead, execRegWrite, execMboxWrite, execMboxRead, execEventRead,
      execSetEndpointId, execPldmSensorReading, execRomBoot, execWarmReset, execCloveSave, execFailStop, execDeadlineExpiry,
      execLeaseExpiry, execLeaseFree, execSessionExpiry, execStubGraceExpiry, execMigrationLeaseRenewal, execReplicaRetry,
      execPeerWithdrawRetry, execScoreReply, execPartitionStop, execTilePass, execArraySpanPassPage, execFlushComplete,
      execFlashReadDone, execFlashProgramDone, execFlashEraseDone, execGarbageCollection, execReadDisturb, execReadRefresh,
      execWearLevelling, execBlockRepair, execReKeyWalk, execSaveAreaErase, execPowerStateEntry, execPowerStateExit, execCmRep,
      execCmRej, execReplicaLeaseRenewal, execFreezeWaitExpiry, execPartitionTimer, execJtagVendorToken, execPldmBase]
    repeat' split
    all_goals exact answers_next _
  -- every other row's meaning is a state outright
  all_goals exact answers_next _

end Sys2Proof.Machine

end

section
/-! SUPPORT. TRUNCATE_ZEROING, and the MOVING span that it waits for (R53, R198). -/

namespace Sys2Proof.Machine

theorem exec_truncateZeroing {s : State} (h : serves s = true) (id : Req) : exec (.truncateZeroing id) s = .next (truncateZero s id) :=
  if_pos h

/-- While a span that the zeroing would write or free is MOVING, or a bank that it needs is busy, TRUNCATE_ZEROING changes nothing. -/
theorem truncateZero_of_not_zeroReady {s : State} {id : Req} {r : Rq} {q : Seq} (hr : reqOf s id = some r)
    (hq : seqAny s r.handle = some q) (hz : zeroReady s q (cmNew r.body) = false) : truncateZero s id = s := by
  simp [truncateZero, hr, hq, hz]

/-- A sequence of tenant 3 with one layer and one head. -/
def truncSeq : Seq :=
  { handle := 3 * 2 ^ 56 + 9, tenant := 3, als := 2, layers := 1, kvh := 1, dim := 1, fmt := 0, posOff := 0, seed := 0, rope := 0xFFFFFFFF,
    ctables := [] }

/-- Its first span, which a bank retirement or a migration holds MOVING. -/
def movingSpan : Span :=
  { als := 2, layer := 0, head := 0, idx := 0, tenant := 3, gen := 0, state := .moving, dim := 1, fmt := 0, strength := 0, bank := 0,
    frame := 2768 }

/-- A TRUNCATE of the sequence to length 0 (an empty body reads as zeros) whose older requests have ended. -/
def truncReq : Rq :=
  { id := .net 16, op := 0x12, prio := 0, lease := 5, tenant := 3, seq := 0, via := 1, csync := none, cmplAddr := 0, cmplRkey := 0,
    cmplQp := 0, armTime := 0, order := 0, deadline := 1, body := [], handle := truncSeq.handle, phase := .older }

/-- A running node with that sequence, span and request. -/
def movingNode : State :=
  { State.reset with pw.boot := .running, sq.seqs := [truncSeq], sq.spans := [movingSpan], eng.reqs := [truncReq] }

/-- The zeroing waits for the MOVING span (R53). -/
theorem exec_truncateZeroing_movingNode : exec (.truncateZeroing (.net 16)) movingNode = .next movingNode := by
  rw [exec_truncateZeroing rfl, truncateZero_of_not_zeroReady (r := truncReq) (q := truncSeq) rfl rfl rfl]

/-- What the statement asks for has freed the span. -/
theorem spans_appendOk_zeroAbove_movingNode : (appendOk (zeroAbove movingNode truncSeq 0) (.net 16)).sq.spans = [] := by decide

end Sys2Proof.Machine

end

section

namespace Sys2Proof.Machine

/-- Refutes O42: its clause for TRUNCATE_ZEROING has no premise that the zeroing is ready, and the row waits while a span at or above
the new length is MOVING (R53), as in `movingNode`. -/
theorem not_timersActOnTheirSubjects : ¬ Obligations.TimersActOnTheirSubjects := by
  rintro ⟨hreq, -⟩
  obtain ⟨-, -, -, hzero⟩ := hreq (.net 16) movingNode truncReq rfl rfl
  have hexec := hzero truncSeq rfl rfl rfl rfl
  rw [exec_truncateZeroing_movingNode] at hexec
  have hstate : movingNode = appendOk (zeroAbove movingNode truncSeq 0) (.net 16) := Host.Outcome.next.inj hexec
  have hspans : [movingSpan] = ([] : List Span) := (congrArg (fun s => s.sq.spans) hstate).trans spans_appendOk_zeroAbove_movingNode
  cases hspans

end Sys2Proof.Machine

end

section
/-! SUPPORT. How long the bytes are that bank operations store: fields, rows of elements, encoded rows (R46, R70). -/

namespace Sys2Proof.Machine

/-! ## Bytes and elements -/

@[simp] theorem leBytes_length (n v : Nat) : (leBytes n v).length = n := by
  induction n generalizing v with
  | zero => rfl
  | succ n ih => simp [leBytes, ih]

@[simp] theorem u32_length (v : Nat) : (u32 v).length = 4 := leBytes_length 4 v

@[simp] theorem cut_length (b : Bytes) (o n : Nat) : (cut b o n).length = n := by
  simp only [cut, zeros, List.length_append, List.length_take, List.length_drop, List.length_replicate]
  omega

theorem chunks_length {α : Type} {n : Nat} (hn : 0 < n) (k : Nat) :
    ∀ (fuel : Nat) (xs : List α), xs.length = k * n → xs.length ≤ fuel → (chunks n fuel xs).length = k := by
  induction k with
  | zero =>
    intro fuel xs hxs _
    obtain rfl := List.length_eq_zero_iff.1 (by simpa using hxs)
    cases fuel <;> rfl
  | succ k ih =>
    intro fuel xs hxs hfuel
    rw [Nat.succ_mul] at hxs
    obtain ⟨fuel, rfl⟩ := Nat.exists_eq_succ_of_ne_zero (show fuel ≠ 0 by omega)
    cases xs with
    | nil => rw [List.length_nil] at hxs; omega
    | cons x xs =>
      have hrest : ((x :: xs).drop n).length = k * n := by rw [List.length_drop]; omega
      simp only [chunks, List.length_cons, ih fuel _ hrest (by omega)]

theorem length_flatMap_leBytes {α : Type} (n : Nat) (f : α → Nat) (xs : List α) :
    (xs.flatMap fun x => leBytes n (f x)).length = xs.length * n := by
  induction xs with
  | nil => simp only [List.flatMap_nil, List.length_nil, Nat.zero_mul]
  | cons x xs ih => simp only [List.flatMap_cons, List.length_append, leBytes_length, ih, List.length_cons, Nat.succ_mul, Nat.add_comm]

/-- An element of any stored format but FP4 is a whole number of bytes. -/
theorem elemBytes_length {f : Fmt} (hf : f ≠ .mxfp4) (cs : List Nat) : (elemBytes f cs).length = cs.length * (fmtBits f / 8) := by
  cases f with
  | mxfp4 => exact absurd rfl hf
  | e4m3 | e5m2 | mxfp8 | int8 => exact (List.length_map _).trans (Nat.mul_one _).symm
  | bf16 => exact length_flatMap_leBytes 2 id cs
  | fp32 | u32 | route => exact length_flatMap_leBytes 4 id cs

theorem elemCodes_length {f : Fmt} (hf : f ≠ .mxfp4) {b : Bytes} {n : Nat} (hb : b.length = n * (fmtBits f / 8)) :
    (elemCodes f b).length = n := by
  cases f with
  | mxfp4 => exact absurd rfl hf
  | e4m3 | e5m2 | mxfp8 | int8 => simpa [elemCodes, fmtBits] using hb
  | bf16 => simpa [elemCodes, fmtBits] using chunks_length (by decide) n _ b hb (Nat.le_refl _)
  | fp32 | u32 | route => simpa [elemCodes, fmtBits] using chunks_length (by decide) n _ b hb (Nat.le_refl _)

/-! ## Rows of FP32 or BF16 elements -/

theorem wideFmt_ne_mxfp4 (f : Nat) : wideFmt f ≠ .mxfp4 := by
  unfold wideFmt
  split <;> decide

theorem fmtBits_wideFmt (f : Nat) : fmtBits (wideFmt f) / 8 = wide f := by
  unfold wideFmt wide
  split <;> rfl

@[simp] theorem rowBytes_length (f : Nat) (xs : List F32) : (rowBytes f xs).length = xs.length * wide f := by
  rw [rowBytes, elemBytes_length (wideFmt_ne_mxfp4 f), fmtBits_wideFmt, List.length_map]

@[simp] theorem rdMem_length (m : Mem) (b addr n : Nat) : (rdMem m b addr n).length = n := memRead_length ..

@[simp] theorem rdRow_length (m : Mem) (b addr n f : Nat) : (rdRow m b addr n f).length = n := by
  rw [rdRow, List.length_map, elemCodes_length (wideFmt_ne_mxfp4 f) (n := n)]
  rw [rdMem_length, fmtBits_wideFmt]

/-- Rotation moves no element in or out of the row. -/
@[simp] theorem ropeRow_length (pairing : Nat) (cs : List (F32 × F32)) (row : List F32) : (ropeRow pairing cs row).length = row.length := by
  unfold ropeRow
  refine List.foldlRecOn cs _ (motive := fun a : List F32 × Nat => a.1.length = row.length) rfl fun a ha p _ => ?_
  simpa using ha

/-! ## Rows that QUANT_STORE encodes -/

theorem kvFmt_ne_mxfp4 (f : Nat) : kvFmt f ≠ .mxfp4 := by
  unfold kvFmt
  split
  · decide
  · split <;> decide

theorem fmtBits_kvFmt {f : Nat} (hf : f < 3) : fmtBits (kvFmt f) / 8 = kvSize f := by
  have hcases : f = 0 ∨ f = 1 ∨ f = 2 := by omega
  rcases hcases with rfl | rfl | rfl <;> rfl

end Sys2Proof.Machine
end

section
/-! SUPPORT. Where a bank operation writes T1: inside the runs that its descriptor lists as written (R125, R139 to R142). -/

namespace Sys2Proof.Machine

/-! ## Runs of a bank -/

/-- Address `a` of T1 lies in the run `t` of bank `b`. -/
def InRun (b : Nat) (t : Touch) (a : Nat) : Prop := npa b 0 t.addr ≤ a ∧ a < npa b 0 t.addr + t.len

/-- Whatever byte differs between two states of T1 lies in one of the runs that are written. -/
def WritesWithin (b : Nat) (ts : List Touch) (m m' : Mem) : Prop :=
  ∀ a, memGet m' a ≠ memGet m a → ∃ t ∈ ts, t.write = true ∧ InRun b t a

section
variable {b : Nat} {ts : List Touch} {m : Mem}

@[refl] theorem WritesWithin.refl : WritesWithin b ts m m := fun _ h => absurd rfl h

theorem WritesWithin.trans {m' m'' : Mem} (h : WritesWithin b ts m m') (h' : WritesWithin b ts m' m'') : WritesWithin b ts m m'' := by
  intro a ha
  by_cases hm : memGet m'' a = memGet m' a
  · exact h a (hm ▸ ha)
  · exact h' a hm

/-- A run of bytes stored inside a run that is written. -/
theorem WritesWithin.of_wrMem {t : Touch} (ht : t ∈ ts) (hw : t.write = true) {addr : Nat} {v : Bytes} (hlo : t.addr ≤ addr)
    (hhi : addr + v.length ≤ t.addr + t.len) : WritesWithin b ts m (wrMem m b addr v) := by
  intro a ha
  refine ⟨t, ht, hw, ?_⟩
  refine Classical.byContradiction fun hout => ?_
  refine ha (memGet_memWrite_other m _ a v ?_)
  unfold InRun at hout
  unfold npa at hout ⊢
  omega

/-- Bytes stored from the start of a run that is written. -/
theorem WritesWithin.of_wrMem_run {t : Touch} (ht : t ∈ ts) (hw : t.write = true) {v : Bytes} (hv : v.length ≤ t.len) :
    WritesWithin b ts m (wrMem m b t.addr v) :=
  .of_wrMem ht hw (Nat.le_refl _) (Nat.add_le_add_left hv _)

/-- A run of bytes cleared inside a run that is written. -/
theorem WritesWithin.of_memZero {t : Touch} (ht : t ∈ ts) (hw : t.write = true) : WritesWithin b ts m (memZero m (npa b 0 t.addr) t.len) := by
  intro a ha
  refine ⟨t, ht, hw, ?_⟩
  refine Classical.byContradiction fun hout => ?_
  refine ha ((memGet_memZero ..).trans (if_pos ?_))
  unfold InRun at hout
  omega

/-- Steps along a list that each keep to the runs keep to them together. -/
theorem WritesWithin.of_foldl {α : Type} {f : Mem → α → Mem} {xs : List α} (h : ∀ x ∈ xs, ∀ m, WritesWithin b ts m (f m x)) :
    WritesWithin b ts m (xs.foldl f m) :=
  List.foldlRecOn xs f (motive := WritesWithin b ts m) .refl fun _ hm x hx => hm.trans (h x hx _)

end

/-- Entry `i` of `n` entries of `w` bytes ends within them. -/
theorem entry_ends {i n : Nat} (w : Nat) (h : i < n) : i * w + w ≤ n * w := by
  rw [← Nat.succ_mul]
  exact Nat.mul_le_mul_right w h

/-! ## What each operation writes -/

section
variable {m : Mem} {k : Bank} {d : Desc}

theorem execSpan_mem (tenant : Nat) (e : OpEnv) : (execSpan m k tenant d e).mem = m := by
  unfold execSpan
  split <;> rfl

theorem execQk_mem (tenant : Nat) (e : OpEnv) : (execQk m k tenant d e).mem = m := by
  unfold execQk
  split <;> rfl

theorem execPv_mem (tenant : Nat) (e : OpEnv) : (execPv m k tenant d e).mem = m := by
  unfold execPv
  split <;> rfl

theorem execTagCheck_mem (e : OpEnv) : (execTagCheck m k d e).mem = m := by
  unfold execTagCheck
  split <;> rfl

theorem execDist_mem : (execDist m k d).mem = m := rfl

theorem execLoad_mem (chan : Bytes) : (execLoad m k d chan).mem = m := by
  unfold execLoad
  split <;> rfl

/-- The tag of each page checked so far (R116). -/
theorem execTagWrite_writes (e : OpEnv) : WritesWithin k.id (touches k opTagWrite d) m (execTagWrite m k d e).mem := by
  have hmem : ∃ n, (execTagWrite m k d e).mem = ((descPages d).take n).foldl (fun m p =>
      wrMem m k.id (tagAddr (pageAddr d p)) (u32 (crc32c (rdMem m k.id (pageAddr d p) (descPage d))))) m := by
    unfold execTagWrite
    split <;> exact ⟨_, rfl⟩
  obtain ⟨n, hmem⟩ := hmem
  rw [hmem]
  refine .of_foldl fun p hp m => .of_wrMem (t := ⟨tagAddr (pageAddr d p), 4, true, true⟩) ?_ rfl (Nat.le_refl _) (by simp)
  exact List.mem_append_right _ (List.mem_map.2 ⟨p, List.mem_of_mem_take hp, rfl⟩)

theorem execSketch_writes (e : OpEnv) : WritesWithin k.id (touches k opSketch d) m (execSketch m k d e).mem := by
  simp only [execSketch]
  split
  · rfl
  · have hrun : (⟨sketchAddr (pageAddr d d.first), 32, true, true⟩ : Touch) ∈ touches k opSketch d :=
      List.mem_cons_of_mem _ List.mem_cons_self
    dsimp only
    exact .of_wrMem_run hrun rfl (Nat.le_of_eq (leBytes_length ..))

/-- Each row's key half and value half, in the two runs of rows (R46, R117). -/
theorem execQuant_writes (hfmt : descKv d < 3) (chan : Bytes) :
    WritesWithin k.id (touches k opQuant d) m (execQuant m k d chan).mem := by
  refine .of_foldl fun i hi m => ?_
  have hrow : (elemBytes (kvFmt (descKv d)) ((elemCodes .fp32 (cut chan (8 * headDim d.dim * i) (8 * headDim d.dim))).map
      fun c => narrow (kvFmt (descKv d)) (BitVec.ofNat 32 c))).length = 2 * (headDim d.dim * kvSize (descKv d)) := by
    rw [elemBytes_length (kvFmt_ne_mxfp4 _), fmtBits_kvFmt hfmt, List.length_map,
      elemCodes_length (by decide) (n := 2 * headDim d.dim) (by rw [cut_length]; simp [fmtBits]; omega), Nat.mul_assoc]
  have hend := entry_ends (headDim d.dim * kvSize (descKv d)) (List.mem_range.1 hi)
  refine .trans (.of_wrMem (t := ⟨pageAddr d d.first + d.arg0 * headDim d.dim * kvSize (descKv d),
      d.count * headDim d.dim * kvSize (descKv d), true, false⟩) (by simp [touches, opQuant]) rfl ?_ ?_)
    (.of_wrMem (t := ⟨pageAddr d d.first + (16 * headDim d.dim + d.arg0 * headDim d.dim) * kvSize (descKv d),
      d.count * headDim d.dim * kvSize (descKv d), true, false⟩) (by simp [touches, opQuant]) rfl ?_ ?_)
  all_goals simp only [List.length_take, List.length_drop, hrow]
  all_goals simp only [Nat.add_mul, Nat.mul_assoc] at hend ⊢
  all_goals omega

theorem execRope_writes : WritesWithin k.id (touches k opRope d) m (execRope m k d).mem := by
  refine .of_foldl fun r hr m => .of_wrMem (t := ⟨d.arg0, d.count * d.arg3 * wide d.fmt, true, false⟩) (by simp [touches, opRope]) rfl ?_ ?_
  · simp only [Nat.mul_assoc]
    omega
  · have hend := entry_ends (d.arg3 * wide d.fmt) (List.mem_range.1 hr)
    simp only [rowBytes_length, ropeRow_length, rdRow_length, Nat.mul_assoc]
    omega

/-- NORM writes its row with SUB 2 alone; SUB 0 and 1 change the accumulator block. -/
theorem execNorm_writes {opc : Nat} (layer : Bool) (hopc : opc = opNormRms ∨ opc = opNormLayer) (hsub : d.sub ≤ 2) :
    WritesWithin k.id (touches k opc d) m (execNorm m k layer d).mem := by
  simp only [execNorm]
  split
  · rfl
  · split
    · rfl
    · have h2 : d.sub = 2 := by omega
      refine .of_wrMem (t := ⟨d.arg0, d.arg3 * wide d.fmt, true, false⟩) ?_ rfl (Nat.le_refl _) (by simp)
      rcases hopc with rfl | rfl <;> simp [touches, opNormRms, opNormLayer, h2]

theorem execElem_writes : WritesWithin k.id (touches k opElem d) m (execElem m k d).mem := by
  refine .of_wrMem (t := ⟨d.arg2, d.arg3 * wide (d.fmt / 4), true, false⟩) (by simp [touches, opElem]) rfl (Nat.le_refl _) ?_
  simp only [rowBytes_length, List.length_zipWith, rdRow_length]
  exact Nat.add_le_add_left (Nat.mul_le_mul_right _ (Nat.min_le_left ..)) _

theorem execDot_writes : WritesWithin k.id (touches k opDot d) m (execDot m k d).mem := by
  simp only [execDot]
  split
  · rfl
  · next hout =>
    refine .of_wrMem (t := ⟨d.arg2, 4 * d.count, true, false⟩) (by simp [touches, opDot, hout]) rfl (Nat.le_refl _)
      (Nat.add_le_add_left (Nat.le_of_eq ?_) _)
    exact (length_flatMap_leBytes 4 _ _).trans (by rw [List.length_range, Nat.mul_comm])

/-- The frames cleared, then with SUB 1 the tags of the pages in them (R116). -/
theorem execFill_writes : WritesWithin k.id (touches k opFill d) m (execFill m k d).mem := by
  have hzero : WritesWithin k.id (touches k opFill d) m (memZero m (npa k.id d.frame 0) (4096 * d.count)) := by
    have hnpa : npa k.id d.frame 0 = npa k.id 0 (d.frame * 4096) := by simp [npa]
    rw [hnpa]
    exact .of_memZero (t := ⟨d.frame * 4096, 4096 * d.count, true, false⟩) (by simp [touches, opFill]) rfl
  simp only [execFill]
  split
  · next htags =>
    refine hzero.trans (.of_foldl fun a ha m => .of_wrMem (t := ⟨tagAddr a, 4, true, true⟩) ?_ rfl (Nat.le_refl _) (by simp))
    simpa [touches, opFill, htags] using ⟨a, ha, rfl⟩
  · exact hzero

theorem execCopy_writes : WritesWithin k.id (touches k opCopy d) m (execCopy m k d).mem := by
  simp only [execCopy]
  have hrun : (⟨d.arg1 * 4096, 4096, true, false⟩ : Touch) ∈ touches k opCopy d := by simp [touches, opCopy]
  exact .of_wrMem_run hrun rfl (Nat.le_of_eq (rdMem_length ..))

/-- STORE_REG writes T1 with SUB 1 alone; SUB 0 and 2 answer over the channel. -/
theorem execStore_writes (hsub : d.sub ≤ 2) : WritesWithin k.id (touches k opStore d) m (execStore m k d).mem := by
  simp only [execStore]
  split
  · rfl
  · split
    · rfl
    · have h1 : d.sub = 1 := by omega
      exact .of_wrMem (t := ⟨d.arg0, 64 * d.count, true, false⟩) (by simp [touches, opStore, h1]) rfl (Nat.le_refl _) (by simp)

/-! ## Any operation -/

/-- The fields of an accepted descriptor that say how an operation writes (R101, R102). -/
theorem descBad_sub {opc : Nat} (h : descBad opc d = false) (hopc : opc = opNormRms ∨ opc = opNormLayer ∨ opc = opStore) : d.sub ≤ 2 := by
  rcases hopc with rfl | rfl | rfl <;> simp [descBad, opNormRms, opNormLayer, opStore] at h <;> omega

theorem descBad_quant (h : descBad opQuant d = false) : descKv d < 3 := by
  simp [descBad, opQuant] at h
  unfold descKv
  omega

/-- An operation whose descriptor is good writes in the runs that its descriptor lists as written. -/
theorem bauWork_writes {op : QOp} (e : OpEnv) (h : descBad op.opc op.desc = false) :
    WritesWithin k.id (touches k op.opc op.desc) m (bauWork m k op e).mem := by
  obtain ⟨opc, tenant, d, chan, own, order⟩ := op
  dsimp only at h ⊢
  unfold bauWork
  dsimp only
  split
  · rw [execSpan_mem]
  · rw [execQk_mem]
  · rw [execPv_mem]
  · rw [execTagCheck_mem]
  · exact execTagWrite_writes e
  · exact execSketch_writes e
  · exact execQuant_writes (descBad_quant h) chan
  · exact execRope_writes
  · exact execNorm_writes false (.inl rfl) (descBad_sub h (.inl rfl))
  · exact execNorm_writes true (.inr rfl) (descBad_sub h (.inr (.inl rfl)))
  · exact execElem_writes
  · exact execDot_writes
  · rw [execDist_mem]
  · exact execFill_writes
  · exact execCopy_writes
  · rw [execLoad_mem]
  · exact execStore_writes (descBad_sub h (.inr (.inr rfl)))
  · rfl

/-- What an operation wrote before a fault stopped it (R125). -/
theorem wrotePart_writes (full : Mem) (b : Nat) (ts : List Touch) :
    ∀ (m : Mem) (n : Nat), WritesWithin b ts m (wrotePart m full b ts n) := by
  induction ts with
  | nil => exact fun m n => .refl
  | cons t ts ih =>
    intro m n
    have hrest : ∀ m n, WritesWithin b (t :: ts) m (wrotePart m full b ts n) := fun m n a ha =>
      let ⟨u, hu, hw⟩ := ih m n a ha
      ⟨u, List.mem_cons_of_mem t hu, hw⟩
    simp only [wrotePart]
    split
    · next hw => exact .trans (.of_wrMem_run List.mem_cons_self hw (Nat.le_trans (List.length_take_le' ..) (Nat.le_of_eq (rdMem_length ..)))) (hrest _ _)
    · exact hrest m n

/-- T1 after the die's run is what the work left, or what of it was written before a fault. -/
theorem bauExec_mem (op : QOp) (e : OpEnv) : (∃ e', (bauExec m k op e).mem = (bauWork m k op e').mem) ∨
    ∃ full n, (bauExec m k op e).mem = wrotePart m full k.id (touches k op.opc op.desc) n := by
  simp only [bauExec]
  split
  · split <;> exact .inr ⟨_, _, rfl⟩
  · exact .inr ⟨_, _, rfl⟩
  · exact .inr ⟨_, _, rfl⟩
  · exact .inl ⟨_, rfl⟩

theorem bauExec_writes {op : QOp} (e : OpEnv) (h : descBad op.opc op.desc = false) :
    WritesWithin k.id (touches k op.opc op.desc) m (bauExec m k op e).mem := by
  rcases bauExec_mem (m := m) (k := k) op e with ⟨e', hmem⟩ | ⟨full, n, hmem⟩
  · exact hmem ▸ bauWork_writes e' h
  · exact hmem ▸ wrotePart_writes full k.id _ m n

end

/-! ## The checks before issue -/

/-- An operation that passes the checks has a good descriptor, and its runs stay in the bank and off the fence (R140). -/
theorem of_preFault_eq_zero {k : Bank} {opc : Nat} {d : Desc} (h : preFault k opc d = 0) :
    descBad opc d = false ∧ ∀ t ∈ touches k opc d, t.len ≠ 0 → outside t = false ∧ fenced k t = false := by
  simp only [preFault] at h
  split at h
  · cases h
  next hrange =>
  split at h
  · cases h
  next hfence =>
  split at h
  · cases h
  split at h
  · cases h
  next hbad =>
  refine ⟨by simpa using hbad, fun t ht hlen => ?_⟩
  have hmem : t ∈ (touches k opc d).filter fun t => t.len != 0 := List.mem_filter.2 ⟨ht, by simpa using hlen⟩
  simp only [Bool.or_eq_true, not_or, List.any_eq_true, not_exists, not_and, Bool.not_eq_true] at hrange hfence
  exact ⟨hrange.2 t hmem, hfence t hmem⟩

theorem runOp_of_refused {m : Mem} {k : Bank} {op : QOp} (e : OpEnv) (h : preFault k op.opc op.desc ≠ 0) :
    (runOp m k op e).1 = { bank := bauFaulted k, mem := m, fault := preFault k op.opc op.desc } ∧
    (runOp m k op e).2.fault = preFault k op.opc op.desc := by
  simp [runOp, h]

theorem runOp_of_issued {m : Mem} {k : Bank} {op : QOp} (e : OpEnv) (h : preFault k op.opc op.desc = 0) :
    (runOp m k op e).1 = bauExec m k op e := by
  simp [runOp, h]

theorem outside_eq_false_iff (t : Touch) : outside t = false ↔ t.addr + t.len ≤ 40960 * 4096 := by
  unfold outside frameCount
  rw [decide_eq_false_iff_not, Nat.not_lt]

theorem fenced_eq_false_iff (k : Bank) (t : Touch) : fenced k t = false ↔
    ¬(max (t.addr / 4096) 720 ≤ (t.addr + t.len - 1) / 4096 ∧ max (t.addr / 4096) 720 < openBase k.id) ∧
    ¬k.sealBase ≤ (t.addr + t.len - 1) / 4096 := by
  unfold fenced
  rw [Bool.or_eq_false_iff, decide_eq_false_iff_not, decide_eq_false_iff_not]

/-- A byte of a run that stays in the bank and off the fence (R37, R139, R140). -/
theorem frame_of_inRun {k : Bank} {t : Touch} {a : Nat} (ha : InRun k.id t a) (hout : outside t = false)
    (hfence : fenced k t = false) :
    a / 2 ^ 28 = k.id ∧ a % 2 ^ 28 / 4096 < k.sealBase ∧ (a % 2 ^ 28 / 4096 < 720 ∨ openBase k.id ≤ a % 2 ^ 28 / 4096) := by
  obtain ⟨hlo, hhi⟩ := ha
  rw [outside_eq_false_iff] at hout
  rw [fenced_eq_false_iff] at hfence
  simp only [npa] at hlo hhi
  have hbank : a / 2 ^ 28 = k.id := by omega
  have hfirst : t.addr / 4096 ≤ a % 2 ^ 28 / 4096 := by omega
  have hlast : a % 2 ^ 28 / 4096 ≤ (t.addr + t.len - 1) / 4096 := by omega
  omega

end Sys2Proof.Machine
end

section

namespace Sys2Proof.Machine

/-- Settles O47: an operation writes in its listed runs, and the checks before issue keep these in the bank and off the fence. -/
theorem bankOperationsKeepToTheirFrames : Obligations.BankOperationsKeepToTheirFrames := by
  refine ⟨fun m k op e a _ ha => ?_, fun m k op e h => ?_⟩
  · by_cases h : preFault k op.opc op.desc = 0
    · rw [runOp_of_issued e h] at ha
      obtain ⟨hbad, hruns⟩ := of_preFault_eq_zero h
      obtain ⟨t, ht, -, hin⟩ := bauExec_writes e hbad a ha
      have hlen : t.len ≠ 0 := by
        obtain ⟨hlo, hhi⟩ := hin
        omega
      obtain ⟨hout, hfence⟩ := hruns t ht hlen
      exact frame_of_inRun hin hout hfence
    · rw [(runOp_of_refused e h).1] at ha
      exact absurd rfl ha
  · obtain ⟨hrun, hfault⟩ := runOp_of_refused (m := m) e h
    rw [hrun]
    exact ⟨rfl, hfault, rfl⟩

end Sys2Proof.Machine
end

section
/-! SUPPORT. The bank sequencer: what an operation put on the die leaves in its bank, and what `pump` makes of an idle bank (chapter 4). -/

namespace Sys2Proof.Machine

/-! ## Banks -/

@[simp] theorem bankOf_id (s : State) (b : Nat) : (bankOf s b).id = b := by
  unfold bankOf
  cases h : s.mem.banks.find? fun x => x.id == b with
  | none => rfl
  | some k => simpa using List.find?_some h

theorem bankOf_setBank (s : State) (k : Bank) (n : Nat) : bankOf (setBank s k) n = if k.id = n then k else bankOf s n := by
  have h := find?_putBy_key Bank.id k n s.mem.banks
  simp only [bankOf, setBank, h]
  split <;> rfl

@[simp] theorem bankOf_setStack (s : State) (k : Stack) (n : Nat) : bankOf (setStack s k) n = bankOf s n := rfl

@[simp] theorem stackOf_setBank (s : State) (k : Bank) (n : Nat) : stackOf (setBank s k) n = stackOf s n := rfl

/-! ## An operation on the die stays in its bank -/

section
variable (m : Mem) (k : Bank) (op : QOp) (e : OpEnv)

theorem execNorm_bank_id (layer : Bool) (d : Desc) : (execNorm m k layer d).bank.id = k.id := by
  simp only [execNorm]
  split
  · rfl
  · split <;> rfl

theorem bauWork_bank_id : (bauWork m k op e).bank.id = k.id := by
  unfold bauWork
  dsimp only
  split
  case h_9 | h_10 => exact execNorm_bank_id ..
  case h_1 => unfold execSpan; split <;> rfl
  case h_2 => unfold execQk; split <;> rfl
  case h_3 => unfold execPv; split <;> rfl
  case h_4 => unfold execTagCheck; split <;> rfl
  case h_5 => unfold execTagWrite; dsimp only; split <;> rfl
  case h_6 => unfold execSketch; split <;> rfl
  case h_12 => unfold execDot; dsimp only; split <;> rfl
  case h_15 => simp only [execCopy]
  case h_16 => unfold execLoad; split <;> rfl
  case h_17 =>
    unfold execStore
    split
    · rfl
    · dsimp only; split <;> rfl
  all_goals rfl

theorem bauExec_bank_id : (bauExec m k op e).bank.id = k.id := by
  simp only [bauExec]
  split
  · split <;> rfl
  · rfl
  · rfl
  · exact bauWork_bank_id ..

@[simp] theorem runOp_bank_id : (runOp m k op e).1.bank.id = k.id := by
  simp only [runOp]
  split
  · rfl
  · exact bauExec_bank_id ..

end

/-! ## An operation put on the die -/

section
variable (s : State) (k : Bank) (op : QOp) (last : Option Nat) (e : OpEnv)

theorem bankOf_startOp : ∃ out, bankOf (startOp s k op last e) k.id =
    { (runOp s.mem.t1 k op (meets s k op e)).1.bank with running := some ⟨op, out, false, e.corrected⟩, last := last, held := false } :=
  ⟨_, (bankOf_setBank ..).trans (if_pos (runOp_bank_id ..))⟩

theorem startOp_running {b : Nat} (h : k.id = b) : (bankOf (startOp s k op last e) b).running.map Running.op = some op := by
  obtain ⟨out, hbank⟩ := bankOf_startOp s k op last e
  rw [← h, hbank]
  rfl

@[simp] theorem startOp_pw : (startOp s k op last e).pw = s.pw := rfl

@[simp] theorem startOp_mem_t1 : (startOp s k op last e).mem.t1 = (runOp s.mem.t1 k op (meets s k op e)).1.mem := rfl

@[simp] theorem startOp_mem_order : (startOp s k op last e).mem.order = s.mem.order := rfl

@[simp] theorem stackOf_startOp (n : Nat) : stackOf (startOp s k op last e) n = stackOf s n := rfl

end

/-! ## CLEAR -/

/-- A CLEAR of a tenant as the sequencer makes it (R123, R503). -/
def clearOp (tenant : Nat) : QOp := ⟨opLoad, tenant, clearDesc, [], .free, 0⟩

theorem preFault_clearDesc (k : Bank) : preFault k opLoad clearDesc = 0 := by
  simp [preFault, touches, limitsOk, descBad, opLoad, clearDesc, fNone]

/-- A CLEAR touches no byte of T1, and no parity error or uncorrectable word meets it. -/
theorem runOp_clearOp (m : Mem) (k : Bank) (tenant : Nat) (e : OpEnv) :
    (runOp m k (clearOp tenant) e).1 = { bank := bauClear k, mem := m } := by
  rw [runOp_of_issued e (preFault_clearDesc k)]
  rfl

/-! ## What `pump` makes of an idle bank -/

/-- A bank that may issue: the node runs, the bank is in service and idle with no refresh or pin access, its stack is awake, and no
CLEAR is placed ahead of its queue (R65, R106, R123, R129). -/
structure Issuable (s : State) (b : Nat) : Prop where
  boot : s.pw.boot = .running
  retired : (bankOf s b).retired = false
  running : (bankOf s b).running = none
  refreshing : (bankOf s b).refreshing = false
  pins : (bankOf s b).pins = []
  awake : (stackOf s (b / 512)).selfRefresh = false
  clear : (bankOf s b).clear = false

/-- The bank served another tenant last, and holds no pass or P7 of it (R503). -/
def needsClear (k : Bank) (op : QOp) : Bool := k.pass.isNone && k.p7.isNone && k.last.isSome && k.last != some op.tenant

/-- When the leading operation of a bank became ready (R135). -/
def leadTime (s : State) (k : Bank) : Nat := if k.held then k.leadAt else s.now

/-- The governor keeps the leading operation of bank `b` from issue (R135 to R137). -/
def governed (s : State) (b : Nat) (op : QOp) : Bool :=
  let k := bankOf s b
  let st := stackOf s (b / 512)
  !ungoverned k op && (st.step == 3 || decide (creditAtTime st s.now < issueCharge k op) || earlierHeld s b (leadTime s k))

/-- The operation leaves the queue, and the stack pays for it. -/
def issueOp (s : State) (b : Nat) (op : QOp) (rest : List QOp) (e : OpEnv) : State :=
  let k := bankOf s b
  let st := stackOf s (b / 512)
  let paid := setStack s { st with credit := creditAtTime st s.now - issueCharge k op, creditAt := s.now }
  startOp paid (refill { k with queue := rest }) op (if fillsFree paid b op && k.last.isSome then k.last else some op.tenant) e

section
variable {s : State} {b : Nat} {op : QOp} {rest : List QOp} (e : OpEnv)

theorem pump_of_issuable (h : Issuable s b) (ht : takeOp s (bankOf s b) = some (op, rest)) :
    pump s b e =
      if needsClear (bankOf s b) op then startOp s (bankOf s b) (clearOp op.tenant) (some op.tenant) e
      else if governed s b op then setBank s { bankOf s b with held := true, leadAt := leadTime s (bankOf s b) }
      else if tooLong s (bankOf s b) op e then setBank s (refill { bankOf s b with queue := rest, held := false })
      else issueOp s b op rest e := by
  unfold pump
  dsimp only
  rw [if_neg (by simp [h.boot, h.retired, h.running, h.refreshing, h.pins, h.awake]), if_neg (by simp [h.clear]), ht]
  rfl

theorem issueOp_credit : (stackOf (issueOp s b op rest e) (b / 512)).credit =
    creditAtTime (stackOf s (b / 512)) s.now - issueCharge (bankOf s b) op := by
  simp [issueOp, stackOf_setStack]

theorem issueOp_running : (bankOf (issueOp s b op rest e) b).running.map Running.op = some op :=
  startOp_running _ _ _ _ _ (bankOf_id s b)

end

/-! ## The governor, and what needs no CLEAR -/

section
variable {s : State} {b : Nat} {op : QOp}

/-- A bank in a pass, or one that served this tenant or none last, needs no CLEAR (R113, R503). -/
theorem needsClear_eq_false {k : Bank} (h : k.pass ≠ none ∨ k.p7 ≠ none ∨ k.last = none ∨ k.last = some op.tenant) :
    needsClear k op = false := by
  rcases h with h | h | h | h <;> simp [needsClear, h]

theorem issueCharge_of_ungoverned {k : Bank} (h : ungoverned k op = true) : issueCharge k op = 0 := if_pos h

theorem issueCharge_of_not_ungoverned {k : Bank} (h : ungoverned k op = false) : issueCharge k op = chargeOf k op.opc op.desc :=
  if_neg (by simp [h])

theorem governed_of_ungoverned (h : ungoverned (bankOf s b) op = true) : governed s b op = false := by simp [governed, h]

/-- The three grounds on which the governor holds an operation that it governs (R135, R137). -/
theorem governed_iff (h : ungoverned (bankOf s b) op = false) : governed s b op = true ↔
    (stackOf s (b / 512)).step = 3 ∨ creditAtTime (stackOf s (b / 512)) s.now < chargeOf (bankOf s b) op.opc op.desc ∨
    earlierHeld s b (leadTime s (bankOf s b)) = true := by
  simp [governed, h, issueCharge_of_not_ungoverned h, or_assoc]

end

/-! ## What `pump` leaves alone -/

@[simp] theorem pump_pw (s : State) (b : Nat) (e : OpEnv) : (pump s b e).pw = s.pw := by
  simp only [pump]
  repeat' split
  all_goals rfl

@[simp] theorem pump_mem_order (s : State) (b : Nat) (e : OpEnv) : (pump s b e).mem.order = s.mem.order := by
  simp only [pump]
  repeat' split
  all_goals rfl

@[simp] theorem enqueue_mem_order (s : State) (b opc tenant : Nat) (d : Desc) (chan : Bytes) (own : Own) :
    (enqueue s b opc tenant d chan own).mem.order = s.mem.order + 1 := rfl

/-! ## LOAD_REG with a CLEAR descriptor -/

/-- LOAD_REG with a CLEAR descriptor is placed ahead of the queue as a CLEAR, not given to the queue (R123). -/
theorem exec_loadReg_clearDesc {k : BankCmd} {s : State} (hbank : k.bank < bankCount) (hretired : (bankOf s k.bank).retired = false)
    (hdesc : k.desc = clearDesc) :
    exec (.loadReg k) s = .next (pump (setBank s { bankOf s k.bank with clear := true }) k.bank k.env) := by
  have hclear : (decide (k.desc.sub = 2) && decide (preFault (bankOf s k.bank) opLoad k.desc = 0)) = true := by
    rw [hdesc, preFault_clearDesc]
    rfl
  change execLoadReg k s = _
  rw [execLoadReg, if_pos hclear, clearRow, if_pos hbank]
  exact if_neg (by simp [hretired])

/-- A LOAD_REG with a CLEAR descriptor, for a bank of `runningNode`. -/
def clearCmd : BankCmd := { bank := 5, tenant := 3, desc := clearDesc, chan := [], env := noEnv }

def runningNode : State := { State.reset with pw.boot := .running }

end Sys2Proof.Machine
end

section

namespace Sys2Proof.Machine

/-- Settles O45: of an idle bank that needs no CLEAR, `pump` holds the operation or issues it as the governor says. -/
theorem governorHoldsOperations : Obligations.GovernorHoldsOperations := by
  intro s b e op rest k st lead hboot hretired hrunning hrefreshing hpins hawake hclear ht hserved issued
  have hpump := pump_of_issuable e ⟨hboot, hretired, hrunning, hrefreshing, hpins, hawake, hclear⟩ ht
  rw [needsClear_eq_false hserved, if_neg Bool.false_ne_true] at hpump
  have hissued : governed s b op = false → tooLong s k op e = false → issued (issueCharge k op) := fun hgov hshort => by
    rw [hgov, if_neg Bool.false_ne_true, hshort, if_neg Bool.false_ne_true] at hpump
    simp only [issued, hpump]
    exact ⟨issueOp_credit e, issueOp_running e⟩
  refine ⟨fun hun hheld => ?_, fun hun hstep hcredit hfirst hshort => ?_, fun hun hshort => ?_⟩
  · rw [(governed_iff hun).2 hheld, if_pos rfl] at hpump
    exact hpump
  · have hgov : governed s b op = false := by
      rw [← Bool.not_eq_true, governed_iff hun]
      rintro (h | h | h)
      · exact hstep h
      · exact Nat.not_lt.2 hcredit h
      · exact Bool.false_ne_true (hfirst.symm.trans h)
    exact issueCharge_of_not_ungoverned hun ▸ hissued hgov hshort
  · exact issueCharge_of_ungoverned hun ▸ hissued (governed_of_ungoverned hun) hshort

/-- Settles O46: `pump` puts a CLEAR of the new tenant on the die, and the queue keeps the operation. -/
theorem banksClearBetweenTenants : Obligations.BanksClearBetweenTenants := by
  intro s b e op rest t k hboot hretired hrunning hrefreshing hpins hawake hclear hpass hp7 ht hlast hother
  have hneeds : needsClear k op = true := by simp [needsClear, hpass, hp7, hlast, hother]
  have hpump := pump_of_issuable e ⟨hboot, hretired, hrunning, hrefreshing, hpins, hawake, hclear⟩ ht
  rw [if_pos hneeds] at hpump
  obtain ⟨out, hbank⟩ := bankOf_startOp s k (clearOp op.tenant) (some op.tenant) e
  rw [bankOf_id, runOp_clearOp, ← hpump] at hbank
  have ht1 : (pump s b e).mem.t1 = s.mem.t1 := by rw [hpump, startOp_mem_t1, runOp_clearOp]
  dsimp only
  rw [hbank]
  exact ⟨rfl, rfl, rfl, rfl, rfl, rfl, rfl, ht1⟩

/-- Refutes O44: its list of rows has LOAD_REG with every descriptor, and one with SUB 2 is a CLEAR (R123), which takes no
number in the order of queued operations; `clearCmd` on `runningNode`. -/
theorem not_bankRowsQueueTheirOperation : ¬ Obligations.BankRowsQueueTheirOperation := by
  intro h
  have hload := (h clearCmd runningNode (by decide) rfl).1 (.loadReg, 16) (by simp)
  rw [exec_loadReg_clearDesc (by decide) rfl rfl] at hload
  have horder := congrArg (fun s => s.mem.order) (Host.Outcome.next.inj hload)
  simp at horder

end Sys2Proof.Machine
end

section
/-! SUPPORT. The rows that bring a bank an outcome, a refresh, a governor release, a pin access or a bucket tick. -/

namespace Sys2Proof.Machine

section
variable {s : State} {b : Nat} (hb : b < bankCount)
include hb

/-- An operation that ends with no correction and no fault is only told to its engine (R104). -/
theorem exec_bankOperationOutcome_good {r : Running} (hs : serves s = true) (hrun : (bankOf s b).running = some r)
    (hsus : r.suspended = false) (hcor : r.corrected = []) (hout : r.out.fault = 0) (e : OpEnv) :
    exec (.bankOperationOutcome b e) s =
      .next (settleDiscards (pump (tell (setBank s { bankOf s b with running := none }) b r.op r.out) b e)) := by
  change execBankOperationOutcome b e s = _
  simp [execBankOperationOutcome, bankEnds, hb, hs, hrun, hsus, hcor, hout]

theorem exec_governorRelease_held (h : (bankOf s b).held = true) (e : OpEnv) : exec (.governorRelease b e) s = .next (pump s b e) := by
  change execGovernorRelease b e s = _
  simp [execGovernorRelease, hb, h]

theorem exec_refreshDue_awake (hr : (bankOf s b).retired = false) (ha : (stackOf s (b / 512)).selfRefresh = false) :
    exec (.refreshDue b) s = .next (setBank s
      { bankOf s b with refreshing := true, refreshAt := (bankOf s b).refreshAt + refreshInterval s b,
                        running := (bankOf s b).running.map fun r => { r with suspended := true } }) := by
  change execRefreshDue b s = _
  rw [execRefreshDue, if_pos hb]
  exact if_neg (by simp [hr, ha])

theorem exec_refreshDone_refreshing (h : (bankOf s b).refreshing = true) :
    exec (.refreshDone b) s = .next (pump (setBank s
      { bankOf s b with refreshing := false, running := (bankOf s b).running.map fun r => { r with suspended := false } }) b noEnv) := by
  change execRefreshDone b s = _
  rw [execRefreshDone, if_pos hb]
  exact if_pos h

/-- A frame written for an engine other than a page step is written, and nobody is told (R106). -/
theorem exec_pinAccess_write {f : Nat} {v : Bytes} {own : Own} {rest : List PinJob} (hbreak : atBreak s b = true)
    (hpins : (bankOf s b).pins = ⟨f, some v, own⟩ :: rest) (hown : ∀ r i, own ≠ .page r i) (e : FrameEnv) :
    exec (.pinAccess b e) s = .next (pump (writeFrame (setBank s { bankOf s b with pins := rest }) b f v) b noEnv) := by
  change execPinAccess b e s = _
  rw [execPinAccess, if_pos hb, pinRun, if_neg (by simp [hbreak])]
  cases own with
  | page r i => exact absurd rfl (hown r i)
  | _ => simp only [hpins]

theorem exec_bucketLeak_bank : exec (.bucketLeak false b) s = .next (setBank s { bankOf s b with bucket := (bankOf s b).bucket - 1 }) :=
  if_pos hb

end

theorem exec_bucketLeak_channel {s : State} {c : Nat} (hc : c < 576) :
    exec (.bucketLeak true c) s = .next (setChannelLevel s c (channelLevel s c - 1)) := if_pos hc

end Sys2Proof.Machine
end

section
/-! SUPPORT. Derating steps, and the rows of power states and temperatures (R137, R268, R551 to R553). -/

namespace Sys2Proof.Machine

/-! ## The derating step -/

/-- How many of three rising thresholds a reading reaches. -/
def reached (a b c t : Int) : Nat := if c ≤ t then 3 else if b ≤ t then 2 else if a ≤ t then 1 else 0

section
variable {a b c t : Int} (hab : a ≤ b) (hbc : b ≤ c)
include hab hbc

theorem length_filter_reached : ([a, b, c].filter fun x => decide (x ≤ t)).length = reached a b c t := by
  by_cases hc : c ≤ t
  · simp [reached, hc, show b ≤ t by omega, show a ≤ t by omega]
  · by_cases hb : b ≤ t
    · simp [reached, hc, hb, show a ≤ t by omega]
    · by_cases ha : a ≤ t <;> simp [reached, hc, hb, ha]

/-- The step is what the reading reaches, or the old step as far as a reading less than 2 °C higher would keep it (R137, R268). -/
theorem thermalStep_eq (old : Nat) : thermalStep [a, b, c] old t = max (reached a b c t) (min old (reached a b c (t + 15))) := by
  have hkeep : ∀ x : Int, x - 16 < t ↔ x ≤ t + 15 := fun x => by omega
  simp only [thermalStep, hkeep, length_filter_reached hab hbc]

theorem lt_reached_iff {n : Nat} (hn : n < 3) : n < reached a b c t ↔ [a, b, c].getD n 0 ≤ t := by
  have hcases : n = 0 ∨ n = 1 ∨ n = 2 := by omega
  unfold reached
  rcases hcases with rfl | rfl | rfl
  · change _ ↔ a ≤ t
    repeat' split
    all_goals omega
  · change _ ↔ b ≤ t
    repeat' split
    all_goals omega
  · change _ ↔ c ≤ t
    repeat' split
    all_goals omega

end

theorem reached_le (a b c t : Int) : reached a b c t ≤ 3 := by
  unfold reached
  repeat' split
  all_goals omega

/-! ## Power states -/

/-- A search that does not end in its default ends in an entry it looks for. -/
theorem find?_getD_of_ne {α : Type} {p : α → Bool} {xs : List α} {d : α} (h : (xs.find? p).getD d ≠ d) :
    p ((xs.find? p).getD d) = true := by
  cases hx : xs.find? p with
  | none => simp [hx] at h
  | some x => exact List.find?_some hx

/-- A state other than N0 that a node may enter leaves by its wake budget (R551). -/
theorem exitUs_deepest_le {s : State} {cores : Bool} (h : deepest s cores ≠ 0) : exitUs (deepest s cores) ≤ s.pw.budgetUs := by
  have hok := find?_getD_of_ne h
  simp only [Bool.and_eq_true, decide_eq_true_eq] at hok
  obtain ⟨⟨hbudget, -⟩, -⟩ := hok
  exact hbudget

@[simp] theorem wakeStack_pw (s : State) (i : Nat) : (wakeStack s i).pw = s.pw := by
  simp only [wakeStack]
  split
  · rfl
  · exact foldl_keeps State.pw _ (fun _ _ => pump_pw ..) _ _

theorem leaveState_pstate (s : State) : (leaveState s).pw.pstate = 0 := by
  have hpw : (leaveState s).pw = { s.pw with pstate := 0 } := by
    refine foldl_keeps State.pw _ (fun s i => ?_) _ _
    split
    · exact wakeStack_pw s i
    · rfl
  rw [hpw]

/-- Training that fails nowhere sets no bank to retire (R66). -/
@[simp] theorem trainFail_none (s : State) (woke : Nat → Bool) : trainFail s {} woke = s := rfl

/-! ## Temperatures -/

@[simp] theorem toQueue_mem (s : State) (p : Nat) (f : Frame) : (toQueue s p f).mem = s.mem := by
  unfold toQueue
  split <;> rfl

@[simp] theorem send_mem (s : State) (q : Nat) (op : OutOp) (tag : AckTag) : (send s q op tag).mem = s.mem := by
  unfold send
  split
  · rfl
  · exact foldl_keeps State.mem _ (fun _ _ => toQueue_mem ..) _ _

@[simp] theorem raise_mem (s : State) (code : Nat) (data : Bytes) : (raise s code data).mem = s.mem :=
  foldl_keeps State.mem _ (fun _ _ => send_mem ..) _ _

@[simp] theorem stackOf_raise (s : State) (code : Nat) (data : Bytes) (n : Nat) : stackOf (raise s code data) n = stackOf s n := by
  simp only [stackOf, raise_mem]

/-- A stack after a reading: its hottest value, and the step that this gives (R137). -/
theorem stackOf_stackReading {ts : List Int} {t : Int} (h : hottest ts = some t) (s : State) (i : Nat) :
    (stackOf (stackReading s i ts) i).temp = some t ∧
    (stackOf (stackReading s i ts) i).step = thermalStep [704, 736, 760] (stackOf s i).step t := by
  simp only [stackReading, h]
  split <;> simp [stackOf_setStack, resettle]

/-! ## The rows -/

theorem exec_powerStateEntry {s : State} (h : serves s = true) :
    let p := deepest s.word.2 (s.word.1 % 2 == 1)
    (s.pw.pstate < p → ∃ t, exec .powerStateEntry s = .next t ∧ t.pw.pstate = p ∧ exitUs p ≤ s.pw.budgetUs) ∧
    (p ≤ s.pw.pstate → exec .powerStateEntry s = .next s.word.2) := by
  intro p
  change (_ → ∃ t, execPowerStateEntry s = _ ∧ _) ∧ (_ → execPowerStateEntry s = _)
  unfold execPowerStateEntry
  rw [if_neg (by simp [h])]
  refine ⟨fun hp => ⟨_, if_neg (Nat.not_le.2 hp), rfl, ?_⟩, fun hp => if_pos hp⟩
  exact exitUs_deepest_le (s := s.word.2) (by omega)

theorem exec_powerStateExit {s : State} (h : serves s = true) (why : WakeCause) (tr : Train) : exec (.powerStateExit ⟨why, tr⟩) s =
    .next (trainFail (leaveState s) tr fun i => (stackOf s i).selfRefresh && !(stackOf (leaveState s) i).selfRefresh) := if_pos h

theorem exec_maceSelfRefreshWake {s : State} {i : Nat} (hi : i < 18) (h : serves s = true) (hsr : (stackOf s i).selfRefresh = true)
    (tr : Train) :
    let s1 := s.at ((stackOf s i).srSince + 600 * 10 ^ 9)
    exec (.maceSelfRefreshWake ⟨i, tr⟩) s = .next (trainFail (wakeStack { s1 with pw := { s1.pw with pstate := 0 } } i) tr (· == i)) := by
  change execMaceSelfRefreshWake ⟨i, tr⟩ s = _
  rw [execMaceSelfRefreshWake, if_pos hi]
  exact if_pos (by simp [h, hsr])

theorem exec_stackTemperatureReading {s : State} {i : Nat} (hi : i < 18) (hb : s.pw.boot ≠ .off) (ts : List Int) :
    exec (.stackTemperatureReading i ts) s = .next (stackReading s i ts) := by
  change execStackTemperatureReading i ts s = _
  rw [execStackTemperatureReading, if_pos hi]
  exact if_neg (by simp [hb])

theorem exec_dieTemperatureReading {s : State} (hb : s.pw.boot ≠ .off) (t : Int) :
    exec (.dieTemperatureReading t) s = .next (dieReading s t) := if_neg (by simp [hb])

end Sys2Proof.Machine
end

section

namespace Sys2Proof.Machine

/-- Settles O39: the step goes down to what the reading reaches, and up no further than a reading 15 units higher reaches. -/
theorem deratingStepHasHysteresis : Obligations.DeratingStepHasHysteresis := by
  intro a b c old t hab hbc hold n
  have hab' : a ≤ b := by omega
  have hbc' : b ≤ c := by omega
  have hn : n = max (reached a b c t) (min old (reached a b c (t + 15))) := thermalStep_eq hab' hbc' old
  have hle := reached_le a b c t
  have hn3 : n ≤ 3 := by omega
  refine ⟨hn3, fun hc => ?_, fun ha => ?_, ?_, fun hdown => ?_⟩
  · have hreach : 2 < reached a b c t := (lt_reached_iff hab' hbc' (by decide)).2 hc
    omega
  · have hreach : ¬0 < reached a b c t := fun h => by
      have hat : a ≤ t := (lt_reached_iff hab' hbc' (by decide)).1 h
      omega
    have hkeep : ¬0 < reached a b c (t + 15) := fun h => by
      have hat : a ≤ t + 15 := (lt_reached_iff hab' hbc' (by decide)).1 h
      omega
    omega
  · refine Decidable.or_iff_not_imp_left.2 fun hup => ?_
    have hkeep : ¬n < reached a b c (t + 15) := by omega
    rw [lt_reached_iff hab' hbc' (by omega)] at hkeep
    omega
  · exact (lt_reached_iff hab' hbc' (by omega)).1 (by omega)

/-- Settles O48, row by row. -/
theorem bankEventsAdvanceTheBank : Obligations.BankEventsAdvanceTheBank := by
  intro b s hb k
  exact ⟨fun e r hs hrun hsus hcor hout => exec_bankOperationOutcome_good hb hs hrun hsus hcor hout e,
    fun e hheld => exec_governorRelease_held hb hheld e,
    fun hretired hawake => exec_refreshDue_awake hb hretired hawake,
    fun hrefreshing => exec_refreshDone_refreshing hb hrefreshing,
    fun e f v own rest hbreak hpins hown => exec_pinAccess_write hb hbreak hpins hown e,
    exec_bucketLeak_bank hb, fun c hc => exec_bucketLeak_channel hc⟩

/-- Settles O38, row by row. Idle cores are a free value (log entry 28), the row itself asserts the dwell time (log entry 83), and what
training meets is an operand (log entry 79). -/
theorem powerAndTemperatureFollowEvents : Obligations.PowerAndTemperatureFollowEvents := by
  refine ⟨fun s h => exec_powerStateEntry h, fun why s tr h => ?_, fun i s tr hi h hsr => ?_, fun a b c s h => if_pos h,
    fun ws s h => if_pos h, fun i ts t s hi hb hhot => ?_, fun t s hb => ?_⟩
  · exact ⟨leaveState_pstate s, exec_powerStateExit h why tr, by rw [exec_powerStateExit h, trainFail_none]⟩
  · exact ⟨exec_maceSelfRefreshWake hi h hsr tr, by rw [exec_maceSelfRefreshWake hi h hsr, trainFail_none]⟩
  · exact ⟨_, exec_stackTemperatureReading hi hb ts, stackOf_stackReading hhot s i⟩
  · exact ⟨_, exec_dieTemperatureReading hb t, rfl, rfl⟩

end Sys2Proof.Machine
end

section
/-! SUPPORT. FLASH_READ_SPACE_GRANT: the span pass that it starts, and the passes that waited behind it (R162, R339). -/

namespace Sys2Proof.Machine

/-- The first pass of a unit that waits for flash-read space. -/
def spacePass (w : UnitWork) : Nat := w.passes.findIdx fun p => p.stage == 4

/-- The first unit of a request with such a pass. -/
def spaceUnitOf (r : Rq) : Nat := r.units.findIdx fun u => u.passes.any fun p => p.stage == 4

/-- The request whose span pass is first to be given space (R339, R412). -/
def firstForSpace (s : State) : Option Rq :=
  (waiting s fun r => r.units.any fun u => u.passes.any fun p => p.stage == 4).find? fun r => spaceFree s r.tenant

/-- The first waiting pass `k` of request `r`, of unit `w`, has its space and is given to an array group (R165, R339). -/
def startSpacePass (s : State) (r : Rq) (w : UnitWork) (k : PassWork) : State :=
  issueArray (startDirect (setPass s r.id (spaceUnitOf r) (spacePass w) fun x => { x with stage := 1 }) r (spaceUnitOf r) (spacePass w)
    k.entry k.runs) r (spaceUnitOf r) (spacePass w) w.n k.entry k.runs

/-- Once the first waiting pass is started, the passes of its unit that waited behind it are issued (R162). -/
theorem exec_flashReadSpaceGrant_first {s : State} {r : Rq} {w : UnitWork} {k : PassWork} (hs : serves s = true)
    (hr : firstForSpace s = some r) (hw : r.units[spaceUnitOf r]? = some w) (hk : w.passes[spacePass w]? = some k) :
    exec .flashReadSpaceGrant s = .next (fillWindow (startSpacePass s r w k) r.id (spaceUnitOf r)) := by
  simp only [firstForSpace, spaceUnitOf, spacePass] at hr hw hk
  change execFlashReadSpaceGrant s = _
  rw [execFlashReadSpaceGrant, if_pos hs, spaceGrant]
  simp only [hr, hw, hk]
  rfl

/-! ## Two passes of a unit, the second behind the first -/

/-- The stage of a pass of a request's unit. -/
def passStage (s : State) (id : Req) (u p : Nat) : Option Nat := do
  let r ← reqOf s id
  let w ← r.units[u]?
  let k ← w.passes[p]?
  return k.stage

/-- The T2 copy that the spans of `flashPass` are read from. -/
def flashCopy : FObj :=
  { idx := 7, tenant := 3, kind := .span, spanId := 0, seq := 2, shape := 0, table := 0, tdig := [], gen := 0, committed := 0,
    blocks := [], index := 0 }

/-- A pass over page 0 of a FLASH_ONLY span. -/
def flashPass (idx stage : Nat) : PassWork :=
  { idx := idx, runs := [(0, 1)], stage := stage, at_ := 0, parts := none,
    entry := { als := 2, layer := 0, head := 0, idx := idx, tenant := 3, gen := 0, state := .flashOnly, dim := 1, fmt := 0, strength := 0,
               bank := 0, frame := 0, flash := some 7 } }

/-- A unit whose first pass waits for space and whose second waits behind it to be issued. -/
def queuedUnit : UnitWork := { spaceUnit with passes := [flashPass 0 4, flashPass 1 0] }
def queuedRq : Rq := { rq (.net 16) 0x01 .running [] with vers := [flashCopy], units := [queuedUnit] }

/-- The node with that request, of a tenant that holds an array group and 1 MiB of flash-read space. -/
def queuedNode : State :=
  { reqNode [queuedRq] with own := { linked.own with tenants := [{ id := 3, groups := [0], flashMib := 1 }] } }

theorem firstForSpace_queuedNode : firstForSpace queuedNode = some queuedRq := by decide +kernel

/-- The start of the first pass leaves the second as it was; the window issues it. -/
theorem passStage_startSpacePass_queuedNode :
    passStage (startSpacePass queuedNode queuedRq queuedUnit (flashPass 0 4)) queuedRq.id 0 1 = some 0 := by decide +kernel

theorem passStage_fillWindow_queuedNode :
    passStage (fillWindow (startSpacePass queuedNode queuedRq queuedUnit (flashPass 0 4)) queuedRq.id 0) queuedRq.id 0 1 = some 1 := by
  decide +kernel

end Sys2Proof.Machine
end

section

namespace Sys2Proof.Machine

/-- Refutes O43: its FLASH_READ_SPACE_GRANT clause ends with the pass that is given space, while the row also issues the passes of
the unit that waited behind it (R162); `queuedNode`. -/
theorem not_grantsGoToTheFirstWaiting : ¬ Obligations.GrantsGoToTheFirstWaiting := by
  rintro ⟨-, -, -, -, hspace, -⟩
  have hstated := hspace queuedNode queuedRq 0 0 queuedUnit (flashPass 0 4) rfl firstForSpace_queuedNode rfl rfl rfl rfl
  have hrow := exec_flashReadSpaceGrant_first rfl firstForSpace_queuedNode (w := queuedUnit) (k := flashPass 0 4) rfl rfl
  have hsame : fillWindow (startSpacePass queuedNode queuedRq queuedUnit (flashPass 0 4)) queuedRq.id 0 =
      startSpacePass queuedNode queuedRq queuedUnit (flashPass 0 4) := Host.Outcome.next.inj (hrow.symm.trans hstated)
  have hstage := passStage_fillWindow_queuedNode
  rw [hsame, passStage_startSpacePass_queuedNode] at hstage
  exact absurd hstage (by decide)

end Sys2Proof.Machine
end

section
/-! SUPPORT. Sequence and collection commands: the rows, and what each answers to an accepted command (R230, R325, R326, R384 to R386,
R392). -/

namespace Sys2Proof.Machine

/-! ## SEQ_CREATE -/

/-- The fields of a SEQ_CREATE body that describes `q` are in range, and its handle is of tenant `t` (Table 14-5). -/
structure SeqBodyOk (t : Nat) (b : Bytes) (q : Seq) : Prop where
  tenant    : fld b 7 1 = t
  layers    : inRange q.layers 1 256 = true
  layersPad : bfld b 8 2 15 9 = 0
  kvh       : inRange q.kvh 1 64 = true
  kvhPad    : bfld b 0xA 1 7 7 = 0
  dim       : q.dim ≤ 2
  fmt       : q.fmt ≤ 2
  codePad   : bfld b 0xB 1 7 4 = 0
  pad       : zeroAt b 0x20 32 = true

/-- The objects that a SEQ_CREATE of tenant `t` may name by kind and id (R385). -/
def namedBy (t : Nat) (kind : ObjKind) (id : Nat) (o : Obj) : Bool := o.kind == kind && o.id == id && o.tenant == t && !o.gone

/-- The rotary table of `q` is none, or one of the tenant's whose NPAIR is D / 2 (R385). -/
def RopeOk (s : State) (t : Nat) (q : Seq) : Prop :=
  (q.rope = 0xFFFFFFFF ∧ s.sq.objs.find? (namedBy t .rope q.rope) = none) ∨
    ∃ o, s.sq.objs.find? (namedBy t .rope q.rope) = some o ∧ fld o.bytes 0 2 = headDim q.dim / 2

/-- Every coding table of `q` is none or the tenant's (R385). -/
def TablesOk (s : State) (t : Nat) (q : Seq) : Prop :=
  ∀ k ∈ q.ctables, k = 0xFFFF ∨ s.sq.objs.any (namedBy t .table k) = true

/-- The node with a new sequence, given alias `a`; a deleted sequence of the same handle lives on under another (R386). -/
def withNewSeq (s : State) (q : Seq) (a : Nat) : State :=
  { renameGone s q.handle with sq := { (renameGone s q.handle).sq with seqs := (renameGone s q.handle).sq.seqs ++ [{ q with als := a }] } }

/-- A handle that the tenant does not hold gets a free alias, once the body and what it names have passed. -/
theorem seqCreate_new {t a : Nat} {b : Bytes} {s s2 : State} {q : Seq} (hq : q = seqOfBody b t 0 (tenantOf s t))
    (hb : SeqBodyOk t b q) (hnew : tenantSeq s t q.handle = none) (hepoch : ((tenantOf s t).map Tenant.floor).getD 0 ≤ fld b 0x1C 4)
    (hrope : RopeOk s t q) (htables : TablesOk s t q) (ha : freeAlias s = some (a, s2)) :
    seqCreate t b s = .reply (withNewSeq s2 q a) stOK (u16 a) := by
  obtain ⟨htenant, hlayers, hlayersPad, hkvh, hkvhPad, hdim, hfmt, hcodePad, hpad⟩ := hb
  have htab : (q.ctables.all fun c => c == 0xFFFF || s.sq.objs.any (namedBy t .table c)) = true := by
    simpa [TablesOk] using htables
  unfold namedBy at htab
  subst hq
  simp only [seqCreate, htenant, hlayers, hlayersPad, hkvh, hkvhPad, Nat.not_lt.2 hdim, Nat.not_lt.2 hfmt, hcodePad, hpad, hnew,
    Nat.not_lt.2 hepoch, htab, ha]
  rcases hrope with ⟨hnone, hfind⟩ | ⟨o, hfind, hpairs⟩
  · unfold namedBy at hfind
    rw [hfind]
    simp [withNewSeq, hnone]
  · unfold namedBy at hfind
    rw [hfind]
    simp [withNewSeq, hpairs]

/-! ## The rows, once their command is accepted -/

section
variable {c : Cmd} {s s1 : State} {r : MailCmd}

theorem exec_seqCreate_accepted (h : Accepted 0x0110 .tenant scNeed c s s1 r) {t : State} {st : Nat} {body : Bytes}
    (hr : seqCreate (callerTenant s1 c) r.body s1 = .reply t st body) : exec (.seqCreate c) s = .next (answered t c st body) := by
  change execSeqCreate c s = _
  simp only [execSeqCreate, mailRow_accepted h, mailCtx_tenant, hr]

theorem exec_seqDelete_unbound (h : Accepted 0x0111 .tenant (fun _ => 8) c s s1 r) {q : Seq}
    (hq : tenantSeq s1 (callerTenant s1 c) (fld r.body 0 8) = some q) (hw : q.writer = none) :
    exec (.seqDelete c) s = .next (answered (deleteSeq s1 q) c stOK []) := by
  change execSeqDelete c s = _
  simp [execSeqDelete, mailRow_accepted h, hq, hw]

theorem exec_seqEvict_held (h : Accepted 0x0113 .tenant (fun _ => 8) c s s1 r) {q : Seq}
    (hq : tenantSeq s1 (callerTenant s1 c) (fld r.body 0 8) = some q) :
    exec (.seqEvict c) s =
      .next (answered (((evictList s1 (callerTenant s1 c)).filter fun y => y.als == q.als).foldl evict s1) c stOK []) := by
  change execSeqEvict c s = _
  simp only [execSeqEvict, mailRow_accepted h, mailCtx_tenant, hq]

/-- The FLASH_ONLY spans of a sequence, in the order of an install (R326). -/
def spansToInstall (s : State) (q : Seq) : List Span :=
  sortBy (fun (a b : Span) => decide (spanId a.als a.layer a.head a.idx < spanId b.als b.layer b.head b.idx))
    (s.sq.spans.filter fun y => y.als == q.als && y.state == .flashOnly)

theorem exec_seqInstall_held (h : Accepted 0x0114 .tenant (fun _ => 8) c s s1 r) {q : Seq}
    (hq : tenantSeq s1 (callerTenant s1 c) (fld r.body 0 8) = some q) {lost : List LostBlock} {s2 : State} {st : Nat}
    (hall : installAll q.len lost (spansToInstall s1 q) s1 = (s2, st)) :
    exec (.seqInstall c lost) s = .next (answered s2 c st []) := by
  change execSeqInstall c lost s = _
  unfold spansToInstall at hall
  simp only [execSeqInstall, mailRow_accepted h, mailCtx_tenant, hq, hall]

/-- The empty collection that a COLL_CREATE body describes (R392). -/
def collOfBody (b : Bytes) (t i : Nat) : Coll :=
  { id := i, tenant := t, dim := fld b 0 2, fmt := fld b 2 1, width := 256 * 2 ^ fld b 3 1, fanout := fld b 4 1, metric := fld b 5 1,
    seed := fld b 8 8 }

theorem exec_collCreate_new (h : Accepted 0x0120 .tenant (fun _ => 16) c s s1 r) (hdim : inRange (fld r.body 0 2) 32 2048 = true)
    (hmod : fld r.body 0 2 % 32 = 0) (hfmt : [1, 2, 3, 5].contains (fld r.body 2 1) = true) (hskw : fld r.body 3 1 ≤ 2)
    (hfan : [16, 32, 64].contains (fld r.body 4 1) = true) (hmetric : fld r.body 5 1 ≤ 1) (hpad : zeroAt r.body 6 2 = true)
    {i : Nat} {s2 : State} (hfree : pickRun s1 0 4096 1 (s1.sq.colls.map fun c => (c.id, 1)) = some (i, s2)) :
    exec (.collCreate c) s = .next (answered
      { s2 with sq := { s2.sq with colls := s2.sq.colls ++ [collOfBody r.body (callerTenant s1 c) i] } } c stOK (u16 i)) := by
  obtain ⟨hlo, hhi⟩ : 32 ≤ fld r.body 0 2 ∧ fld r.body 0 2 ≤ 2048 := by simpa [inRange] using hdim
  change execCollCreate c s = _
  simp only [execCollCreate, mailRow_accepted h, mailCtx_tenant, Nat.not_lt.2 hlo, Nat.not_lt.2 hhi, hmod, hfmt, Nat.not_lt.2 hskw, hfan,
    Nat.not_lt.2 hmetric, hpad, hfree]
  rfl

theorem exec_collDestroy_held (h : Accepted 0x0121 .tenant (fun _ => 2) c s s1 r) {k : Coll}
    (hk : collOf s1 (callerTenant s1 c) (fld r.body 0 2) = some k) :
    exec (.collDestroy c) s = .next (answered (reapColls (setColl s1 { k with gone := true })) c stOK []) := by
  change execCollDestroy c s = _
  simp only [execCollDestroy, mailRow_accepted h, mailCtx_tenant, hk]

end

end Sys2Proof.Machine
end

section

namespace Sys2Proof.Machine

/-- Settles O12, row by row. Which free alias or collection id is given is a free value (log entry 6). -/
theorem sequencesAndCollections : Obligations.SequencesAndCollections := by
  refine ⟨⟨?create, ?delete, ?evict, ?install⟩, ?collCreate, ?collDestroy⟩
  case create =>
    intro c s s1 s2 r q a h hq htenant hlayers hlayersPad hkvh hkvhPad hdim hfmt hcodePad hpad hnew hepoch mine hrope htables ha
    have hbody : SeqBodyOk (callerTenant s1 c) r.body q :=
      ⟨htenant, hlayers, hlayersPad, hkvh, hkvhPad, hdim, hfmt, hcodePad, hpad⟩
    exact exec_seqCreate_accepted h (seqCreate_new hq hbody hnew hepoch hrope htables ha)
  case delete => exact fun c s s1 r q h hq hw => exec_seqDelete_unbound h hq hw
  case evict => exact fun c s s1 r q h hq => exec_seqEvict_held h hq
  case install => exact fun c lost s s1 s2 r q h hq hall => exec_seqInstall_held h hq hall
  case collCreate =>
    exact fun c s s1 s2 r i h hdim hmod hfmt hskw hfan hmetric hpad hfree =>
      exec_collCreate_new h hdim hmod hfmt hskw hfan hmetric hpad hfree
  case collDestroy => exact fun c s s1 r k h hk => exec_collDestroy_held h hk

end Sys2Proof.Machine
end

section
/-! SUPPORT. The rows of the tensor arrays and of the operations of layer plans, on a node that serves (R250, R254, R267, R274 to R282,
R606). -/

namespace Sys2Proof.Machine

section
variable {s : State}

/-! ## Arrays -/

theorem exec_tilePass_col (hs : serves s = true) {ar : Nat} {j : ArrJob} (hj : jobOn s ar = some j) {call nt : Nat}
    (hcol : j.kind = .col call nt) (sram : SramEnv) (ue : Bool) :
    exec (.tilePass ar sram ue) s = .next (tilePass s j call nt sram ue) := by
  change execTilePass ar sram ue s = _
  simp [execTilePass, hs, hj, hcol]

theorem exec_arraySpanPassPage_span (hs : serves s = true) {ar : Nat} {j : ArrJob} (hj : jobOn s ar = some j) {u p : Nat}
    (hspan : j.kind = .span u p) (e : PassEnv) :
    exec (.arraySpanPassPage ar e) s = .next (arrayPageStep s j u p e.sram e.frame) := by
  change execArraySpanPassPage ar e s = _
  simp [execArraySpanPassPage, hs, hj, hspan]

theorem exec_arrayGovernorRelease (hs : serves s = true) (g : Nat) : exec (.arrayGovernorRelease g) s = .next (dispatch s g) := by
  change execArrayGovernorRelease g s = _
  rw [execArrayGovernorRelease, if_pos hs]

/-! ## Operations of a run -/

/-- An operation that its run has reached runs. -/
theorem runRow_of_opReady (hs : serves s = true) {id : Req} {codes : List Nat} (hready : opReady s id codes ≠ none)
    (f : State → Req → State) : runRow s id codes f = f s id := by
  obtain ⟨x, hx⟩ := Option.ne_none_iff_exists'.1 hready
  simp [runRow, hs, hx]

/-- What every instruction does whose row is an operation of a run: the operation, once its run has reached it. -/
theorem exec_of_opReady {i : Instr} {id : Req} {codes : List Nat} {f : State → Req → State}
    (hrow : exec i s = .next (runRow s id codes f)) (hs : serves s = true) (hready : opReady s id codes ≠ none) :
    exec i s = .next (f s id) := by
  rw [hrow, runRow_of_opReady hs hready]

end

end Sys2Proof.Machine
end

section

namespace Sys2Proof.Machine

/-- Settles O52: the arrays' rows by the kind of the job on the array; the fourteen operations' rows differ in their code and in what they
run, and `exec_of_opReady` speaks of any. -/
theorem arraysAndPlansRun : Obligations.ArraysAndPlansRun := by
  refine ⟨?arrays, ?release, ?operations⟩
  case arrays =>
    intro ar s j hs hj
    exact ⟨fun _ _ sram ue hcol => exec_tilePass_col hs hj hcol sram ue,
      fun _ _ sram e hspan => exec_arraySpanPassPage_span hs hj hspan ⟨sram, e⟩⟩
  case release => exact fun g s hs => exec_arrayGovernorRelease hs g
  case operations =>
    intro id s hs
    and_intros <;> exact exec_of_opReady rfl hs

end Sys2Proof.Machine
end

section
/-! SUPPORT. Loads and unloads: what a handler keeps of the staged bytes, and the row that answers with it (R283, R304, R350 to R352,
R391). -/

namespace Sys2Proof.Machine

/-! ## What a load keeps -/

section
variable {t i : Nat} {b v : Bytes} {s s2 s3 : State}

/-- The layers and dimensions of a weight set are in range, and its shape and bytes fit rows or a cell mode (R261, R263). -/
structure WeightOk (o : Obj) : Prop where
  layers : inRange (wLayers o) 1 256 = true
  dimA   : wA o ≠ 0
  dimB   : wB o ≠ 0
  fits   : weightFits o = true

/-- The dimensions and the bytes of a weight set do not depend on its id. -/
theorem weightOk_setId {o : Obj} (h : WeightOk { o with id := i }) : WeightOk o :=
  ⟨h.layers, h.dimA, h.dimB, h.fits⟩

/-- A weight set without REPLACE is kept under the free id that is drawn. -/
theorem weightLoad_new (hok : WeightOk (weightObj t 0xFFFFFFFF s.eng.order b v)) (hrep : ldReplace b = 0xFFFFFFFF)
    (hid : pickRun s 0 0xFFFF 1 (usedIds s .weight) = some (i, s2))
    (hkeep : keepObj s2 { weightObj t 0xFFFFFFFF s.eng.order b v with id := i } b = some s3) :
    weightLoad t b v s = loadReply s3 { weightObj t 0xFFFFFFFF s.eng.order b v with id := i } := by
  obtain ⟨hlayers, hdimA, hdimB, hfits⟩ := hok
  simp [weightLoad, hrep, hlayers, hdimA, hdimB, hfits, hid, hkeep]

/-- The node in which the weight set `old` is replaced; its frames go once no run armed before `o` reads them (R287). -/
def withReplaced (s : State) (old o : Obj) : State :=
  let out := fun (x : Obj) => { x with gone := true, died := some o.born }
  weightRelease { s with sq := { s.sq with objs := mapIf (fun x => x == old) out s.sq.objs } }

/-- A weight set with REPLACE takes the place of the tenant's set of that id, whose stored object goes first (log entry 68). -/
theorem weightLoad_replace {o old : Obj} (ho : o = weightObj t (ldReplace b) s.eng.order b v) (hok : WeightOk o)
    (hrep : ldReplace b ≠ 0xFFFFFFFF) (hold : weightOf s t (ldReplace b) = some old)
    (hshape : planNames s t (ldReplace b) = false ∨ sameShape old o = true)
    (hkeep : (keepObj (unstore s .weight (ldReplace b)) o b).bind (fun s => copyNew s o) = some s3) :
    weightLoad t b v s = loadReply (withReplaced s3 old o) o := by
  obtain ⟨hlayers, hdimA, hdimB, hfits⟩ := hok
  have hfree : (planNames s t (ldReplace b) && !sameShape old o) = false := by
    rcases hshape with h | h <;> simp [h]
  simp [weightLoad, ← ho, hlayers, hdimA, hdimB, hfits, hrep, hold, hfree, hkeep, withReplaced]

/-- A table, an image or a plan whose frames and T2 units fit is kept under the free id that is drawn. -/
theorem tableLike_kept {k : ObjKind} {top : Nat} {digest : Bytes → Bytes} (hid : pickRun s 0 top 1 (usedIds s k) = some (i, s2))
    (hkeep : keepObj s2 { kind := k, id := i, tenant := t, bytes := v, digest := digest v, store := 2 } b = some s3) :
    tableLike k top digest t b v s =
      loadReply s3 { kind := k, id := i, tenant := t, bytes := v, digest := digest v, store := 2 } := by
  simp only [tableLike, hid, hkeep]

/-- A plan whose header, records, names and weight sets pass is loaded as a table is (R283, R287). -/
theorem planLoad_valid (hhead : headerOk v = true) (hrecords : ((planRecords v).all fun r => recordOk v r.1) = true)
    (hnames : ((planRecords v).any fun r => namesMissing s t r.1) = false)
    (hweights : ((planRecords v).all fun r => weightsOk s t v r.1 r.2) = true) :
    planLoad t b v s = tableLike .plan 256 sha3 t b v s := by
  simp only [planLoad, hhead, hrecords, hnames, hweights]
  rfl

end

/-! ## The rows -/

section
variable {c : Cmd} {s s1 : State} {r : MailCmd}

/-- What every instruction does whose row is a load: it answers the id and the digest of the object that its handler keeps. -/
theorem exec_of_loadReply {j : Instr} {code : Nat} {w : Bool} {v d : Bytes} {f : Nat → Bytes → Bytes → State → MailRes}
    (hrow : exec j s = .next (loadRow code w f c s)) (h : LoadTaken code w c s s1 r v) {t : State} {o : Obj} {i : Nat}
    (hf : f (callerTenant s1 c) r.body v (settleLease s1 (fld r.body 0 2)) = loadReply t o) (hid : o.id = i) (hd : o.digest = d) :
    exec j s = .next (answered t c stOK (u32 i ++ zeros 4 ++ cut d 0 32)) := by
  rw [hrow, loadRow_taken h, hf, loadReply, hid, hd]

theorem exec_planUnload_loaded (h : Accepted 0x0132 .tenant (fun _ => 2) c s s1 r) {o : Obj}
    (ho : planOf s1 (callerTenant s1 c) (fld r.body 0 2) = some o) :
    exec (.planUnload c) s = .next (answered (planRelease
      (unstore { s1 with sq := { s1.sq with objs := mapIf (fun y => y == o) (fun y => { y with gone := true }) s1.sq.objs } }
        .plan (fld r.body 0 2)) (callerTenant s1 c) (fld r.body 0 2)) c stOK []) := by
  change execPlanUnload c s = _
  simp only [execPlanUnload, mailRow_accepted h, mailCtx_tenant, ho]

/-- A coding table goes unless a version on the node is coded with it (R351). -/
theorem exec_tableUnload_unused (h : Accepted 0x0135 .tenant (fun _ => 2) c s s1 r) {o : Obj}
    (ho : s1.sq.objs.find? (namedBy (callerTenant s1 c) .table (fld r.body 0 2)) = some o) (hu : tableUsed s1 o = false) :
    exec (.tableUnload c) s =
      let s2 := freeOwned (unstore s1 .table (fld r.body 0 2)) .table (callerTenant s1 c) (objOwner o)
      .next (answered { s2 with sq := { s2.sq with objs := s2.sq.objs.erase o } } c stOK []) := by
  unfold namedBy at ho
  change execTableUnload c s = _
  simp [execTableUnload, mailRow_accepted h, ho, hu]

end

end Sys2Proof.Machine
end

section

namespace Sys2Proof.Machine

/-- Settles O14, row by row. A set with REPLACE is judged against the T2 units left once the stored object it replaces is deleted (log
entry 68). -/
theorem objectsAreLoadedAndUnloaded : Obligations.ObjectsAreLoadedAndUnloaded := by
  refine ⟨⟨?weight, ?replace, ?plan, ?rope, ?table, ?service⟩, ?planUnload, ?tableUnload⟩
  case weight =>
    intro c s s1 s2 s3 r v i o h s0 t ho _ _ _ hlayers hdimA hdimB hfits hrep hid hkeep
    subst ho
    have hok := weightOk_setId ⟨hlayers, hdimA, hdimB, hfits⟩
    exact exec_of_loadReply rfl h (weightLoad_new hok hrep hid hkeep) rfl rfl
  case replace =>
    intro c s s1 s3 r v old o h s0 t i ho hrep _ _ _ hlayers hdimA hdimB hfits hold hshape hkeep
    have hok : WeightOk o := ⟨hlayers, hdimA, hdimB, hfits⟩
    exact exec_of_loadReply rfl h (weightLoad_replace ho hok hrep hold hshape hkeep) (by rw [ho]; rfl) (by rw [ho]; rfl)
  case plan =>
    intro c s s1 s2 s3 r v i o h s0 t ho hhead hrecords hnames hweights hid hkeep
    subst ho
    have hload := (planLoad_valid hhead hrecords hnames hweights).trans (tableLike_kept hid hkeep)
    exact exec_of_loadReply rfl h hload rfl rfl
  case rope =>
    intro c s s1 s2 s3 r v i h s0 hvalid hid hkeep
    exact exec_of_loadReply rfl h ((if_pos hvalid).trans (tableLike_kept hid hkeep)) rfl rfl
  case table =>
    intro c s s1 s2 s3 r v i h s0 hvalid hid hkeep
    exact exec_of_loadReply rfl h ((if_pos hvalid).trans (tableLike_kept hid hkeep)) rfl rfl
  case service =>
    intro c sig s s1 s2 s3 r v i h s0 hvalid hsig hid hkeep
    have hpass : (imageOk v && ownerVerified s0 serviceKeyOff (imageDigest v) sig) = true := by rw [hvalid, hsig]; rfl
    exact exec_of_loadReply rfl h ((if_pos hpass).trans (tableLike_kept hid hkeep)) rfl rfl
  case planUnload => exact fun c s s1 r o h ho => exec_planUnload_loaded h ho
  case tableUnload => exact fun c s s1 r o h ho hu => exec_tableUnload_unused h ho hu

end Sys2Proof.Machine
end

section
/-! SUPPORT. The rows of partitions and of their SCOREs: what each does once its actions have run, a stop by its restarts, and a delivery
and a good reply word by the ring entry (R298, R305, R312 to R314, R317). -/

namespace Sys2Proof.Machine

/-! ## Partitions -/

section
variable {s s1 : State} {k : Partition} {p : Nat}

/-- The restarts that lie in the 3,600 s before the partition has halted (R317). -/
def recentRestarts (s : State) (k : Partition) : List Nat :=
  k.restarts.filter fun t => decide ((haltPartition s k).now < t + 3600 * 10 ^ 9)

theorem partitionStops_spent (hk : partOf s p = some k) (hspent : k.restartMax ≤ (recentRestarts s k).length) :
    partitionStops s p = stopEvent (haltPartition s k) k false := by
  unfold recentRestarts at hspent
  simp [partitionStops, hk, Nat.not_lt.2 hspent, -Nat.reducePow, -Nat.reduceMul]

theorem partitionStops_restarts (hk : partOf s p = some k) (hleft : (recentRestarts s k).length < k.restartMax) {o : Obj}
    (ho : imageOf (haltPartition s k) k.tenant k.image = some o) {q : Partition} {t : State}
    (hstart : startPartition (haltPartition s k) o (some k.id) (recentRestarts s k ++ [(haltPartition s k).now]) = some (q, t)) :
    partitionStops s p = stopEvent t k true := by
  unfold recentRestarts at hleft hstart
  simp [partitionStops, hk, hleft, ho, hstart, -Nat.reducePow, -Nat.reduceMul]

theorem exec_serviceStart_placed {c : Cmd} {r : MailCmd} (h : Accepted 0x0137 .tenant (fun _ => 4) c s s1 r) {o : Obj}
    (ho : imageOf s1 (callerTenant s1 c) (fld r.body 0 4) = some o) (hlost : o.lost = false) (hclock : clockOk s1 = true)
    (harea : noSaveArea s1 = false) {q : Partition} {t : State} (hstart : startPartition s1 o none [] = some (q, t)) :
    exec (.serviceStart c) s = .next (answered t c stOK (u8 q.id)) := by
  change execServiceStart c s = _
  simp [execServiceStart, mailRow_accepted h, ho, hlost, hclock, harea, hstart]

theorem exec_serviceStop_held {c : Cmd} {r : MailCmd} (h : Accepted 0x0138 .tenant (fun _ => 1) c s s1 r)
    (hk : partOf s1 (fld r.body 0 1) = some k) (htenant : k.tenant = callerTenant s1 c) :
    exec (.serviceStop c) s = .next (answered (stopPartition s1 k.id) c stOK []) := by
  change execServiceStop c s = _
  simp [execServiceStop, mailRow_accepted h, hk, htenant]

variable {acts : List GuestOp}

/-- The actions leave the partition running; the system reset that follows them stops it. -/
theorem exec_partitionStop_reset (hs : serves s = true) (hrun : guestRun p acts s = (s1, false)) :
    exec (.partitionStop ⟨p, acts⟩) s = .next (saveCfg (partitionStops s1 p)) := by
  change execPartitionStop ⟨p, acts⟩ s = _
  simp [execPartitionStop, hs, hrun]

theorem exec_partitionTimer_due (hs : serves s = true) (hrun : guestRun p acts s = (s1, false)) (hk : partOf s1 p = some k)
    {core : Nat} {x : CoreSt} (hx : (k.cores.find? fun c => c.num == core) = some x) {t : Nat} (ht : x.timerAt = some t) :
    exec (.partitionTimer ⟨p, core, acts⟩) s =
      .next (leaveState (mapCore (s1.at t) p core fun c => { c with timerAt := none, timerInt := true })) := by
  change execPartitionTimer ⟨p, core, acts⟩ s = _
  simp [execPartitionTimer, hs, hrun, hk, hx, ht]

end

/-! ## SCOREs -/

section
variable {s s1 : State} {k : Partition} {p : Nat} {r : Rq}

/-- The interrupt is raised on the first of the cores, if there is one. -/
theorem extRaise_eq (k : Partition) :
    extRaise k = { k with cores := (k.cores.take 1).map (fun c => { c with extInt := true }) ++ k.cores.drop 1 } := by
  unfold extRaise
  cases k.cores <;> rfl

/-- Delivery `n` of a partition: SCORE `r` stands in its entry, bytes first and word last, and runs there (R312, R313). -/
def withDelivery (s : State) (p : Nat) (k : Partition) (r : Rq) : State :=
  let n := (k.delivered + 1) % 2 ^ 32
  let e := n % k.entries
  mapReq
    (mapPart (ringWrite (ringWrite s p e 8 (ringBytes r)) p e 0 (u64 (n + r.lease * 2 ^ 32 + r.seq * 2 ^ 48))) p
      fun k => extRaise { k with delivered := n, ring := k.ring ++ [⟨e, n, r.id⟩] })
    r.id fun r => { r with phase := .running, place := e }

theorem scoreDeliver_free (hk : partOf s p = some k) {rest : List Rq}
    (hwait : (waiting s fun r => r.op == 0x31 && r.phase == .ring && scService r.body == p) = r :: rest)
    (hfree : (k.ring.any fun x => x.entry == (k.delivered + 1) % 2 ^ 32 % k.entries) = false) :
    scoreDeliver s p = withDelivery s p k r := by
  simp only [scoreDeliver, hk, hwait, hfree, Bool.false_eq_true, ↓reduceIte, withDelivery]

/-- What an answer of `rlen` bytes sends: the bytes, unless there are none, and then the fetch-add that the SCORE asks for (R314). -/
def sendAnswer (s : State) (r : Rq) (rlen : Nat) (v : Bytes) : State :=
  let b := r.body
  let s := if rlen = 0 then s else emit s r (fld b 0x24 4) (fld b 0x18 8) (fld b 0x20 4) v
  if flagAt b 0xD 0 then emitAdd s r (fld b 0x24 4) (fld b 0x28 8) (fld b 0x20 4) else s

/-- A reply word of status OK whose delivery number stands in its entry completes that SCORE with the bytes of the entry (R314). -/
theorem scoreReply_ok {e w : Nat} (hk : partOf s p = some k) (he : e < k.entries) {x : RingEnt}
    (hx : (k.ring.find? fun x => x.entry == e && x.delivery == w % 2 ^ 32) = some x)
    (hr : reqOf (ringWrite s p e 0xFF8 (u64 w)) x.req = some r) (hst : bits w 63 56 = stOK) (hlen : bits w 55 46 ≤ scRes r.body) :
    scoreReply s p e w =
      let rlen := bits w 55 46
      let t := ringFree (ringWrite s p e 0xFF8 (u64 w)) p r.id
      finish (mapReq (sendAnswer t r rlen (memRead k.mem (ringAddr e + 0xC80) rlen)) r.id
        fun r => { r with count := rlen, detail := 0 }) r.id stOK := by
  have hown : serviceStatus.contains stOK = true := by decide
  have hdetail : stOK ≠ stLOST := by decide
  simp [scoreReply, hk, Nat.not_le.2 he, hx, hr, hst, Nat.not_lt.2 hlen, hown, hdetail, sendAnswer, -Nat.reducePow,
    -List.contains_eq_mem]

theorem exec_scoreDelivery (hs : serves s = true) (p : Nat) : exec (.scoreDelivery p) s = .next (scoreDeliver s p) := if_pos hs

theorem exec_scoreReply_stored {acts : List GuestOp} (hs : serves s = true) (hrun : guestRun p acts s = (s1, false)) (e : Nat)
    (w : W64) : exec (.scoreReply p e ⟨w, acts⟩) s = .next (scoreReply s1 p e w.toNat) := by
  change execScoreReply p e ⟨w, acts⟩ s = _
  simp [execScoreReply, hs, hrun]

end

end Sys2Proof.Machine
end

section

namespace Sys2Proof.Machine

/-- Settles O15, row by row. Unlike a start, a restart asks nothing of the clock (R317, log entry 58). -/
theorem partitionsAndScores : Obligations.PartitionsAndScores := by
  refine ⟨⟨?start, ?stop, ?ownStop, ?timer⟩, ?delivery, ?reply⟩
  case start => exact fun c s s1 s2 r o p h ho hlost hclock harea hstart => exec_serviceStart_placed h ho hlost hclock harea hstart
  case stop => exact fun c s s1 r k h hk htenant => exec_serviceStop_held h hk htenant
  case ownStop =>
    intro p acts s0 s k past hs hrun hk hpast
    subst hpast
    have hrow := exec_partitionStop_reset hs hrun
    refine ⟨fun hspent => ?_, fun o q t hleft ho hstart => ?_⟩
    · rw [hrow, partitionStops_spent hk hspent]
    · rw [hrow, partitionStops_restarts hk hleft ho hstart]
  case timer => exact fun p core acts s0 s k x t hs hrun hk hx ht => exec_partitionTimer_due hs hrun hk hx ht
  case delivery =>
    intro p s k r rest hs hk hwait hfree n e
    rw [exec_scoreDelivery hs, scoreDeliver_free hk hwait hfree]
    simp only [withDelivery, extRaise_eq]
    rfl
  case reply =>
    intro p e w acts s0 s s1 k x r hs hrun hk he hs1 hx hr hst hlen
    subst hs1
    rw [exec_scoreReply_stored hs hrun, scoreReply_ok hk he hx hr hst hlen]
    rfl

end Sys2Proof.Machine
end

section
/-! SUPPORT. The rows of replicas and of the sessions that carry them: what each does once its command is accepted, or its time has come on a
node that serves (R334, R337, R338, R509). -/

namespace Sys2Proof.Machine

section
variable {c : Cmd} {s s1 : State} {r : MailCmd}

/-! ## Mailbox rows -/

/-- What every instruction does whose row is a mailbox command: it answers what its handler replies. -/
theorem exec_of_reply {i : Instr} {code : Nat} {k : MailKind} {need : Bytes → Nat} {f : MailCtx → Bytes → State → MailRes}
    (hrow : exec i s = .next (mailRow code k need f c s)) (h : Accepted code k need c s s1 r) {t : State} {st : Nat} {body : Bytes}
    (hf : f ⟨c.box, callerQp s1 c, boxRole s1 c.box⟩ r.body s1 = .reply t st body) :
    exec i s = .next (answered t c st body) := by
  rw [hrow, mailRow_accepted h, hf]

/-! ## REPLICA_PROMOTE and REPLICA_DROP -/

/-- Tenant `t` may promote sequence `seq` of source `src`: it holds objects of it, that source writes no more, and the handle is the tenant's
and stands for no sequence or for an empty one of its own (R338, log entry 61). -/
structure Promotable (s : State) (t src seq : Nat) : Prop where
  handle : seq / 2 ^ 56 = t
  paired : s.fl.withdrawn.contains (t, src) = false
  held   : replicasOf s t src seq ≠ []
  ended  : sourceLive s (replicasOf s t src seq) = false
  free   : ∀ x, seqOf s seq = some x → x.len = 0 ∧ x.tenant = t ∧ (s.sq.spans.any fun y => y.als == x.als) = false

/-- A promoted sequence, with the bound and the durability domain of the tenant that holds it now (R338). -/
def asPromoted (k : Option Tenant) : Seq → Seq := fun x =>
  { x with promoted := true, incoming := none, bound := (k.map Tenant.bound).getD x.bound, domain := (k.map Tenant.domain).getD x.domain }

/-- The node in which sequence `q` has taken the objects that tenant `t` held for sequence `seq` of source `src`. -/
def withPromoted (s : State) (t src seq : Nat) (q : Seq) (vs : List FObj) : State :=
  let s1 := adopt s q vs (heldLen s vs q.layers q.kvh)
  let s2 := mapSeq s1 q.als (asPromoted (tenantOf s1 t))
  { s2 with fl := { s2.fl with promoted := s2.fl.promoted ++ [(src, seq)] } }

/-- What REPLICA_PROMOTE answers once the objects are taken: the durability record of the sequence. -/
def durabilityReply (s : State) : Option Seq → MailRes
  | some q => .reply s stOK (durBytes s q)
  | none => .reply s stINTERNAL []

theorem exec_replicaPromote_held (h : Accepted 0x0116 .tenant (fun _ => 16) c s s1 r) (hpad : zeroAt r.body 10 6 = true) {t src seq : Nat}
    (ht : t = callerTenant s1 c) (hsrc : src = fld r.body 8 2) (hseq : seq = fld r.body 0 8) (hok : Promotable s1 t src seq) {q : Seq}
    {s2 s3 : State} (hq : promoteSeq s1 t seq (replicasOf s1 t src seq) = some (q, s2))
    (hs3 : s3 = withPromoted s2 t src seq q (replicasOf s1 t src seq)) {x : Seq} (hx : seqOf s3 seq = some x) :
    exec (.replicaPromote c) s = .next (answered s3 c stOK (durBytes s3 x)) := by
  subst ht hsrc hseq hs3
  obtain ⟨hhandle, hpaired, hheld, hended, hfree⟩ := hok
  refine exec_of_reply rfl h
    ((if_neg ?named).trans ((if_neg ?paired).trans ((if_neg ?held).trans ((if_neg ?ended).trans ((if_neg ?free).trans ?taken)))))
  case named => simp [hpad, hhandle, -Nat.reducePow]
  case paired => simpa using hpaired
  case held => simp [hheld]
  case ended => simp [hended]
  case free =>
    cases hs : seqOf s1 (fld r.body 0 8) with
    | none => simp
    | some y =>
      obtain ⟨hlen, htenant, hspans⟩ := hfree y hs
      simp [hlen, htenant, hspans]
  case taken =>
    rw [mailCtx_tenant, hq]
    exact congrArg (durabilityReply _) hx

/-- The objects that tenant `t` holds for any sequence of source `src`. -/
def replicaOfSource (t src : Nat) (v : FObj) : Bool :=
  v.tenant == t && (match v.kind with | .replica a _ _ => a == src | _ => false)

/-- REPLICA_DROP of the whole tenant deletes what the source sent, and withdraws the pair (R338). -/
theorem exec_replicaDrop_whole (h : Accepted 0x0117 .tenant (fun _ => 16) c s s1 r) (hpad : zeroAt r.body 10 6 = true)
    (hseq : fld r.body 0 8 = wholeTenant (callerTenant s1 c)) :
    exec (.replicaDrop c) s =
      let s2 := (s1.fl.objs.filter (replicaOfSource (callerTenant s1 c) (fld r.body 8 2))).foldl (fun s v => deleteObj s v.idx) s1
      .next (answered { s2 with fl := { s2.fl with withdrawn := s2.fl.withdrawn ++ [(callerTenant s1 c, fld r.body 8 2)] } } c stOK []) := by
  change execReplicaDrop c s = _
  simp only [execReplicaDrop, mailRow_accepted h, mailCtx_tenant, hpad, hseq]
  rfl

theorem exec_replicaDrop_sequence (h : Accepted 0x0117 .tenant (fun _ => 16) c s s1 r) (hpad : zeroAt r.body 10 6 = true)
    (hseq : fld r.body 0 8 ≠ wholeTenant (callerTenant s1 c))
    (hheld : replicasOf s1 (callerTenant s1 c) (fld r.body 8 2) (fld r.body 0 8) ≠ []) :
    exec (.replicaDrop c) s = .next (answered
      ((replicasOf s1 (callerTenant s1 c) (fld r.body 8 2) (fld r.body 0 8)).foldl (fun s v => deleteObj s v.idx) s1) c stOK []) := by
  change execReplicaDrop c s = _
  simp [execReplicaDrop, mailRow_accepted h, hpad, hseq, hheld]

end

/-! ## The tenant's replica session -/

section
variable {s : State} {tn : Nat}

/-- The node at the retry that is due for tenant `tn`, with the next one entered 100 ms later (R337). -/
def withNextRetry (s : State) (tn : Nat) (k : Tenant) : State :=
  let s0 := s.at (((s.fl.retries.find? fun r => r.tenant == tn).map Retry.next).getD 0)
  { s0 with fl := { s0.fl with
      retries := (s0.fl.retries.filter fun r => r.tenant != tn) ++ [⟨tn, s0.now + 100000000, 0, [], k.replica, []⟩] } }

/-- A retry on a standing connection first settles the PUTs that are late (log entry 115). It then goes on with the flushes, under the lease
held or under one that it asks for anew, unless the credential has run out. -/
theorem exec_replicaRetry_connected (hs : serves s = true) {k : Tenant} (hk : tenantOf s tn = some k) (hdomain : k.domain = 1)
    (hdying : k.dying = false) {q : Qp} (hq : replicaQp (withNextRetry s tn k) tn = some q) (hconn : q.state = .connected) {t : State}
    (ht : t = settlePuts (putTimeouts (withNextRetry s tn k) q.num)) {p : Peer} (hp : peerFor t tn none = some p) :
    exec (.replicaRetry tn) s = .next
      (if p.lease.isSome then putFlushes t tn
       else if k.replicaNotAfter ≤ t.now then t
       else putFlushes (peerAgain t p k.replicaNotAfter k.replicaSig) tn) := by
  subst ht
  change execReplicaRetry tn s = _
  cases hr : s.fl.retries.find? fun r => r.tenant == tn
  all_goals
    simp only [withNextRetry, hr, Option.map_none, Option.map_some, Option.getD_none, Option.getD_some] at hq hp ⊢
    simp only [execReplicaRetry, hs, hk, hdomain, hdying, hr, hq, hconn, hp]
    exact (if_neg Bool.false_ne_true).trans ((if_pos rfl).trans (apply_ite Host.Outcome.next _ _ _).symm)

theorem exec_replicaLeaseRenewal_peer (hs : serves s = true) {p : Peer} (hp : peerFor s tn none = some p) :
    exec (.replicaLeaseRenewal tn) s = .next (renewPeer s p) := by
  change execReplicaLeaseRenewal tn s = _
  simp only [execReplicaLeaseRenewal, hp, hs, ↓reduceIte]

/-- The node no longer owes tenant `tn`'s peer a withdrawal, and forgets that peer. -/
def withoutPeer (s : State) (tn : Nat) : State :=
  { s with fl := { s.fl with
      withdraw := s.fl.withdraw.filter fun x => x.tenant != tn,
      peers := s.fl.peers.filter fun p => !(p.tenant == tn && p.mig.isNone) } }

/-- The peer has been told and nothing sent to it is unacknowledged: the connection is ended (R509). -/
theorem exec_peerWithdrawRetry_told (hs : serves s = true) {w : Retry} (hw : (s.fl.withdraw.find? fun w => w.tenant == tn) = some w) {q : Qp}
    (hq : (s.nuc.qps.find? fun q => q.use == .replica tn && q.state == .connected) = some q) {p : Peer}
    (hp : peerFor s tn none = some p) (hdropped : p.dropped = true) (hacked : q.unacked = []) :
    exec (.peerWithdrawRetry tn) s =
      .next (withoutPeer (leaveConnected (postCm (s.at w.next) (.cmDreq q.peerQpn)) q.num .closing) tn) := by
  have hp' : peerFor (s.at w.next) tn none = some p := hp
  change execPeerWithdrawRetry tn s = _
  simp [execPeerWithdrawRetry, hs, hw, hq, hp', hdropped, hacked, withoutPeer]

end

end Sys2Proof.Machine
end

section

namespace Sys2Proof.Machine

/-- Settles O13, row by row. That an empty sequence of the tenant takes the promoted objects is log entry 61; that a retry first settles
the PUTs that are late is log entry 115. -/
theorem replicasAndTheirSessions : Obligations.ReplicasAndTheirSessions := by
  refine ⟨⟨?promote, ?drop⟩, ?retry, ?renewal, ?withdraw⟩
  case promote =>
    intro c s s1 s2 r q h t seq src vs hpad hhandle hpaired hheld hended hfree hq s3 own s4 s5 x hx
    exact exec_replicaPromote_held h hpad rfl rfl rfl ⟨hhandle, hpaired, hheld, hended, hfree⟩ hq rfl hx
  case drop =>
    intro c s s1 r h hpad t src
    exact ⟨fun hseq => exec_replicaDrop_whole h hpad hseq, fun hseq hheld => exec_replicaDrop_sequence h hpad hseq hheld⟩
  case retry =>
    intro tn s k q hs hk hdomain hdying next s0 e s1 hq hconn s2 p hp
    have hrow := exec_replicaRetry_connected hs hk hdomain hdying hq hconn rfl hp
    refine ⟨fun hlease => ?_, fun hlease hnow => ?_, fun hlease hnow => ?_⟩
    · rw [hrow, if_pos (Option.isSome_iff_ne_none.2 hlease)]
      rfl
    · rw [hrow, hlease]
      exact congrArg Host.Outcome.next (if_neg (Nat.not_le.2 hnow))
    · rw [hrow, hlease]
      exact congrArg Host.Outcome.next (if_pos hnow)
  case renewal => exact fun tn s p hs hp => exec_replicaLeaseRenewal_peer hs hp
  case withdraw =>
    intro tn s w q p hs hw s0 hq hp hdropped hacked t
    exact exec_peerWithdrawRetry_told hs hw hq hp hdropped hacked

end Sys2Proof.Machine
end

section
/-! SUPPORT. The rows of the flash tier on a node that serves with the fitted NAND: what each does where its movers, its jobs and its segments
let it run, and the two commands of its set-up (R326, R328, R332, R357 to R368, R500). -/

namespace Sys2Proof.Machine

section
variable {s : State} (hs : serves s = true)
include hs

/-! ## Flushes -/

/-- A flush starts where a tier mover is free for it (log entry 72). -/
theorem exec_flush_mover (hg : s.fl.geom ≠ none) (hm : flushMover s = true) (payload : Option Bytes) :
    exec (.flush payload) s = .next (flushFirst payload (flushPicks s) s) :=
  if_pos (by simp [hs, hm, Option.isSome_iff_ne_none.2 hg])

theorem exec_flashProgramDone_job {n : Nat} {j : FJob} (hj : jobOf s n = some j) (ok : Bool) :
    exec (.flashProgramDone n ok) s = .next (programDone s j ok) := by
  change execFlashProgramDone n ok s = _
  simp [execFlashProgramDone, hs, hj]

theorem exec_flushComplete_job {n : Nat} {j : FJob} (hj : jobOf s n = some j) : exec (.flushComplete n) s = .next (flushDone s j) := by
  change execFlushComplete n s = _
  simp [execFlushComplete, hs, hj]

end

/-- The node once the next program of flush `j` is done: `rest` is still to program. -/
def withTodo (s : State) (j : FJob) (rest : List Nat) : State :=
  { s with fl := { s.fl with jobs := mapIf (fun x => x.id == j.id) (fun (x : FJob) => { x with todo := rest }) s.fl.jobs } }

section
variable {s : State} {j : FJob} {a l h i : Nat} {ss : List Snap} {f k : Bool}

/-- The last of a flush's programs publishes its version (R362). -/
theorem programDone_ok (hkind : j.kind = .flush a l h i ss f k) {lsn : Nat} {rest : List Nat} (htodo : j.todo = lsn :: rest)
    (hlive : jobLive s j = true) :
    programDone s j true = if rest = [] then publishFlush (withTodo s j rest) j else withTodo s j rest := by
  simp only [programDone, hkind, htodo, hlive, ← List.isEmpty_iff]
  rfl

/-- The node once flush `j` is complete: the rows that its snapshots held are durable, and its job is gone (R328). -/
def withFlushed (s : State) (j : FJob) (x : Span) (snaps : List Snap) : State :=
  let s1 := setSpan s (snaps.foldl (fun x p => mapPage x p.page (creditPage p.n)) x)
  { s1 with fl := { s1.fl with jobs := s.fl.jobs.filter fun x => x.id != j.id } }

/-- A flush whose programs are done, and whose acknowledgement has come where one is due, lets the waiting COMMITs go on (R333). -/
theorem flushDone_acknowledged (hkind : j.kind = .flush a l h i ss f k) (htodo : j.todo = []) (hlive : jobLive s j = true)
    (hack : f = false ∨ k = true) {x : Span} {snaps : List Snap} (hx : flushSpan s j = some (x, snaps)) :
    flushDone s j = commitsGo (withFlushed s j x snaps) := by
  have hdue : (f && !k) = false := by rcases hack with rfl | rfl <;> simp
  simp only [flushDone, hkind, htodo, hlive, hdue, hx]
  rfl

/-! ## Installs -/

/-- The last block that an install reads fills its frames (R326). -/
theorem exec_flashReadDone_last (hs : serves s = true) {n : Nat} (hj : jobOf s n = some j) {r : Req}
    (hkind : j.kind = .install r a l h i) {b : Nat} (htodo : j.todo = [b]) (hmover : onMover s j = true) (hlive : jobLive s j = true)
    {e : FlashEnv} {v : Bytes} {s1 : State} (hread : readBlock s j.ver b e = (some v, s1)) :
    exec (.flashReadDone n e) s = .next (installDone s1 { j with todo := [], data := j.data ++ [(b, v)] } a l h i) := by
  have hon : readsOn j = true := by simp only [readsOn, hkind]
  change execFlashReadDone n e s = _
  simp [execFlashReadDone, hs, hj, hmover, hon, readDone, hkind, htodo, hlive, hread]

end

/-! ## The log and the save areas of the fitted NAND -/

section
variable {s : State} (hs : serves s = true) {g : FlashGeom} (hg : s.fl.geom = some g)
include hs hg

theorem exec_flashEraseDone_erasing {seg : Nat} (huse : (segOf s seg).use = .erasing) (ok : Bool) :
    exec (.flashEraseDone seg ok) s = .next (eraseDone s g (segOf s seg) ok) := by
  change execFlashEraseDone seg ok s = _
  simp [execFlashEraseDone, hg, hs, huse]

theorem exec_mapCheckpoint_fitted : exec .mapCheckpoint s = .next (mapCheckpoint s) :=
  if_pos (by simp [hs, hg])

/-- What a span-table checkpoint journals is the model's (log entry 25). -/
theorem exec_spanTableCheckpoint_fitted :
    exec .spanTableCheckpoint s = .next { s with fl := { s.fl with
      ckSpans := s.sq.spans, ckSeqs := s.sq.seqs, ckSpanLsn := s.fl.lsn, ckSpanTime := s.now, journalled := true } } :=
  if_pos (by simp [hs, hg])

theorem exec_garbageCollection_fitted : exec .garbageCollection s = .next (collect s g) := by
  change execGarbageCollection s = _
  simp [execGarbageCollection, hg, hs]

/-- A segment that holds nothing counts no reads of its own. -/
theorem exec_readRefresh_empty (hm : s.hl.maceT2 = true) {seg : Nat} (hfill : (segOf s seg).fill = 0) (found : SegFind) :
    exec (.readRefresh seg found) s = .next
      (relocAll (losePages { s with fl := { s.fl with walk := seg + 1 } } seg found) fun r =>
        r.seg == seg && inFrames found.weak r && !inFrames found.bad r) := by
  change execReadRefresh seg found s = _
  simp [execReadRefresh, hg, hs, hm, hfill]

theorem exec_wearLevelling_lun {p : Profile} (hp : s.fl.profile = some p) (hm : s.hl.maceT2 = true) {lun : Nat} (hl : lun < lunCount g) :
    exec (.wearLevelling lun) s = .next (levelWear s g p lun) := by
  change execWearLevelling lun s = _
  simp [execWearLevelling, hg, hp, hs, hm, hl]

/-- The save area that holds the restored image is erased once its state is journalled (R368). -/
theorem exec_saveAreaErase_journalled (hj : s.fl.journalled = true) (hi : s.fl.areaA.image ≠ none ∨ s.fl.areaB.image ≠ none) (ok : Bool) :
    exec (.saveAreaErase ok) s = .next (eraseArea s g ok) := by
  have hstands : (s.fl.areaA.image.isSome || s.fl.areaB.image.isSome) = true := by
    simpa [Option.isSome_iff_ne_none] using hi
  change execSaveAreaErase ok s = _
  simp only [execSaveAreaErase, hg, hs, hj, hstands]
  rfl

end

/-! ## Duties that ask for no geometry -/

section
variable {s : State} (hs : serves s = true)
include hs

/-- A segment read as often as the profile bears is closed and moved (R366). -/
theorem exec_readDisturb_due {p : Profile} (hp : s.fl.profile = some p) (hm : s.hl.maceT2 = true) {seg : Nat}
    (hreads : p.disturb ≤ (segOf s seg).reads) :
    exec (.readDisturb seg) s = .next (relocAll (closeSeg s seg) fun r => r.seg == seg) := by
  change execReadDisturb seg s = _
  simp [execReadDisturb, hp, hs, hm, hreads]

/-- A lost block is written anew from T1 or marked lost, unless its object is being flushed (R357). -/
theorem exec_blockRepair_listed {obj block : Nat} (hl : s.fl.repair.contains (obj, block) = true) (hf : objFlushing s obj = false)
    {v : FObj} (hv : objOf s obj = some v) : exec (.blockRepair obj block) s = .next (repairBlock s v block) := by
  change execBlockRepair obj block s = _
  simp [execBlockRepair, hs, hl, hf, hv, -List.contains_eq_mem]

/-- One step of the re-key walk seals for the newest generation (R500). -/
theorem exec_reKeyWalk_asked {tn : Nat} {t : Tenant} (ht : tenantOf s tn = some t) (hr : t.rekey = true) (hd : t.dying = false)
    {k : KeyGen} (hk : newestKey t = some k) : exec (.reKeyWalk tn) s = .next (rekeyStep s t k.gen) := by
  change execReKeyWalk tn s = _
  simp [execReKeyWalk, hs, ht, hr, hd, hk]

end

/-! ## Profile and format -/

section
variable {c : Cmd} {s s1 : State} {r : MailCmd}

/-- A profile in range is kept; where its fields stand is the model's (R360, log entry 22). -/
theorem exec_flashProfileLoad_valid (h : Accepted 0x0240 .control (fun b => 0x20 + 4 * min 16 (profileCount b)) c s s1 r)
    (hp : profileOk r.body = true) :
    exec (.flashProfileLoad c) s =
      .next (answered { s1 with fl := { s1.fl with profile := some (profileOf r.body) } } c stOK []) :=
  exec_of_reply rfl h (if_pos hp)

/-- A format takes NAND with room for the check records and a save of at most 30 ms (R359, R367); flash objects in use are dropped (log
entry 23). -/
theorem exec_flashFormat_fits (h : Accepted 0x0241 .control (fun _ => 0) c s s1 r) {g : FlashGeom} {p : Profile} {t : Nat}
    (hp : s1.fl.profile = some p) (ht : flashStrength g = some t) (hg : geomOk g = true) (hsave : saveTime g p ≤ 30 * 10 ^ 6) :
    exec (.flashFormat c (some g)) s = .next (answered (formatT2 s1 g t) c stOK []) := by
  refine exec_of_reply rfl h ?_
  simp [hp, ht, hg, hsave, -Nat.reducePow, -Nat.reduceMul]

end

end Sys2Proof.Machine
end

section

namespace Sys2Proof.Machine

/-- Settles O53, row by row. What a span-table checkpoint journals is log entry 25, the places of the profile fields are log entry 22. -/
theorem flashTierRuns : Obligations.FlashTierRuns := by
  refine ⟨⟨?flush, ?jobs, ?erase, ?duties⟩, ?profile, ?format⟩
  case flush => exact fun payload s hs hg hm => exec_flush_mover hs hg hm payload
  case jobs =>
    intro n s j hs hj hn
    subst hn
    refine ⟨fun a l h i ss f k lsn rest hkind htodo hlive => ?_, fun a l h i ss f k x snaps hkind htodo hlive hack hx => ?_,
      fun e r a l h i b k s1 hkind htodo hmover hlive hread => exec_flashReadDone_last hs hj hkind htodo hmover hlive hread⟩
    · rw [exec_flashProgramDone_job hs hj, programDone_ok hkind htodo hlive]
      rfl
    · rw [exec_flushComplete_job hs hj, flushDone_acknowledged hkind htodo hlive hack hx]
      rfl
  case erase => exact fun seg ok g s hs hg huse => exec_flashEraseDone_erasing hs hg huse ok
  case duties =>
    intro g s hs hg
    exact ⟨exec_mapCheckpoint_fitted hs hg, exec_spanTableCheckpoint_fitted hs hg, exec_garbageCollection_fitted hs hg,
      fun seg p hp hm hreads => exec_readDisturb_due hs hp hm hreads,
      fun seg f hm hfill => exec_readRefresh_empty hs hg hm hfill f,
      fun lun p hp hm hl => exec_wearLevelling_lun hs hg hp hm hl,
      fun obj block v hl hf hv => exec_blockRepair_listed hs hl hf hv,
      fun tn t k ht hr hd hk => exec_reKeyWalk_asked hs ht hr hd hk,
      fun ok hj hi => exec_saveAreaErase_journalled hs hg hj hi ok⟩
  case profile => exact fun c s s1 r h hp => exec_flashProfileLoad_valid h hp
  case format => exact fun c g p t s s1 r h hp ht hg hsave => exec_flashFormat_fits h hp ht hg hsave

end Sys2Proof.Machine
end

section
/-! SUPPORT. Arm words: the row that brings one to its slot, what it meets there, and the state in which a request begins (R397 to R399,
R409). -/

namespace Sys2Proof.Machine

/-! ## The word of a row -/

/-- SLOTSEQ stands above the opcode and CANCEL (R394). -/
theorem wordOf_seq {op : Nat} (h : op < 256) (cancel : Bool) (a : Arm) : wordOf op cancel a / 2 ^ 48 % 65536 = a.seq % 65536 := by
  cases cancel <;> simp [wordOf] <;> omega

/-- CANCEL is bit 39 (R394). -/
theorem wordOf_cancel (op : Nat) (cancel : Bool) (a : Arm) : (wordOf op cancel a).testBit 39 = cancel := by
  rw [Nat.testBit_eq_decide_div_mod_eq]
  cases cancel <;> simp [wordOf] <;> omega

theorem dataRows_op_lt : ∀ p ∈ dataRows, p.2 < 256 := by decide

/-- Each of these rows writes the arm word of its opcode. -/
theorem exec_dataRow {p : (Arm → Instr) × Nat} (h : p ∈ dataRows) (a : Arm) (s : State) :
    exec (p.1 a) s = .next (armRow p.2 false a s) := by
  simp only [dataRows, List.mem_cons, List.not_mem_nil, or_false] at h
  rcases h with rfl | rfl | rfl | rfl | rfl | rfl | rfl | rfl | rfl | rfl | rfl | rfl <;> rfl

theorem exec_cancel (a : Arm) (s : State) : exec (.cancel a) s = .next (armRow 0 true a s) := rfl

/-! ## How it reaches its slot -/

section
variable {op n : Nat} {cancel : Bool} {a : Arm} {id : Req} {l : Lease} {via word : Nat} {s t : State}

/-- The arm word of network slot `n` is the last of its slot's 4,096 bytes (R396). -/
theorem regionOf_armAddr (h : n < 65536) (s : State) (qp rkey : Nat) :
    regionOf s qp (slotAddr n + 0xFF8) 8 rkey = some (.slot n 0xFF8) := by
  have hlo : 0x10000000 ≤ slotAddr n + 0xFF8 := by simp only [slotAddr]; omega
  have hhi : slotAddr n + 0xFF8 < 0x20000000 := by simp only [slotAddr]; omega
  have hslot : (slotAddr n + 0xFF8 - 0x10000000) / 0x1000 = n := by simp only [slotAddr]; omega
  have hpast : ∀ k ≤ 0x10000000, ¬ slotAddr n + 0xFF8 < k := fun k hk => Nat.not_lt.2 (Nat.le_trans hk hlo)
  simp [regionOf, hpast, hlo, hhi, hslot, Nat.add_assoc, -Nat.reduceSubDiff]

/-- A whole message of one arm word ends in the arm word's effect on its slot. -/
theorem messageDone_arm {qp : Nat} {ue : Bool} (hl : slotLease s n = some l)
    (hw : leNat (memRead s.nuc.win (slotAddr n + 0xFF8) 8) = word) :
    messageDone s qp (.slot n 0xFF8) 8 ue = migAll (armWord s (.net n) l qp word ue) := by
  simp [messageDone, hl, hw]

/-- The packet of an arm word is placed, acknowledged and acts on its slot (R397, R454). -/
theorem writePacket_arm {q : Qp} {rkey psn : Nat} {ue : Bool} (hn : n < 65536)
    (hok : writeOk s q.num (slotAddr n + 0xFF8) 8 rkey = true)
    (ht : t = mapQp (postAck (advance (windowWrite s (.slot n 0xFF8) 0 (u64 word)) q.num 1) q psn) q.num
      (fun q => { q with placing := none }))
    (hl : slotLease t n = some l) (hw : leNat (memRead t.nuc.win (slotAddr n + 0xFF8) 8) = word) :
    writePacket ⟨slotAddr n + 0xFF8, rkey, 8, 0, u64 word, false, ue⟩ psn s q = migAll (armWord t (.net n) l q.num word ue) := by
  have hlen : (u64 word).length = 8 := rfl
  simp only [writePacket, hok, regionOf_armAddr hn, hlen]
  subst ht
  cases q.placing <;> simp [messageDone_arm hl hw]

theorem armRow_of_store (h : StoreReaches (wordOf op cancel a) a id l via s t) (hs : serves s = true) :
    armRow op cancel a s = migAll (armWord t id l via (wordOf op cancel a) a.ue) := by
  obtain ⟨p, acts, s1, k, hvia, hrun, rfl, rfl, hk, hl, hslot, hlive, rfl⟩ := h
  simp only [armRow, hs, hvia, hrun, armInternal, hk, hl, hlive, Nat.not_le.2 hslot]
  simp

theorem armRow_of_write (h : WriteReaches (wordOf op cancel a) a id l via s t) (hs : serves s = true) :
    armRow op cancel a s = migAll (armWord t id l via (wordOf op cancel a) a.ue) := by
  obtain ⟨n, q, s0, hvia, rfl, rfl, hslot, hlink, hq, hconn, hlease, hpolice, hok, ht, hlt, hword⟩ := h
  have hpacket := writePacket_arm (psn := q.rxPsn) (ue := a.ue) hslot hok ht hlt hword
  simp [armRow, hs, hvia, hq, hlink, hconn, hlease, hpolice, hpacket]

/-- Over a QP or from a partition, an arm word that reaches its slot acts on it there. -/
theorem armRow_of_reaches (h : ArmReaches op cancel a id l via s t) :
    armRow op cancel a s = migAll (armWord t id l via (wordOf op cancel a) a.ue) := by
  obtain ⟨hs, hstore | hwrite⟩ := h
  · exact armRow_of_store hstore hs
  · exact armRow_of_write hwrite hs

/-! ## What it meets there -/

theorem armWord_cancels {ue : Bool} (hc : word.testBit 39 = true) (hrun : reqOf t id ≠ none)
    (hseq : word / 2 ^ 48 % 65536 = lastOf t id) : armWord t id l via word ue = stopReq t id stCANCELLED := by
  simp [armWord, hc, hseq, Option.isSome_iff_ne_none.2 hrun, -Nat.reducePow]

/-- A cancel word that names no running request is only counted (R398). -/
theorem armWord_cancel_ignored {ue : Bool} (hc : word.testBit 39 = true)
    (h : reqOf t id = none ∨ word / 2 ^ 48 % 65536 ≠ lastOf t id) : armWord t id l via word ue = ignoreArm t l.tenant := by
  rcases h with h | h <;> simp [armWord, hc, h, -Nat.reducePow]

theorem armWord_arms {ue : Bool} (hc : word.testBit 39 = false) (hfree : reqOf t id = none)
    (hseq : word / 2 ^ 48 % 65536 = (lastOf t id + 1) % 65536) : armWord t id l via word ue = armSlot t id l via word ue := by
  simp [armWord, hc, hfree, hseq, -Nat.reducePow]

/-- An arm word out of sequence, or for a slot with a running request, is only counted (R398). -/
theorem armWord_ignored {ue : Bool} (hc : word.testBit 39 = false)
    (h : reqOf t id ≠ none ∨ word / 2 ^ 48 % 65536 ≠ (lastOf t id + 1) % 65536) :
    armWord t id l via word ue = ignoreArm t l.tenant := by
  rcases h with h | h
  · simp [armWord, hc, Option.isSome_iff_ne_none.2 h, -Nat.reducePow]
  · simp [armWord, hc, h, -Nat.reducePow]

/-! ## The armed request -/

theorem armedState_lastOf_same (s : State) (id : Req) (l : Lease) (via word : Nat) :
    lastOf (armedState s id l via word) id = word / 2 ^ 48 % 65536 := by
  have h : (putBy (fun x : SlotSt => x.id == id) ⟨id, word / 2 ^ 48 % 65536⟩ s.nuc.slots).find? (fun x => x.id == id) =
      some ⟨id, word / 2 ^ 48 % 65536⟩ := find?_putBy_self (by simp) _
  simp only [lastOf, armedState, setLast, h]
  rfl

/-- `putBy` changes nothing of what is found under a key that its own entries do not have. -/
theorem find?_putBy_disjoint {α : Type} {p q : α → Bool} {v : α} (hv : q v = false) (hpq : ∀ x, p x = true → q x = false)
    (xs : List α) : (putBy p v xs).find? q = xs.find? q := by
  induction xs with
  | nil => simp [putBy, hv]
  | cons x xs ih =>
    by_cases hx : p x = true
    · simp [putBy, hx, hv, hpq x hx]
    · simp [putBy, hx, List.find?_cons, ih]

theorem armedState_lastOf_other {other : Req} (h : other ≠ id) (s : State) (l : Lease) (via word : Nat) :
    lastOf (armedState s id l via word) other = lastOf s other := by
  have hfind : (putBy (fun x : SlotSt => x.id == id) ⟨id, word / 2 ^ 48 % 65536⟩ s.nuc.slots).find? (fun x => x.id == other) =
      s.nuc.slots.find? (fun x => x.id == other) := by
    refine find?_putBy_disjoint (by simpa using Ne.symm h) (fun x hx => ?_) _
    rw [beq_iff_eq.1 hx]
    simpa using Ne.symm h
  simp only [lastOf, armedState, setLast, hfind]

/-- With a good copy, the checks of R399 and the opcode's own chapter follow in the armed state. -/
theorem armSlot_good {h : Bytes} (hh : h = cut (slotBytes t id) 0 64) (hhead : headOk (armedState t id l via word) id l h word = true)
    (hlive : leaseLive t l = true) : armSlot t id l via word false = startBody (armedState t id l via word) id (fld h 0 1) := by
  subst hh
  have hlive' : leaseLive (armedState t id l via word) l = true := hlive
  calc armSlot t id l via word false
      = (if !headOk (armedState t id l via word) id l (cut (slotBytes t id) 0 64) word then
            finish (armedState t id l via word) id stMALFORMED
          else if !leaseLive (armedState t id l via word) l then finish (armedState t id l via word) id stFENCED
          else startBody (armedState t id l via word) id (fld (cut (slotBytes t id) 0 64) 0 1)) := rfl
    _ = startBody (armedState t id l via word) id (fld (cut (slotBytes t id) 0 64) 0 1) := by simp [hhead, hlive']

/-- With a copy that meets an uncorrectable word, the armed request ends INTERNAL (Table 18-3). -/
theorem armSlot_bad (t : State) (id : Req) (l : Lease) (via word : Nat) :
    armSlot t id l via word true =
      finish (sramBad (armedState t id l via word) (armedRq t id l via word) 1) id stINTERNAL := rfl

/-! ## The rows -/

theorem armRow_of_taken (hop : op < 256) (h : ArmTaken op a id l via s t) :
    armRow op false a s = migAll (startBody (armedState t id l via (wordOf op false a)) id op) := by
  obtain ⟨⟨hreach, hfree, hseq⟩, hue, hfld, hhead, hlive⟩ := h
  rw [armRow_of_reaches hreach, hue, armWord_arms (wordOf_cancel ..) hfree ((wordOf_seq hop ..).trans hseq),
    armSlot_good rfl hhead hlive, hfld]

theorem armRow_of_bad (hop : op < 256) (h : Arms op a id l via s t) (hue : a.ue = true) :
    armRow op false a s = migAll (finish (sramBad (armedState t id l via (wordOf op false a))
      (armedRq t id l via (wordOf op false a)) 1) id stINTERNAL) := by
  obtain ⟨hreach, hfree, hseq⟩ := h
  rw [armRow_of_reaches hreach, hue, armWord_arms (wordOf_cancel ..) hfree ((wordOf_seq hop ..).trans hseq), armSlot_bad]

/-- The row of a data-plane opcode whose arm word is taken begins that opcode's own checks and work. -/
theorem exec_dataRow_taken {mk : Arm → Instr} (hp : (mk, op) ∈ dataRows) (h : ArmTaken op a id l via s t) :
    exec (mk a) s = .next (migAll (startBody (armedState t id l via (wordOf op false a)) id op)) := by
  rw [exec_dataRow hp, armRow_of_taken (dataRows_op_lt _ hp) h]

end

end Sys2Proof.Machine
end

section

namespace Sys2Proof.Machine

/-- Settles O40: each row of `dataRows` begins the checks that `startBody` gives its opcode. That the request of a bad copy still sends its
record is log entry 123. -/
theorem armedSlotsStartTheirRequests : Obligations.ArmedSlotsStartTheirRequests := by
  intro a id l via s t armed
  have row : ∀ (mk : Arm → Instr) (op : Nat) (f : State → Req → State), (mk, op) ∈ dataRows → (∀ u, startBody u id op = f u id) →
      ArmTaken op a id l via s t → exec (mk a) s = .next (migAll (f (armed op) id)) :=
    fun mk op f hp hf h => by rw [exec_dataRow_taken hp h, hf]
  refine ⟨row .attend 0x01 attendStart (by simp [dataRows]) fun _ => ?_,
    row .attendSelect 0x02 attendStart (by simp [dataRows]) fun _ => ?_,
    row .mergeForward 0x03 mergeStart (by simp [dataRows]) fun _ => ?_,
    row .appendScatter 0x10 appendStart (by simp [dataRows]) fun _ => ?_,
    row .commit 0x11 appendStart (by simp [dataRows]) fun _ => ?_,
    row .truncate 0x12 appendStart (by simp [dataRows]) fun _ => ?_,
    row .search 0x20 searchStart (by simp [dataRows]) fun _ => ?_,
    row .insertVectors 0x21 vecStart (by simp [dataRows]) fun _ => ?_,
    row .deleteVectors 0x22 vecStart (by simp [dataRows]) fun _ => ?_,
    row .runLayers 0x30 runStart (by simp [dataRows]) fun _ => ?_,
    row .score 0x31 scoreStart (by simp [dataRows]) fun _ => ?_,
    row .replicaPut 0x40 replicaStart (by simp [dataRows]) fun _ => ?_, ?bad⟩
  case bad =>
    intro p hp harms hue
    rw [exec_dataRow hp, armRow_of_bad (dataRows_op_lt _ hp) harms hue]
  all_goals simp [startBody, appendOps]

/-- Settles O41: what a cancel word and an arm word meet in their slot, and the one LAST that arming sets. That CANCEL looks at no reserved
bit is log entry 109. -/
theorem armWordsFollowTheSlotSequence : Obligations.ArmWordsFollowTheSlotSequence := by
  refine ⟨fun a id l via s t => ⟨fun hreach hrun hseq => ?cancels, fun hreach hnone => ?uncancelled, fun p hp hreach hnone => ?unarmed⟩,
    fun s id other l via word => ⟨armedState_lastOf_same s id l via word, fun hne => armedState_lastOf_other hne s l via word, rfl⟩⟩
  case cancels =>
    rw [exec_cancel, armRow_of_reaches hreach, armWord_cancels (wordOf_cancel ..) hrun ((wordOf_seq (by decide) ..).trans hseq)]
  case uncancelled =>
    rw [exec_cancel, armRow_of_reaches hreach, armWord_cancel_ignored (wordOf_cancel ..) (by rwa [wordOf_seq (by decide)])]
  case unarmed =>
    have hop := dataRows_op_lt _ hp
    rw [exec_dataRow hp, armRow_of_reaches hreach, armWord_ignored (wordOf_cancel ..) (by rwa [wordOf_seq hop])]

end Sys2Proof.Machine
end

section
/-! SUPPORT. Mailboxes: what stands in a box after it is written, what a command word makes of it, and the bytes of a reply (R379 to
R381). -/

namespace Sys2Proof.Machine

/-! ## Boxes -/

@[simp] theorem ctlOf_id (s : State) (m : Nat) : (ctlOf s m).id = m := by
  unfold ctlOf
  cases h : s.nuc.ctl.find? fun c => c.id == m with
  | none => rfl
  | some c => simpa using List.find?_some h

theorem ctlOf_setCtl (s : State) (c : CtlBox) (m : Nat) : ctlOf (setCtl s c) m = if c.id = m then c else ctlOf s m := by
  have h := find?_putBy_key CtlBox.id c m s.nuc.ctl
  simp only [ctlOf, setCtl, h]
  split <;> rfl

/-- The QP found under its number after an update that keeps the number. -/
theorem qpOf_mapQp (s : State) (n : Nat) {f : Qp → Qp} (hf : ∀ q, (f q).num = q.num) : qpOf (mapQp s n f) n = (qpOf s n).map f := by
  simp only [qpOf, mapQp, mapIf]
  induction s.nuc.qps with
  | nil => rfl
  | cons q qs ih =>
    by_cases hq : q.num = n
    · simp [hq, hf]
    · simpa [List.find?_cons, hq] using ih

/-- A mailbox that can be reached holds what is put into it. -/
theorem boxGet_boxPut {s : State} {b : Box} {m : Mailbox} (h : boxGet s b = some m) (v : Mailbox) : boxGet (boxPut s b v) b = some v := by
  cases b with
  | session n =>
    cases hq : qpOf s n with
    | none => simp [boxGet, hq] at h
    | some q =>
      have hput : qpOf (mapQp s n fun x => { x with mbox := v }) n = some { q with mbox := v } := by
        rw [qpOf_mapQp s n (f := fun x => { x with mbox := v }) fun _ => rfl, hq, Option.map_some]
      by_cases hc : q.state = .connected
      · simp [boxGet, boxPut, hput, hc]
      · simp [boxGet, hq, hc] at h
  | control n =>
    by_cases hlive : (n < 64 && ((((ctlOf s n).qp.bind (qpOf s)).bind (liveRole s)).isSome)) = true
    · have hctl : ctlOf (setCtl s { ctlOf s n with box := v }) n = { ctlOf s n with box := v } := by
        rw [ctlOf_setCtl]
        exact if_pos (ctlOf_id s n)
      simp only [boxGet, boxPut, hctl]
      exact if_pos hlive
    · simp [boxGet, hlive] at h
  | sideband => rfl

/-! ## Command words -/

/-- A word below 2^64 has MSEQ at its top. -/
theorem mseq_of_lt {word : Nat} (h : word < 2 ^ 64) : word / 2 ^ 48 % 65536 = word / 2 ^ 48 := by omega

section
variable {s : State} {b : Box} {m : Mailbox} {word : Nat}

/-- The copy that a command word takes of its box (R380), with its place in the order of arrival. -/
def armedCopy (s : State) (b : Box) (m : Mailbox) (word : Nat) : MailCmd :=
  { mailCopy m (boxHalf b) (word / 2 ^ 32 % 65536) (word / 2 ^ 48 % 65536) (word % 2 ^ 32 != 0) with arrival := s.nuc.arrivals + 1 }

theorem boxArm_next (hb : boxGet s b = some m) (hrun : m.run = none) (hseq : word / 2 ^ 48 % 65536 = (m.last + 1) % 65536) :
    boxGet (boxArm s b word) b = some { m with last := word / 2 ^ 48 % 65536, run := some (armedCopy s b m word) } := by
  have harm : boxArm s b word = boxPut { s with nuc.arrivals := s.nuc.arrivals + 1 } b
      { m with last := word / 2 ^ 48 % 65536, run := some (armedCopy s b m word) } := by
    simp [boxArm, hb, hrun, hseq, armedCopy, -Nat.reducePow]
  have hb' : boxGet { s with nuc.arrivals := s.nuc.arrivals + 1 } b = some m := by
    cases b <;> exact hb
  rw [harm, boxGet_boxPut hb']

/-- A word out of sequence, or for a box in which a command runs, is ignored (R380). -/
theorem boxArm_ignored (hb : boxGet s b = some m) (h : m.run ≠ none ∨ word / 2 ^ 48 % 65536 ≠ (m.last + 1) % 65536) :
    boxArm s b word = s := by
  rcases h with h | h
  · simp [boxArm, hb, h]
  · simp [boxArm, hb, h, -Nat.reducePow]

end

/-! ## Replies -/

/-- The header of a reply, ahead of its body (R381). -/
def replyHead (r : MailCmd) (status len time : Nat) : Bytes :=
  u8 status ++ u8 0 ++ u16 r.mseq ++ u32 len ++ u64 time ++ zeros 16

@[simp] theorem replyHead_length (r : MailCmd) (status len time : Nat) : (replyHead r status len time).length = 32 := by
  simp [replyHead, u8, u16, u32, u64, leBytes_length, zeros]

/-- A read of bytes that a write does not reach. -/
theorem memRead_memWrite_disjoint (m : Mem) (a x n : Nat) (bs : Bytes) (h : x + n ≤ a ∨ a + bs.length ≤ x) :
    memRead (memWrite m a bs) x n = memRead m x n := by
  refine List.map_congr_left fun i hi => memGet_memWrite_other m a (x + i) bs ?_
  have hin : i < n := List.mem_range.1 hi
  omega

/-- A read of a part of what was written. -/
theorem memRead_memWrite_part (m : Mem) (a : Nat) (p v q : Bytes) (w : Memory.wf m = true) :
    memRead (memWrite m a (p ++ v ++ q)) (a + p.length) v.length = v := by
  refine List.ext_getElem (memRead_length ..) fun i _ hi => ?_
  have hlen : p.length + i < (p ++ v ++ q).length := by simp; omega
  have hget := memGet_memWrite_getElem (p ++ v ++ q) (p.length + i) hlen m a w
  simp only [memRead, List.getElem_map, List.getElem_range, Nat.add_assoc, hget]
  simp [hi]

/-- The bytes of a mailbox of halves of `h` bytes once a reply and its reply word stand in the outbound half (R381). -/
def repliedMem (m : Mem) (h : Nat) (r : MailCmd) (status time : Nat) (body : Bytes) : Mem :=
  memWrite (memWrite m h (replyHead r status body.length time ++ body)) (2 * h - 8) (u64 (status + r.code * 2 ^ 32 + r.mseq * 2 ^ 48))

section
variable (m : Mem) (h : Nat) (r : MailCmd) (status time : Nat) (body : Bytes)

theorem repliedMem_inbound (hh : 8 ≤ h) : memRead (repliedMem m h r status time body) 0 h = memRead m 0 h := by
  rw [repliedMem, memRead_memWrite_disjoint _ _ _ _ _ (.inl (by omega)), memRead_memWrite_disjoint _ _ _ _ _ (.inl (by omega))]

theorem repliedMem_head (hh : 40 ≤ h) (w : Memory.wf m = true) :
    memRead (repliedMem m h r status time body) h 32 = replyHead r status body.length time := by
  rw [repliedMem, memRead_memWrite_disjoint _ _ _ _ _ (.inl (by omega))]
  simpa using memRead_memWrite_part m h [] (replyHead r status body.length time) body w

theorem repliedMem_body (hbody : body.length + 40 ≤ h) (w : Memory.wf m = true) :
    memRead (repliedMem m h r status time body) (h + 32) body.length = body := by
  rw [repliedMem, memRead_memWrite_disjoint _ _ _ _ _ (.inl (by omega))]
  simpa using memRead_memWrite_part m h (replyHead r status body.length time) body [] w

theorem repliedMem_word (w : Memory.wf m = true) :
    memRead (repliedMem m h r status time body) (2 * h - 8) 8 = u64 (status + r.code * 2 ^ 32 + r.mseq * 2 ^ 48) :=
  memRead_memWrite_same _ _ (u64 (status + r.code * 2 ^ 32 + r.mseq * 2 ^ 48)) (memWrite_wf _ _ _ w)

end

/-- A reply without a notice changes the mailbox alone, which takes the next command. -/
theorem mailReply_sideband {s : State} {r : MailCmd} (hrun : s.nuc.sideband.run = some r) (hnotice : r.noticeAddr = 0) (status : Nat)
    (body : Bytes) : mailReply s .sideband status body =
      { s with nuc.sideband :=
          { s.nuc.sideband with mem := repliedMem s.nuc.sideband.mem 8192 r status s.now body, run := none } } := by
  simp only [mailReply, boxAny, hrun, hnotice]
  rfl

end Sys2Proof.Machine
end

section

namespace Sys2Proof.Machine

/-- Settles O55: the command that an arming word leaves in its box is `armedCopy`. -/
theorem commandWordsArmInSequence : Obligations.CommandWordsArmInSequence := by
  intro s b m word hb hword seq
  have hmseq : word / 2 ^ 48 % 65536 = seq := mseq_of_lt hword
  refine ⟨fun hrun hseq => ⟨armedCopy s b m word, ?_, hmseq, rfl, rfl⟩, fun h => boxArm_ignored hb ?_⟩
  · rw [boxArm_next hb hrun (hmseq.trans hseq), hmseq]
  · rwa [hmseq]

/-- Settles O56: the reply, then the reply word, in a box whose inbound half neither reaches. -/
theorem repliesFillTheOutboundHalf : Obligations.RepliesFillTheOutboundHalf := by
  intro s m r st body hm hwf hrun hnotice _ _ _ hbody
  subst hm
  rw [mailReply_sideband hrun hnotice]
  refine ⟨_, rfl, ?_⟩
  dsimp only
  exact ⟨rfl, rfl, repliedMem_inbound _ 8192 r st s.now body (by decide), repliedMem_head _ 8192 r st s.now body (by decide) hwf,
    repliedMem_body _ 8192 r st s.now body (by omega) hwf, repliedMem_word _ 8192 r st s.now body hwf⟩

end Sys2Proof.Machine
end

section
/-! SUPPORT. Little-endian fields of bytes laid end to end, and fields of zero bytes (R5). -/

namespace Sys2Proof.Machine

/-! ## Fields -/

theorem leNat_leBytes (n v : Nat) : leNat (leBytes n v) = v % 256 ^ n := by
  induction n generalizing v with
  | zero => simp [leBytes, leNat, Nat.mod_one]
  | succ n ih =>
    have hsplit : v % 256 ^ (n + 1) = v % 256 + 256 * (v / 256 % 256 ^ n) := by rw [Nat.pow_succ', Nat.mod_mul]
    rw [leBytes, leNat, ih, BitVec.toNat_ofNat, hsplit]

/-- A field that begins in the second of two runs of bytes. -/
theorem fld_append_right {p q : Bytes} {o n : Nat} (h : p.length ≤ o) : fld (p ++ q) o n = fld q (o - p.length) n := by
  simp [fld, cut, List.drop_append, List.drop_eq_nil_of_le h]

/-- The field with which the bytes begin. -/
theorem fld_leBytes_append (n v : Nat) (q : Bytes) : fld (leBytes n v ++ q) 0 n = v % 256 ^ n := by
  simp [fld, cut, leNat_leBytes, zeros]

theorem fld_leBytes (n v : Nat) : fld (leBytes n v) 0 n = v % 256 ^ n := by
  simpa using fld_leBytes_append n v []

/-! ## Zero fields -/

/-- A cut reads byte by byte, zero beyond the end. -/
theorem cut_eq_map (b : Bytes) (o n : Nat) : cut b o n = (List.range n).map fun i => b.getD (o + i) 0 := by
  refine List.ext_getElem (by simp) fun i hi _ => ?_
  simp only [cut, zeros, List.getElem_append, List.getElem_take, List.getElem_drop, List.getElem_replicate, List.getElem_map,
    List.getElem_range, List.getD_eq_getElem?_getD]
  split
  · next h =>
    have hb : o + i < b.length := by simp at h; omega
    simp [hb]
  · next h =>
    have hn : i < n := by simpa using hi
    have hb : b.length ≤ o + i := by simp at h; omega
    simp [hb]

theorem zeroAt_add (b : Bytes) (o m n : Nat) : zeroAt b o (m + n) = (zeroAt b o m && zeroAt b (o + m) n) := by
  simp [zeroAt, cut_eq_map, List.range_add, Nat.add_assoc, Function.comp_def]

theorem leNat_eq_zero {b : Bytes} (h : b.all (· == 0) = true) : leNat b = 0 := by
  induction b with
  | nil => rfl
  | cons x xs ih =>
    simp only [List.all_cons, Bool.and_eq_true, beq_iff_eq] at h
    simp [leNat, h.1, ih h.2]

theorem fld_eq_zero {b : Bytes} {o n : Nat} (h : zeroAt b o n = true) : fld b o n = 0 := leNat_eq_zero h

end Sys2Proof.Machine
end

section

namespace Sys2Proof.Machine

/-- Settles O57: the record's fields are read where its bytes were laid, the details of Table 14-9 as sums of fields that do not overlap. -/
theorem completionRecordsHaveTheirFields : Obligations.CompletionRecordsHaveTheirFields := by
  refine ⟨fun p n => ⟨rfl, rfl⟩, ?record, fun x page hid hpage => ?page, fun k vid hid hvid => ?vector, fun o tile hid htile => ?tile⟩
  case record =>
    intro r st time hst hop hseq hslot hcount hredirect hdetail htime
    have hsize : (cmplBytes r st time).length = 32 := by simp [cmplBytes, u8, u16, u32, u64]
    have hstale : (if st = stSTALE then r.redirect else 0) % 65536 = if st = 5 then r.redirect else 0 :=
      Nat.mod_eq_of_lt (by split <;> omega)
    have hlost : (if st = stLOST then r.detail else 0) % 2 ^ 64 = if st = 6 then r.detail else 0 :=
      Nat.mod_eq_of_lt (by split <;> omega)
    refine ⟨hsize, ?_⟩
    simpa [cmplBytes, u8, u16, u32, u64, fld_append_right, fld_leBytes_append, fld_leBytes] using
      ⟨hst, hop, hseq, hslot, hcount, hstale, hlost, htime⟩
  all_goals
    simp only [bits, pageDetail, vecDetail, tileDetail]
    omega

end Sys2Proof.Machine
end

section
/-! SUPPORT. Frames that a QP puts in its queue, and a QP that leaves the connected state (R371, R377, R454, R455). -/

namespace Sys2Proof.Machine

/-! ## What sending leaves alone -/

@[simp] theorem toQueue_nuc (s : State) (p : Nat) (f : Frame) : (toQueue s p f).nuc = s.nuc := by
  unfold toQueue
  split <;> rfl

@[simp] theorem post_nuc (s : State) (q : Qp) (ext n : Nat) (k : FrameKind) : (post s q ext n k).nuc = s.nuc := toQueue_nuc ..

@[simp] theorem readReply_nuc (s : State) (q : Qp) (psn addr n rkey : Nat) : (readReply s q psn addr n rkey).nuc = s.nuc :=
  foldl_keeps State.nuc _ (fun _ _ => post_nuc ..) _ _

/-- What is abandoned with a QP are requests' results and tenants' counts. -/
theorem abandon_nuc (s : State) (m : OutMsg) : (abandon s m).nuc = s.nuc := by
  unfold abandon
  cases m.tag with
  | result r =>
    cases hr : reqOf s r with
    | none => simp only [hr]
    | some x =>
      simp only [hr]
      split <;> rfl
  | notice t => cases t <;> rfl
  | plain => rfl
  | completion t c => rfl
  | replica t j => rfl

/-! ## A QP leaves the connected state -/

/-- A QP in its new state, with nothing of its connection left. -/
def qpLeft (st : QpState) (q : Qp) : Qp := { q with state := st, unacked := [], placing := none, ret := none, retries := 0 }

/-- The node once QP `n` has nothing of its session, its subscriptions and its traffic left. -/
def withoutTraffic (s : State) (n : Nat) (unacked : List OutMsg) : State :=
  let t := pullFrames (endSession s n) n
  unacked.foldl abandon { t with nuc.subs := t.nuc.subs.filter fun u => u.qp != n }

theorem withoutTraffic_win (s : State) (n : Nat) (unacked : List OutMsg) : (withoutTraffic s n unacked).nuc.win = s.nuc.win := by
  rw [withoutTraffic, foldl_keeps State.nuc abandon abandon_nuc]
  rfl

/-- A QP that stands either goes (one that the node opened for a tenant) or takes its new state; the window's bytes stay. -/
theorem leaveConnected_cases (s : State) (n : Nat) (st : QpState) :
    (qpOf s n = none ∧ leaveConnected s n st = s) ∨ ∃ t, t.nuc.win = s.nuc.win ∧
      (leaveConnected s n st = { t with nuc.qps := t.nuc.qps.filter fun x => x.num != n } ∨
        leaveConnected s n st = mapQp t n (qpLeft st)) := by
  unfold leaveConnected
  split
  · next hnone => exact .inl ⟨hnone, rfl⟩
  · next q _ =>
    refine .inr ⟨withoutTraffic s n q.unacked, withoutTraffic_win .., ?_⟩
    split
    · exact .inl rfl
    · exact .inr rfl

theorem leaveConnected_win (s : State) (n : Nat) (st : QpState) : (leaveConnected s n st).nuc.win = s.nuc.win := by
  rcases leaveConnected_cases s n st with ⟨-, h⟩ | ⟨t, ht, h | h⟩
  · rw [h]
  · exact (congrArg (fun t => t.nuc.win) h).trans ht
  · exact (congrArg (fun t => t.nuc.win) h).trans ht

/-- A QP that is still there has the state it was to have and nothing left to send. -/
theorem leaveConnected_qp {s : State} {n : Nat} {st : QpState} {x : Qp} (h : qpOf (leaveConnected s n st) n = some x) :
    x.state = st ∧ x.unacked = [] := by
  rcases leaveConnected_cases s n st with ⟨hnone, hl⟩ | ⟨t, -, hl | hl⟩ <;> rw [hl] at h
  · cases hnone.symm.trans h
  · have hnum := List.find?_some h
    obtain ⟨-, hother⟩ := List.mem_filter.1 (List.mem_of_find?_eq_some h)
    exact absurd (beq_iff_eq.1 hnum) (by simpa using hother)
  · rw [qpOf_mapQp (f := qpLeft st) t n fun _ => rfl] at h
    obtain ⟨y, -, rfl⟩ := Option.map_eq_some_iff.1 h
    exact ⟨rfl, rfl⟩

theorem nakError_win (s : State) (q : Qp) (psn : Nat) (k : NakCode) : (nakError s q psn k).nuc.win = s.nuc.win :=
  (leaveConnected_win ..).trans (congrArg NucSt.win (post_nuc ..))

/-! ## Requests of the peer -/

section
variable {x : Rx} {m : WriteMsg} {addr rkey len : Nat} {s s1 : State} {q : Qp}

theorem exec_rdmaWrite_imm (h : RxTaken x m.rkey s s1 q) (himm : m.imm = true) :
    exec (.rdmaWrite x m) s = .next (nakError s1 q x.psn .invalidRequest) := by
  change execRdmaWrite x m s = _
  simp only [execRdmaWrite, receive_taken h, writePacket, himm, if_true]

theorem exec_rdmaWrite_refused (h : RxTaken x m.rkey s s1 q) (himm : m.imm = false)
    (hno : writeOk s1 q.num m.addr m.len m.rkey = false) :
    exec (.rdmaWrite x m) s = .next (nakError s1 q x.psn .remoteAccess) := by
  change execRdmaWrite x m s = _
  simp only [execRdmaWrite, receive_taken h, writePacket, himm, hno, Bool.false_eq_true, if_false, Bool.not_false, if_true]

theorem exec_rdmaWrite_unordered (h : RxOutOfOrder x m.rkey s s1 q) :
    exec (.rdmaWrite x m) s = .next (if psnLe (x.psn + 1) q.rxPsn then postAck s1 q ((q.rxPsn + 2 ^ 24 - 1) % 2 ^ 24)
      else if q.nakSent then s1
      else mapQp (post s1 q 4 0 (.nak q.num q.rxPsn .sequence)) q.num fun q => { q with nakSent := true }) := by
  change execRdmaWrite x m s = _
  simp only [execRdmaWrite, receive_outOfOrder h]

theorem exec_rdmaRead_bad (h : RxTaken x rkey s s1 q) :
    exec (.rdmaRead x addr rkey len true) s = .next (nakError s1 q x.psn .invalidRequest) := by
  change execRdmaRead x addr rkey len true s = _
  simp only [execRdmaRead, receive_taken h, if_true]

theorem exec_rdmaRead_refused (h : RxTaken x rkey s s1 q) (hno : readOk s1 q.num addr len rkey = false) :
    exec (.rdmaRead x addr rkey len false) s = .next (nakError s1 q x.psn .remoteAccess) := by
  change execRdmaRead x addr rkey len false s = _
  simp [execRdmaRead, receive_taken h, hno]

/-- A READ that meets an uncorrectable word of a staging window is refused after its error record (R522, Table 18-3). -/
theorem exec_rdmaRead_uncorrectable (h : RxTaken x rkey s s1 q) (hok : readOk s1 q.num addr len rkey = true) {t : State}
    (hbad : readBad s1 q addr len rkey = some t) :
    exec (.rdmaRead x addr rkey len false) s = .next (nakError t q x.psn .remoteAccess) := by
  change execRdmaRead x addr rkey len false s = _
  simp [execRdmaRead, receive_taken h, hok, hbad]

end

/-! ## A staging window with an uncorrectable word -/

/-- The node `linked` with the staging window of its lease 5 in OPEN frames of bank 0, whose first half-frame is uncorrectable (R517). -/
def badStaging : State :=
  { linked with mem := { linked.mem with regions := [⟨3, 0, 2768, 512, 0, .staging, 5⟩], ue := [npa 0 2768 0] } }

/-- Where a packet in order is executed on it. -/
def badTaken : State := mapQp badStaging 1 fun q => { q with nakSent := false }

theorem rxTaken_badStaging : RxTaken (rx 0) 77 badStaging badTaken qp1 :=
  ⟨badStaging, badStaging, rfl, rfl, rfl, rfl, by decide +kernel, rfl, rfl, rfl, rfl, rfl⟩

/-- Lease 5 gives QP 1 access to the window's first bytes. -/
theorem readOk_badTaken : readOk badTaken 1 0x40000000 8 77 = true := by decide +kernel

theorem readBad_badTaken : (readBad badTaken qp1 0x40000000 8 77).isSome = true := by decide +kernel

/-- A READ response would leave the QP connected. -/
theorem qpOf_readReply_badTaken :
    (qpOf (readReply (advance badTaken 1 (readPackets qp1 8)) qp1 0 0x40000000 8 77) 1).map Qp.state = some .connected := by
  rw [qpOf, readReply_nuc]
  decide +kernel

end Sys2Proof.Machine
end

section

namespace Sys2Proof.Machine

/-- Refutes O24: its READ clause asks for access alone, and a READ of a staging window that meets an uncorrectable word is answered with a
NAK (R522, Table 18-3); `badStaging`. -/
theorem not_rdmaRequestsExecute : ¬ Obligations.RdmaRequestsExecute := by
  rintro ⟨hread, -⟩
  obtain ⟨t, hbad⟩ := Option.isSome_iff_exists.1 readBad_badTaken
  have hstated := hread (rx 0) 0x40000000 77 8 badStaging badTaken qp1 rxTaken_badStaging readOk_badTaken
  rw [exec_rdmaRead_uncorrectable rxTaken_badStaging readOk_badTaken hbad] at hstated
  have hsame : nakError t qp1 0 .remoteAccess = readReply (advance badTaken 1 (readPackets qp1 8)) qp1 0 0x40000000 8 77 :=
    Host.Outcome.next.inj hstated
  obtain ⟨y, hy, hconn⟩ := Option.map_eq_some_iff.1 qpOf_readReply_badTaken
  rw [← hsame] at hy
  have herror : y.state = .error := (leaveConnected_qp hy).1
  cases herror.symm.trans hconn

/-- Settles O25. The frame of a refusal is of the window's own bytes (`nuc.win`): staging stands in T1 (log entry 85) and a mailbox in a
memory of its own. -/
theorem refusedAndUnorderedPacketsAreAnswered : Obligations.RefusedAndUnorderedPacketsAreAnswered := by
  refine ⟨⟨fun x m s s1 q h => ⟨exec_rdmaWrite_imm h, exec_rdmaWrite_refused h⟩,
    fun x addr rkey len s s1 q h => ⟨exec_rdmaRead_bad h, exec_rdmaRead_refused h⟩,
    fun s q psn k => ⟨nakError_win s q psn k, fun x hx => (leaveConnected_qp hx).1⟩⟩,
    fun x m s s1 q h => ⟨fun hdup => ?dup, fun hgap hfirst => ?first, fun hgap hsent => ?again⟩⟩
  case dup => rw [exec_rdmaWrite_unordered h, if_pos hdup]
  case first => simp only [exec_rdmaWrite_unordered h, hgap, hfirst, Bool.false_eq_true, if_false]
  case again => simp only [exec_rdmaWrite_unordered h, hgap, hsent, Bool.false_eq_true, if_false, if_true]

end Sys2Proof.Machine
end

section
/-! SUPPORT. Communication Management, and what acknowledgements, NAKs and time-outs make of a QP's outbound messages (R378, R401, R452,
R455). -/

namespace Sys2Proof.Machine

/-! ## Communication Management -/

section
variable {s s1 : State} {n : Nat} {q : Qp}

/-- The QP that a host's REQ sets up (R452). -/
def hostQp (r : CmReq) (s : State) (n : Nat) : Qp :=
  { num := n, state := .setup, peer := r.peer, peerQpn := r.peerQpn, depth := min 64 r.depth, mtu := min r.mtu (cfgNat s PortCfg.mtu),
    tclass := r.tclass / 4, pcp := r.pcp.getD 0, rxPsn := (Config.psn s.free).toNat, txPsn := r.psn }

theorem exec_cmReq_taken {r : CmReq} (hs : serves s = true) (hlink : s.port.link = true) (hrc : r.rc = true) (hpkey : r.pkey = 0xFFFF)
    (hn : freeQpn s = some (n, s1)) :
    exec (.cmReq r) s = .next (postCm { s1 with free := s1.free + 1, nuc.qps := s1.nuc.qps ++ [hostQp r s1 n] }
      (.cmRep n r.peerQpn (min 64 r.depth) 0 (Config.psn s1.free).toNat (min r.mtu (cfgNat s1 PortCfg.mtu)))) := by
  change execCmReq r s = _
  simp only [execCmReq, hs, hlink, hrc, hpkey, hn]
  rfl

theorem exec_cmRtu_setup (hs : serves s = true) (hlink : s.port.link = true) (hq : qpOf s n = some q) (hsetup : q.state = .setup)
    (huse : q.use = .host) :
    exec (.cmRtu n) s = .next (mapQp s n fun q =>
      { q with state := .connected, mbox := {}, cc := { q.cc with alphaAt := s.now, incAt := s.now } }) := by
  change execCmRtu n s = _
  simp [execCmRtu, hs, hlink, hq, hsetup, huse]

theorem exec_cmDreq_standing (hs : serves s = true) (hlink : s.port.link = true) (hq : qpOf s n = some q) :
    exec (.cmDreq n) s = .next (postCm (dropQp (leaveConnected s n .closing) n) (.cmDrep q.peerQpn)) := by
  change execCmDreq n s = _
  simp [execCmDreq, hs, hlink, hq, dropQp]

theorem exec_cmDrep_closing (hq : qpOf s n = some q) (hclosing : q.state = .closing) : exec (.cmDrep n) s = .next (dropQp s n) := by
  change execCmDrep n s = _
  simp [execCmDrep, hq, hclosing, dropQp]

variable {t na : Nat} {b : Box}

theorem exec_cmRep_peer (hs : serves s = true) (hlink : s.port.link = true) (hq : qpOf s n = some q) (hsetup : q.state = .setup)
    (hsent : q.unsent = false) (huse : q.use = .peer t na b) (peerQpn psn : Nat) :
    exec (.cmRep n peerQpn psn stOK) s =
      let s1 := postCm s (.cmRtu peerQpn)
      let s2 := mapQp s1 n fun q => { q with state := .connected, peerQpn := peerQpn, txPsn := psn % 2 ^ 24,
                                             cc := { q.cc with alphaAt := s1.now, incAt := s1.now } }
      .next (mailReply (peerMail s2 n 0 0x0002 (openBody t na q.sig)) b stOK (u32 n)) := by
  change execCmRep n peerQpn psn stOK s = _
  simp [execCmRep, hs, hlink, hq, hsetup, hsent, huse, -Nat.reducePow]

theorem exec_cmRej_peer (hs : serves s = true) (hlink : s.port.link = true) (hq : qpOf s n = some q) (hsetup : q.state = .setup)
    (huse : q.use = .peer t na b) (reason : Nat) :
    exec (.cmRej n reason) s = .next (mailReply (dropQp s n) b (Config.rejStatus reason).toNat []) := by
  change execCmRej n reason s = _
  simp [execCmRej, hs, hlink, hq, hsetup, huse]

end

/-! ## Acknowledgements -/

section
variable {s : State} {n psn : Nat} {q : Qp}

/-- An acknowledged message has its effect, and a cell that it changes may wake a merge (R155, R401). -/
def settled (s : State) (m : OutMsg) : State :=
  match acked s m with
  | (s, some c) => wake s c
  | (s, none) => s

theorem qpOf_num (h : qpOf s n = some q) : q.num = n := by simpa using List.find?_some h

theorem ackTo_standing (hq : qpOf s n = some q) (psn : Nat) :
    let upTo := q.unacked.takeWhile fun m => psnLe m.psn psn
    ackTo s n psn = if upTo = [] then s else settleBindings (upTo.foldl settled
      (mapQp s n fun q => { q with unacked := q.unacked.drop upTo.length, retries := 0 })) := by
  intro upTo
  simp only [ackTo, hq, List.isEmpty_iff]
  rfl

/-- What a NAK does once the messages before it are acknowledged (R455). -/
def afterNak (kind : NakKind) (n : Nat) (s : State) : State :=
  match qpOf s n with
  | none => s
  | some q => if kind == .sequence || kind == .rnr then retryQp s q else leaveConnected s n .error

theorem afterNak_gone (kind : NakKind) (h : qpOf s n = none) : afterNak kind n s = s := by
  simp only [afterNak, h]

theorem afterNak_retries {kind : NakKind} (h : qpOf s n = some q) (hkind : kind = .sequence ∨ kind = .rnr) :
    afterNak kind n s = retryQp s q := by
  rcases hkind with rfl | rfl <;> simp [afterNak, h]

theorem afterNak_error {kind : NakKind} (h : qpOf s n = some q) (hseq : kind ≠ .sequence) (hrnr : kind ≠ .rnr) :
    afterNak kind n s = leaveConnected s n .error := by
  simp [afterNak, h, hseq, hrnr]

variable (hs : serves s = true) (hlink : s.port.link = true) (hq : qpOf s n = some q) (hconn : q.state = .connected)
include hs hlink hq hconn

theorem exec_ackReceived_connected (psn : Nat) : exec (.ackReceived n psn) s = .next (ackTo s n psn) := by
  change execAckReceived n psn s = _
  simp [execAckReceived, hs, hlink, connected, hq, hconn]

/-- A NAK acknowledges up to the PSN before its own. -/
theorem exec_nakReceived_connected (psn : Nat) (kind : NakKind) :
    exec (.nakReceived n psn kind) s = .next (afterNak kind n (ackTo s n ((psn + 2 ^ 24 - 1) % 2 ^ 24))) := by
  have hserved : (serves s && s.port.link && connected s n) = true := by simp [hs, hlink, connected, hq, hconn]
  change execNakReceived n psn kind s = _
  generalize hp : (psn + 2 ^ 24 - 1) % 2 ^ 24 = p
  simp only [execNakReceived, hserved, hp, afterNak]
  cases qpOf (ackTo s n p) n with
  | none => rfl
  | some k => exact (apply_ite Host.Outcome.next ..).symm

theorem exec_ackTimeout_waiting (hwait : q.unacked ≠ []) : exec (.ackTimeout n) s = .next (retryQp s q) := by
  change execAckTimeout n s = _
  simp [execAckTimeout, hs, hlink, hq, hconn, hwait]

end

theorem retryQp_again {s : State} {q : Qp} (h : q.retries < cfgNat s PortCfg.retryCnt) :
    retryQp s q = retransmit (mapQp s q.num fun q => { q with retries := q.retries + 1 }) q.num := if_neg (Nat.not_le.2 h)

theorem retryQp_spent {s : State} {q : Qp} (h : cfgNat s PortCfg.retryCnt ≤ q.retries) :
    retryQp s q = leaveConnected s q.num .error := if_pos h

/-- The last result of a request whose record waits for it sends that record (R401). -/
theorem acked_result_last {s : State} {m : OutMsg} {r : Req} {x : Rq} {f : Bytes} (htag : m.tag = .result r) (hx : reqOf s r = some x)
    (hf : x.final = some f) (hlast : x.unacked = 1) :
    acked s m = (putRecord (mapReq s r fun _ => { x with unacked := 0 }) { x with unacked := 0 } f, none) := by
  simp [acked, htag, hx, hf, hlast]

theorem acked_completion {s : State} {m : OutMsg} {t c : Nat} (htag : m.tag = .completion t (some c)) :
    acked s m = (cellAdd s c 1, some c) := by
  simp [acked, htag]

end Sys2Proof.Machine
end

section

namespace Sys2Proof.Machine

/-- Settles O26, row by row. The status after a REJ is log entry 7, the status operand of CM_REP log entry 43. -/
theorem connectionsOpenAndClose : Obligations.ConnectionsOpenAndClose := by
  refine ⟨fun r s s1 n hs hlink hrc hpkey hn => exec_cmReq_taken hs hlink hrc hpkey hn, fun n s q hs hlink hq =>
    ⟨exec_cmRtu_setup hs hlink hq, exec_cmDreq_standing hs hlink hq, exec_cmDrep_closing hq,
      fun peerQpn psn t na b hsetup hsent huse => exec_cmRep_peer hs hlink hq hsetup hsent huse peerQpn psn,
      fun t na b reason hsetup huse => exec_cmRej_peer hs hlink hq hsetup huse reason⟩⟩

/-- Settles O27: `ackTo` for what is acknowledged, `afterNak` and `retryQp` for what is not. -/
theorem acknowledgementsSettleMessages : Obligations.AcknowledgementsSettleMessages := by
  refine ⟨fun n psn s q hs hlink hq hconn => ?_, fun s m r x f => acked_result_last, fun s m t c => acked_completion,
    fun s n k => leaveConnected_qp⟩
  intro effect upTo taken before again
  have htaken : ∀ p, ackTo s n p = taken p := fun p => ackTo_standing hq p
  refine ⟨?ack, fun kind => ?nak, fun hwait => ⟨fun hspent => ?spent, fun hleft => ?left⟩⟩
  case ack => rw [exec_ackReceived_connected hs hlink hq hconn, htaken]
  case nak =>
    have hrow : exec (.nakReceived n psn kind) s = .next (afterNak kind n before) :=
      (exec_nakReceived_connected hs hlink hq hconn psn kind).trans (by rw [htaken])
    refine ⟨fun hnone => ?gone, fun k hk => ⟨fun hkind hleft => ?again, fun hkind hspent => ?exhausted, fun hseq hrnr => ?error⟩⟩
    case gone => rw [hrow, afterNak_gone kind hnone]
    case again => rw [hrow, afterNak_retries hk hkind, retryQp_again hleft, qpOf_num hk]
    case exhausted => rw [hrow, afterNak_retries hk hkind, retryQp_spent hspent, qpOf_num hk]
    case error => rw [hrow, afterNak_error hk hseq hrnr]
  case spent => rw [exec_ackTimeout_waiting hs hlink hq hconn hwait, retryQp_spent hspent, qpOf_num hq]
  case left => rw [exec_ackTimeout_waiting hs hlink hq hconn hwait, retryQp_again hleft, qpOf_num hq]

end Sys2Proof.Machine
end

section
/-! SUPPORT. Session commands, queries and node settings: the rows, and what each answers to an accepted command (R374 to R377, R387 to
R390, R393, R413, R526, R529, R535, R544, R550). -/

namespace Sys2Proof.Machine

/-! ## OPEN_SESSION -/

/-- The first eight bytes of an OPEN_SESSION of the OWNER role with a nonce are zero (Table 14-2). -/
theorem fields_of_zeroAt_head {b : Bytes} (h : zeroAt b 0 8 = true) :
    fld b 0 1 = 0 ∧ fld b 1 1 = 0 ∧ fld b 2 1 = 0 ∧ zeroAt b 3 5 = true := by
  rw [show 8 = 1 + (1 + (1 + 5)) from rfl] at h
  simp only [zeroAt_add, Bool.and_eq_true] at h
  exact ⟨fld_eq_zero h.1, fld_eq_zero h.2.1, fld_eq_zero h.2.2.1, h.2.2.2⟩

section
variable {sig : Option Signed} {x : MailCtx} {b : Bytes} {s : State}

@[simp] theorem ownerVerified_mapQp (s : State) (n : Nat) (f : Qp → Qp) (off : Nat) (m : Bytes) (sig : Option Signed) :
    ownerVerified (mapQp s n f) off m sig = ownerVerified s off m sig := rfl

@[simp] theorem mapQp_now (s : State) (n : Nat) (f : Qp → Qp) : (mapQp s n f).now = s.now := rfl

/-- The node with a session of role `r` on QP `n`; its number is a free value (R376, log entry 36). -/
def withSession (s : State) (n : Nat) (r : Role) (notAfter : Nat) : State :=
  mapQp { s with free := s.free + 1 } n fun q => { q with session := some ⟨r, notAfter, Config.pick s.free % 2 ^ 32⟩ }

/-- An OWNER credential over the nonce of its QP opens a session and uses the nonce up (R374, R375). -/
theorem openSession_owner {q : Qp} {e : Nat} (hrole : x.role = none) (hq : qpOf s x.qp = some q) (hhead : zeroAt b 0 8 = true)
    (hnonce : q.nonce = some (cut b 0x10 32, e)) (hfresh : s.now < e) (hafter : s.now < fld b 8 8)
    (hsig : ownerVerified s sessionKeyOff (credential 0 s.pw.node 0 0 (fld b 8 8) (cut b 0x10 32)) sig = true) :
    openSession sig x b s =
      .reply (withSession (mapQp s x.qp fun q => { q with nonce := none }) x.qp .owner (fld b 8 8)) stOK
        (u32 (Config.pick s.free % 2 ^ 32)) := by
  obtain ⟨hr, ht, hk, hpad⟩ := fields_of_zeroAt_head hhead
  simp [openSession, hr, ht, hk, hpad, hq, hnonce, hfresh, Nat.not_le.2 hafter, hsig, hrole, State.draw, withSession,
    -Nat.reducePow]

/-- A tenant's standing credential, which names no nonce, opens a session of that tenant (R375). -/
theorem openSession_tenant {k : Tenant} (hrole : x.role = none) (hr : fld b 0 1 = 1) (hkind : fld b 2 1 = 1) (hpad : zeroAt b 3 5 = true)
    (hno : zeroAt b 0x10 32 = true) (hk : tenantOf s (fld b 1 1) = some k) (hlive : k.dying = false) (hafter : s.now < fld b 8 8)
    (hsig : ownerVerified s sessionKeyOff (credential 1 s.pw.node 1 (fld b 1 1) (fld b 8 8) (cut b 0x10 32)) sig = true) :
    openSession sig x b s =
      .reply (withSession s x.qp (.tenant (fld b 1 1)) (fld b 8 8)) stOK (u32 (Config.pick s.free % 2 ^ 32)) := by
  simp [openSession, hr, hkind, hpad, hno, hk, hlive, Nat.not_le.2 hafter, hsig, hrole, State.draw, withSession, -Nat.reducePow]

/-- A credential over any other nonce than the live one of its QP is refused (R374, R376). -/
theorem openSession_fenced (hr : fld b 0 1 ≤ 1) (ht : fld b 0 1 = 0 → fld b 1 1 = 0) (hkind : fld b 2 1 = 0) (hpad : zeroAt b 3 5 = true)
    (hother : ∀ q e, qpOf s x.qp = some q → q.nonce = some (cut b 0x10 32, e) → e ≤ s.now) :
    openSession sig x b s = .reply s stFENCED [] := by
  have hrange : ¬ 1 < fld b 0 1 := Nat.not_lt.2 hr
  have howner : ¬ (fld b 0 1 = 0 ∧ ¬ fld b 1 1 = 0) := fun h => h.2 (ht h.1)
  cases hq : qpOf s x.qp with
  | none => simp [openSession, hrange, howner, hkind, hpad, hq]
  | some q =>
    cases hn : q.nonce with
    | none => simp [openSession, hrange, howner, hkind, hpad, hq, hn]
    | some p =>
      by_cases hsame : p.1 = cut b 0x10 32
      · have hpast : ¬ s.now < p.2 := Nat.not_lt.2 (hother q p.2 hq (by rw [hn, ← hsame]))
        simp [openSession, hrange, howner, hkind, hpad, hq, hn, hpast]
      · simp [openSession, hrange, howner, hkind, hpad, hq, hn, hsame]

end

/-! ## The session rows -/

section
variable {c : Cmd} {s s1 : State} {r : MailCmd}

theorem exec_sessionExpiry_open {n : Nat} {q : Qp} {x : Session} (hq : qpOf s n = some q) (hx : q.session = some x) :
    exec (.sessionExpiry n) s = .next (endSession (s.at x.notAfter) n) := by
  change execSessionExpiry n s = _
  simp [execSessionExpiry, hq, hx]

/-! ## Queries -/

theorem exec_slotQuery_held (h : Accepted 0x0007 .tenant (fun _ => 4) c s s1 r) (hlo : 1 ≤ fld r.body 2 2) (hhi : fld r.body 2 2 ≤ 1000)
    (hheld : ((List.range (fld r.body 2 2)).map (fld r.body 0 2 + ·)).all (fun i => match slotLease s1 i with
      | some l => l.tenant == callerTenant s1 c && l.service.isNone | none => false) = true) :
    exec (.slotQuery c) s = .next (answered s1 c stOK (((List.range (fld r.body 2 2)).map (fld r.body 0 2 + ·)).flatMap fun i =>
      u32 (lastOf s1 (.net i) + (if (reqOf s1 (.net i)).isSome then 65536 else 0)))) := by
  have hcount : ¬ ((decide (fld r.body 2 2 < 1) || decide (fld r.body 2 2 > 1000)) = true) := by simp; omega
  refine exec_of_reply rfl h ((if_neg hcount).trans (if_pos ?_))
  rw [mailCtx_tenant]
  exact hheld

theorem exec_statsGet_tenant (h : Accepted 0x0008 .tenant (fun _ => 0) c s s1 r) {t : Tenant}
    (ht : tenantOf s1 (callerTenant s1 c) = some t) :
    exec (.statsGet c) s = .next (answered s1 c stOK ((statsOf t).flatMap u64)) := by
  refine exec_of_reply rfl h ?_
  rw [mailCtx_tenant, ht]

theorem exec_spanInfo_held (h : Accepted 0x0112 .tenant (fun _ => 16) c s s1 r) (hlo : 1 ≤ fld r.body 0xC 2)
    (hhi : fld r.body 0xC 2 ≤ 126) (hpad : zeroAt r.body 0xE 2 = true) {q : Seq}
    (hq : tenantSeq s1 (callerTenant s1 c) (fld r.body 0 8) = some q) :
    exec (.spanInfo c) s = .next (answered s1 c stOK ((List.range (fld r.body 0xC 2)).flatMap fun i =>
      match spanOf s1 q.als (fld r.body 8 1) (fld r.body 9 1) (fld r.body 0xA 2 + i) with
      | some y => spanBytes y
      | none => zeros 32)) := by
  have hcount : ¬ ((decide (fld r.body 0xC 2 < 1) || decide (fld r.body 0xC 2 > 126) || !zeroAt r.body 0xE 2) = true) := by
    simp [hpad]; omega
  refine exec_of_reply rfl h ((if_neg hcount).trans ?_)
  rw [mailCtx_tenant, hq] <;> rfl

/-- DURABLE_REPORT clears RESTARTED of the sequences it reports (R342, Table 12-7). -/
theorem exec_durableReport_accepted (h : Accepted 0x0115 .tenant (fun _ => 8) c s s1 r) {qs : List Seq}
    (hqs : qs = (sortBy (fun (a b : Seq) => decide (a.handle < b.handle)) (s1.sq.seqs.filter fun q =>
      q.tenant == callerTenant s1 c && !q.gone && q.stub.isNone && decide (fld r.body 0 8 < q.handle))).take 168) :
    exec (.durableReport c) s = .next (answered
      (qs.foldl (fun s q => mapSeq s q.als fun q => { q with restarted := false }) s1)
      c stOK (u32 qs.length ++ zeros 4 ++ qs.flatMap (durBytes s1))) := by
  subst hqs
  refine exec_of_reply rfl h ?_
  rw [mailCtx_tenant]

theorem exec_healthGet_accepted (h : Accepted 0x0271 .control (fun _ => 0) c s s1 r) :
    exec (.healthGet c) s = .next (answered s1 c stOK
      (u16 s1.hl.score ++ u8 s1.hl.band ++ u8 s1.hl.pbad ++ u16 (retiredOrRetiring s1) ++ u16 (retiredChannels s1) ++
        u16 s1.hl.hb ++ u16 s1.hl.hu ++ u16 s1.hl.hc ++ u16 s1.hl.hf ++ u16 s1.hl.hs ++ u16 0 ++ u32 s1.hl.u24 ++ u32 s1.hl.v24 ++
        u32 0 ++ u64 s1.hl.ceTotal ++ u64 s1.hl.sramCe ++ u64 s1.hl.passEnd ++ u64 s1.hl.bandSince)) := by
  change execHealthGet c s = _
  simp only [execHealthGet, mailRow_accepted h]

/-! ## Node settings -/

theorem exec_nodeIdSet_unleased (h : Accepted 0x0200 .control (fun _ => 2) c s s1 r) (hid : fld r.body 0 2 ≠ 0)
    (hleases : s1.own.leases = []) :
    exec (.nodeIdSet c) s =
      .next (answered (saveCfg (identityChanged { s1 with pw := { s1.pw with node := fld r.body 0 2 } })) c stOK []) :=
  exec_of_reply rfl h ((if_neg hid).trans (if_neg (by simp [hleases])))

/-- The subscriptions of other mailboxes than the command's (R413). -/
def otherSubs (s : State) (c : Cmd) : List Sub := s.nuc.subs.filter fun u => u.box != c.box

/-- RING_ADDR 0 ends the subscription, whatever LOG2 holds (log entry 37). -/
theorem exec_eventSubscribe_ends (h : Accepted 0x0201 .control (fun _ => 24) c s s1 r) (hpad : zeroAt r.body 17 7 = true)
    (haddr : fld r.body 0 8 = 0) :
    exec (.eventSubscribe c) s = .next (answered { s1 with nuc := { s1.nuc with subs := otherSubs s1 c } } c stOK []) :=
  exec_of_reply rfl h ((if_neg (by simp [hpad, haddr])).trans (if_pos haddr))

theorem exec_eventSubscribe_ring (h : Accepted 0x0201 .control (fun _ => 24) c s s1 r) (hpad : zeroAt r.body 17 7 = true)
    (haddr : fld r.body 0 8 ≠ 0) (hlog : inRange (fld r.body 16 1) 6 16 = true) {q : Nat}
    (hq : q = if fld r.body 12 4 = 0 then callerQp s1 c else fld r.body 12 4) (hbox : ¬ (fld r.body 12 4 = 0 ∧ c.box = .sideband))
    (hconn : connected s1 q = true) :
    exec (.eventSubscribe c) s = .next (answered { s1 with nuc := { s1.nuc with
      subs := otherSubs s1 c ++ [⟨c.box, fld r.body 0 8, fld r.body 8 4, q, fld r.body 16 1⟩] } } c stOK []) := by
  subst hq
  obtain ⟨hlo, hhi⟩ : 6 ≤ fld r.body 16 1 ∧ fld r.body 16 1 ≤ 16 := by simpa [inRange] using hlog
  refine exec_of_reply rfl h ((if_neg ?pad).trans ((if_neg haddr).trans (if_neg ?qp)))
  case pad => simp [hpad, Nat.not_lt.2 hlo, Nat.not_lt.2 hhi]
  case qp => simpa [hconn] using hbox

theorem exec_maceRateSet_ranges (h : Accepted 0x0272 .control (fun _ => 8) c s s1 r) (hpass : inRange (fld r.body 0 4) 60 10080 = true)
    (hdays : fld r.body 4 1 ≤ 90) (hpad : zeroAt r.body 5 3 = true) :
    exec (.maceRateSet c) s = .next (answered
      { s1 with hl := { s1.hl with passMin := fld r.body 0 4, t2Days := fld r.body 4 1 } } c stOK []) :=
  exec_of_reply rfl h (if_neg (by simp [hpass, Nat.not_lt.2 hdays, hpad]))

/-- A budget below the exit time of the present power state wakes the node (R550). -/
theorem exec_wakeBudgetSet_ranges (h : Accepted 0x0251 .control (fun _ => 16) c s s1 r) (hbudget : fld r.body 0 4 ≤ 100000)
    (hdwell : inRange (fld r.body 4 4) 10 1000000 = true) (hpad : zeroAt r.body 8 8 = true) {s2 : State}
    (hs2 : s2 = { s1 with pw := { s1.pw with budgetUs := fld r.body 0 4, dwellUs := fld r.body 4 4 } }) :
    exec (.wakeBudgetSet c) s =
      .next (answered (if exitUs s1.pw.pstate > fld r.body 0 4 then leaveState s2 else s2) c stOK []) := by
  subst hs2
  exact exec_of_reply rfl h (if_neg (by simp [Nat.not_lt.2 hbudget, hdwell, hpad]))

end

/-! ## POWER_LIMIT_SET -/

/-- Stack `i` takes its envelope, with its credit settled: one step of POWER_LIMIT_SET (R134, R544). -/
def setEnvelope (st : List Nat) (s : State) (i : Nat) : State :=
  setStack s (resettle s (stackOf s i) { stackOf s i with envelope := st.getD i 340 })

theorem envelope_setEnvelope (st : List Nat) (s : State) (i j : Nat) (h : j = i ∨ (stackOf s j).envelope = st.getD j 340) :
    (stackOf (setEnvelope st s i) j).envelope = st.getD j 340 := by
  by_cases hij : i = j
  · subst hij
    simp [setEnvelope, stackOf_setStack, resettle]
  · simpa [setEnvelope, stackOf_setStack, resettle, hij, Ne.symm hij] using h

theorem envelope_foldl (st is : List Nat) (j : Nat) :
    ∀ s : State, j ∈ is ∨ (stackOf s j).envelope = st.getD j 340 →
      (stackOf (is.foldl (setEnvelope st) s) j).envelope = st.getD j 340 := by
  induction is with
  | nil => simp
  | cons i is ih =>
    intro s h
    refine ih _ ?_
    rcases h with hj | hj
    · rcases List.mem_cons.1 hj with rfl | hj
      · exact .inr (envelope_setEnvelope st s j j (.inl rfl))
      · exact .inl hj
    · exact .inr (envelope_setEnvelope st s i j (.inr hj))

/-- Group `i` takes its allowance, its credit settled under the old one and cut to the new depth (R544). -/
def setAllowance (gs : List Nat) (s : State) (i : Nat) : Group :=
  let g := s.arr.groups.getD i { id := i }
  let n := { g with allowance := gs.getD i 140 }
  { n with credit := min (groupDepth s n) (groupCredit s g), creditAt := s.now }

/-- The node under the limit of the application cores and the allowances of the groups. -/
def withAllowances (s : State) (gs : List Nat) (app : Nat) : State :=
  { s with pw.appW := app, arr.groups := (List.range 8).map (setAllowance gs s) }

theorem withAllowances_allowance (s : State) {gs : List Nat} (h : gs.length = 8) (app : Nat) :
    (withAllowances s gs app).arr.groups.map Group.allowance = gs := by
  have hmap : (withAllowances s gs app).arr.groups.map Group.allowance = (List.range 8).map fun i => gs.getD i 140 := List.map_map
  rw [hmap]
  refine List.ext_getElem (by simp [h]) fun i hi hg => ?_
  simp [hg]

theorem stackOf_withAllowances (s : State) (gs : List Nat) (app i : Nat) : stackOf (withAllowances s gs app) i = stackOf s i := rfl

/-- The node under new envelopes and allowances. -/
def withLimits (s : State) (st gs : List Nat) (app : Nat) : State :=
  withAllowances ((List.range 18).foldl (setEnvelope st) s) gs app

theorem withLimits_envelope (s : State) (st gs : List Nat) (app : Nat) {i : Nat} (h : i < 18) :
    (stackOf (withLimits s st gs app) i).envelope = st.getD i 340 := by
  rw [withLimits, stackOf_withAllowances]
  exact envelope_foldl st (List.range 18) i s (.inl (List.mem_range.2 h))

theorem powerLimit_inRange {b : Bytes} {st gs : List Nat} {app : Nat} (hst : st = (List.range 18).map fun i => fld b (2 * i) 2)
    (hgs : gs = (List.range 8).map fun i => fld b (0x24 + i) 1) (happ : app = fld b 0x2C 2)
    (hstacks : ∀ v ∈ st, inRange v 120 340 = true) (hgroups : ∀ v ∈ gs, inRange v 20 140 = true) (hcores : inRange app 40 200 = true)
    (hpad : zeroAt b 0x2E 2 = true) (hin : sumBy id st ≤ 6200) (hnode : sumBy id gs * 5 + app * 10 + 800 ≤ 8200) (s : State) :
    powerLimit b s = .reply (withLimits s st gs app) stOK [] := by
  have hguard : ¬ ((st.any (fun v => !inRange v 120 340) || gs.any (fun v => !inRange v 20 140) || !inRange app 40 200 ||
      !zeroAt b 0x2E 2 || decide (sumBy id st > 6200) || decide (sumBy id gs * 5 + app * 10 + 800 > 8200)) = true) := by
    have h1 : st.any (fun v => !inRange v 120 340) = false := by simpa using hstacks
    have h2 : gs.any (fun v => !inRange v 20 140) = false := by simpa using hgroups
    simp [h1, h2, hcores, hpad, Nat.not_lt.2 hin, Nat.not_lt.2 hnode]
  subst hst hgs happ
  exact if_neg hguard

/-! ## PEER_CONNECT -/

/-- A PEER_CONNECT to node id 0 is refused (R22). -/
theorem exec_peerConnect_noNode {c : Cmd} {s s1 : State} {r : MailCmd} (h : Accepted 0x0006 .tenant (fun _ => 0x20 + sigLen) c s s1 r)
    (hnode : fld r.body 0 2 = 0) : exec (.peerConnect c) s = .next (answered s1 c stMALFORMED []) :=
  exec_of_reply rfl h (if_pos (by simp [hnode]))

theorem mapQp_qps_length (s : State) (n : Nat) (f : Qp → Qp) : (mapQp s n f).nuc.qps.length = s.nuc.qps.length := by
  simp [mapQp]

theorem send_qps_length (s : State) (n : Nat) (op : OutOp) (tag : AckTag) : (send s n op tag).nuc.qps.length = s.nuc.qps.length := by
  unfold send
  split
  · rfl
  · exact (congrArg (fun t => t.qps.length) (foldl_keeps State.nuc _ (fun _ _ => toQueue_nuc ..) _ _)).trans (mapQp_qps_length ..)

theorem boxPut_qps_length (s : State) (b : Box) (m : Mailbox) : (boxPut s b m).nuc.qps.length = s.nuc.qps.length := by
  cases b with
  | session n => exact mapQp_qps_length ..
  | control n => rfl
  | sideband => rfl

theorem saveCfg_nuc (s : State) : (saveCfg s).nuc = s.nuc := by
  unfold saveCfg
  split <;> rfl

theorem mailBegun_qps_length (s : State) (b : Box) : (mailBegun s b).nuc.qps.length = s.nuc.qps.length := by
  unfold mailBegun
  split
  · exact boxPut_qps_length ..
  · rfl

theorem mailReply_qps_length (s : State) (b : Box) (status : Nat) (body : Bytes) :
    (mailReply s b status body).nuc.qps.length = s.nuc.qps.length := by
  unfold mailReply
  cases hm : boxAny s b with
  | none => rfl
  | some m =>
    cases hr : m.run with
    | none => simp only [hr]
    | some r =>
      simp only [hr]
      repeat' split
      all_goals simp [send_qps_length, boxPut_qps_length, bumpNoNotice]

/-- A reply opens no QP. -/
theorem answered_qps_length (s : State) (c : Cmd) (status : Nat) (body : Bytes) :
    (answered s c status body).nuc.qps.length = s.nuc.qps.length := by
  rw [answered, saveCfg_nuc, mailReply_qps_length]

theorem startConnect_qps_length (s : State) (n : Nat) : (startConnect s n).nuc.qps.length = s.nuc.qps.length := by
  simp only [startConnect]
  split
  · split <;> simp [postCm, postCtl, mapQp]
  · rfl

theorem freeQpn_nuc {s t : State} {n : Nat} (h : freeQpn s = some (n, t)) : t.nuc = s.nuc := by
  simp only [freeQpn, pickRun] at h
  split at h
  · cases h
  · cases h
    rfl

theorem openQp_qps_length {s t : State} {use : QpUse} {addr node n : Nat} {sig : Bytes} (h : openQp s use addr node sig = some (n, t)) :
    t.nuc.qps.length = s.nuc.qps.length + 1 := by
  unfold openQp at h
  split at h
  · cases h
  · next hq =>
    have hnuc := freeQpn_nuc hq
    cases h
    rw [startConnect_qps_length, ← hnuc]
    exact List.length_append

/-- The body of a PEER_CONNECT that is zero throughout, and so names node id 0. -/
def noPeer : Bytes := zeros (0x20 + sigLen)

/-- It is armed on QP 1 of tenant 3 and passes the checks that every command has. -/
theorem takes_noPeer : Takes onQp 0x0006 .tenant (fun _ => 0x20 + sigLen) (tenantNode 6 noPeer) noPeer :=
  ⟨⟨rfl, by decide⟩, rfl, by decide +kernel⟩

theorem noPeer_node : fld noPeer 0 2 = 0 := by decide +kernel

theorem noPeer_pad : zeroAt noPeer 2 6 = true := by decide +kernel

end Sys2Proof.Machine
end

section

namespace Sys2Proof.Machine

/-- Settles O6. The model takes the live nonce that an OPEN_SESSION presents before it verifies the credential; log entry 35 speaks of the
session that opens. -/
theorem noncesServeOneSession : Obligations.NoncesServeOneSession := by
  refine ⟨fun c s s1 r h => ?nonce, fun c sig s s1 r q e h hrole hq hhead hnonce hfresh hafter hsig => ?opens,
    fun c sig s s1 r h hr ht hkind hpad hother => ?fenced⟩
  case nonce => exact exec_of_reply rfl h rfl
  case opens => exact exec_of_reply rfl h (openSession_owner hrole hq hhead hnonce hfresh hafter hsig)
  case fenced => exact exec_of_reply rfl h (openSession_fenced hr ht hkind hpad hother)

/-- Settles O7. The session's number is a free value (log entry 36). -/
theorem sessionsOpenAndClose : Obligations.SessionsOpenAndClose := by
  refine ⟨fun c sig s s1 r k h hrole hr hkind hpad hno hk hlive hafter hsig => ?opens, fun c s s1 r h => ?closes,
    fun n s q x hq hx => exec_sessionExpiry_open hq hx⟩
  case opens => exact exec_of_reply rfl h (openSession_tenant hrole hr hkind hpad hno hk hlive hafter hsig)
  case closes => exact exec_of_reply rfl h rfl

/-- Settles O9, row by row. DURABLE_REPORT alone changes more than its mailbox: it clears RESTARTED (R342, Table 12-7). -/
theorem queriesAnswerFromState : Obligations.QueriesAnswerFromState := by
  refine ⟨fun c s s1 r h hlo hhi hheld => exec_slotQuery_held h hlo hhi hheld, fun c s s1 r t h ht => ?stats,
    fun c s s1 r q h hlo hhi hpad hq => exec_spanInfo_held h hlo hhi hpad hq, fun c s s1 r qs h hqs => exec_durableReport_accepted h hqs,
    fun c s s1 r es h hes => ?errors, fun c s s1 r h => exec_healthGet_accepted h⟩
  case stats => simpa [statsOf] using exec_statsGet_tenant h ht
  case errors =>
    subst hes
    exact exec_of_reply rfl h rfl

/-- Settles O16, row by row. That the end of a subscription looks at no LOG2 is log entry 37. -/
theorem nodeSettingsTakeEffect : Obligations.NodeSettingsTakeEffect := by
  refine ⟨fun c s s1 r h hid hleases => exec_nodeIdSet_unleased h hid hleases,
    fun c s s1 r h hpad => ⟨fun haddr => exec_eventSubscribe_ends h hpad haddr,
      fun q haddr hlog hq hbox hconn => exec_eventSubscribe_ring h hpad haddr hlog hq hbox hconn⟩,
    fun c s s1 r h hpass hdays hpad => exec_maceRateSet_ranges h hpass hdays hpad,
    fun c s s1 r h hbudget hdwell hpad => exec_wakeBudgetSet_ranges h hbudget hdwell hpad rfl,
    ?limits⟩
  intro c s s1 r h st gs app hstacks hgroups hcores hpad hin hnode
  have hrow : exec (.powerLimitSet c) s = .next (answered (withLimits s1 st gs app) c stOK []) :=
    exec_of_reply rfl h (powerLimit_inRange rfl rfl rfl hstacks hgroups hcores hpad hin hnode s1)
  exact ⟨withLimits s1 st gs app, hrow, rfl, withAllowances_allowance _ (by simp [gs]) app, fun i hi => withLimits_envelope s1 st gs app hi⟩

/-- Refutes O8: its PEER_CONNECT clause leaves out that the peer is a node id other than 0. The row answers MALFORMED to node id 0 and opens
no QP (R22): `noPeer` on `tenantNode`, where a QP number is free. -/
theorem not_mailboxesAttachAndPeersConnect : ¬ Obligations.MailboxesAttachAndPeersConnect := by
  rintro ⟨-, -, hconnect⟩
  obtain ⟨n, t, hopen⟩ : ∃ n t, openQp (tenantNode 6 noPeer) (.peer (callerTenant (tenantNode 6 noPeer) onQp) (fld noPeer 8 8) onQp.box)
      (fld noPeer 0x10 16) (fld noPeer 0 2) (cut noPeer 0x20 sigLen) = some (n, t) := ⟨_, _, rfl⟩
  have hstated := hconnect onQp (tenantNode 6 noPeer) (tenantNode 6 noPeer) t (armedCmd 6 noPeer) n takes_noPeer noPeer_pad hopen
  rw [exec_peerConnect_noNode takes_noPeer noPeer_node] at hstated
  have hcount := congrArg (fun s => s.nuc.qps.length) (Host.Outcome.next.inj hstated)
  simp only [answered_qps_length, saveCfg_nuc, mailBegun_qps_length, openQp_qps_length hopen] at hcount
  omega

end Sys2Proof.Machine
end

section

namespace Sys2Proof.Machine

/-- A bank that the reset state does not list has its defaults. -/
theorem bankOf_reset (b : Nat) : bankOf State.reset b = { id := b } := rfl

/-- No slot has a LAST of its own at reset (R397). -/
theorem lastOf_reset (id : Req) : lastOf State.reset id = 0xFFFF := rfl

theorem memoriesWf_reset : memoriesWf State.reset = true := by decide

/-- Every life-cycle state lies at or above the first, and no count is below 0. -/
theorem fusesHold_reset : FusesHold 0 0 none State.reset := ⟨Nat.zero_le _, Nat.zero_le _, fun _ h => nomatch h⟩

/-- Settles O60, field by field. -/
theorem resetState : Obligations.ResetState :=
  ⟨⟨rfl, rfl, rfl, rfl, rfl, rfl, rfl, rfl, rfl, rfl, rfl, rfl, fun b _ => by rw [bankOf_reset]; exact ⟨rfl, rfl⟩,
    fun i => lastOf_reset (.net i), rfl, rfl⟩, memoriesWf_reset, rfl, fusesHold_reset⟩

end Sys2Proof.Machine
end

section
/-! SUPPORT. Leases: what an allocation leaves alone, the term of a grant, and the three lease rows (R422 to R427, R607). -/

namespace Sys2Proof.Machine

/-! ## Allocation of frames -/

/-- `t` is `s` but for T1, the spans and the health counts: all that an allocation touches (Table 12-3, R320). -/
def AllocatesTo (s t : State) : Prop := ∃ m q h, t = { s with mem := m, sq := q, hl := h }

theorem AllocatesTo.refl (s : State) : AllocatesTo s s := ⟨s.mem, s.sq, s.hl, rfl⟩

theorem AllocatesTo.trans {s t u : State} (h : AllocatesTo s t) (h' : AllocatesTo t u) : AllocatesTo s u := by
  obtain ⟨m, q, l, rfl⟩ := h
  obtain ⟨m', q', l', rfl⟩ := h'
  exact ⟨m', q', l', rfl⟩

theorem AllocatesTo.foldl {α : Type} {f : State → α → State} (h : ∀ s a, AllocatesTo s (f s a)) (xs : List α) (s : State) :
    AllocatesTo s (xs.foldl f s) :=
  List.foldlRecOn xs f (motive := AllocatesTo s) (.refl s) fun t ht a _ => ht.trans (h t a)

theorem freeSpanFrames_allocatesTo (s : State) (x : Span) : AllocatesTo s (freeSpanFrames s x) := by
  unfold freeSpanFrames
  split
  · exact ⟨_, s.sq, s.hl, rfl⟩
  · exact .refl s

theorem evict_allocatesTo (s : State) (x : Span) : AllocatesTo s (evict s x) :=
  (freeSpanFrames_allocatesTo s x).trans ⟨_, _, _, rfl⟩

theorem setSealBase_allocatesTo (s : State) (b : Nat) : AllocatesTo s (setSealBase s b) := by
  unfold setSealBase
  simp only
  split
  · exact ⟨_, s.sq, s.hl, rfl⟩
  · exact .refl s

theorem zeroRun_allocatesTo (s : State) (x : Freed) : AllocatesTo s (zeroRun s x) := by
  refine AllocatesTo.trans ?_ (setSealBase_allocatesTo ..)
  split
  · exact ⟨_, _, _, rfl⟩
  · exact ⟨_, _, _, rfl⟩

theorem zeroAll_allocatesTo (s : State) : AllocatesTo s (zeroAll s) := .foldl zeroRun_allocatesTo _ s

theorem placeIn_allocatesTo {s t : State} {n k strength owner : Nat} {use : Use} {banks : List Nat} {r : Region}
    (h : placeIn s n k strength use owner banks = some (r, t)) : AllocatesTo s t := by
  obtain ⟨b, -, hb⟩ := List.exists_of_findSome?_eq_some h
  split at hb
  · cases hb
    exact AllocatesTo.trans ⟨_, s.sq, s.hl, rfl⟩ (setSealBase_allocatesTo ..)
  · cases hb

section
variable {α : Type} {go : State → Option α} {p : α → State} (hgo : ∀ s a, go s = some a → AllocatesTo s (p a))
include hgo

theorem tryPlace_allocatesTo {t n : Nat} {s : State} {a : α} (h : tryPlace t n go s = some a) : AllocatesTo s (p a) := by
  unfold tryPlace at h
  split at h
  · split at h
    · next hr => exact hgo s a (hr.trans h)
    · split at h
      · exact (zeroAll_allocatesTo s).trans (hgo _ a h)
      · cases h
  · cases h

theorem evictFor_allocatesTo {xs : List Span} {s : State} {a : α} (h : evictFor go xs s = some a) : AllocatesTo s (p a) := by
  induction xs generalizing s with
  | nil => cases h
  | cons x xs ih =>
    rw [evictFor] at h
    split at h
    · next hr => exact (evict_allocatesTo s x).trans (hgo _ a (hr.trans h))
    · exact (evict_allocatesTo s x).trans (ih h)

theorem fit_allocatesTo {t n : Nat} {s : State} {a : α} (h : fit s t n go = some a) : AllocatesTo s (p a) := by
  unfold fit at h
  split at h
  · next hr => exact tryPlace_allocatesTo hgo (hr.trans h)
  · exact evictFor_allocatesTo (fun _ _ => tryPlace_allocatesTo hgo) h

end

theorem allocatePool_allocatesTo {s u : State} {t n strength owner : Nat} {use : Use}
    (h : allocatePool s t n strength use owner = some u) : AllocatesTo s u := by
  refine fit_allocatesTo (p := id) (fun s a ha => ?_) h
  have hall : ∀ v, (pieces n).foldl (fun (a : Option State) k =>
      a.bind fun s => (placeIn s t (withCheck k strength) strength use owner (pieceBanks s t)).map Prod.snd) (some s) = some v →
      AllocatesTo s v :=
    List.foldlRecOn (pieces n) _ (motive := fun (o : Option State) => ∀ v, o = some v → AllocatesTo s v)
      (fun v hv => by cases hv; exact .refl s) fun o ho k _ v hv => by
        obtain ⟨w, hw, hp⟩ := Option.bind_eq_some_iff.1 hv
        obtain ⟨⟨r, x⟩, hx, rfl⟩ := Option.map_eq_some_iff.1 hp
        exact (ho w hw).trans (placeIn_allocatesTo hx)
  exact hall a ha

/-! ## The term of a grant -/

theorem pickRun_changes {s t : State} {lo hi n k : Nat} {used : List (Nat × Nat)} (h : pickRun s lo hi n used = some (k, t)) :
    t = { s with free := s.free + 1 } := by
  simp only [pickRun] at h
  split at h
  · cases h
  · cases h
    rfl

/-- A term is as long as the lease asks for, and its fence is at the latest at its end (R425, R426). -/
theorem setTerm_fences (s : State) (l : Lease) :
    (setTerm s l).expiry = s.now + 10 ^ 6 * l.ms ∧ (setTerm s l).fenceAt ≤ (setTerm s l).expiry ∧
    (s.clock.ptp = .locked → (setTerm s l).fenceAt = (setTerm s l).expiry) := by
  by_cases hp : s.clock.ptp = .holdover
  · simp [setTerm, hp]
  · simp [setTerm, hp]

/-- What a term leaves alone. -/
theorem setTerm_keeps (s : State) (l : Lease) :
    (setTerm s l).state = l.state ∧ (setTerm s l).tenant = l.tenant ∧ (setTerm s l).ms = l.ms ∧ (setTerm s l).slots = l.slots ∧
    (setTerm s l).cells = l.cells ∧ (setTerm s l).stageMib = l.stageMib ∧ (setTerm s l).service = l.service := by
  unfold setTerm
  split
  · exact ⟨rfl, rfl, rfl, rfl, rfl, rfl, rfl⟩
  · exact ⟨rfl, rfl, rfl, rfl, rfl, rfl, rfl⟩

/-- An ordinary lease is granted under a term set at the present time, and stands among the leases. -/
theorem allotLease_term {s t : State} {tenant ms n cells mib : Nat} {l : Lease}
    (h : allotLease s tenant ms n cells mib none = some (l, t)) :
    t.clock = s.clock ∧ l ∈ t.own.leases ∧ ∃ k : Lease, ∃ u : State, u.clock = s.clock ∧ l = setTerm u k ∧ k.state = .active ∧
      k.tenant = tenant ∧ k.ms = ms ∧ k.slots = n ∧ k.cells = cells ∧ k.stageMib = mib ∧ k.service = none := by
  unfold allotLease at h
  split at h
  · cases h
  · split at h
    · cases h
    · next id s1 hid =>
      split at h
      · cases h
      · next sf s2 hsf =>
        simp only at h
        split at h
        · cases h
        · next cf s3 hcf =>
          have h3 : s3.clock = s.clock := by
            have h2 : s2.clock = s.clock := by rw [pickRun_changes hsf, pickRun_changes hid]
            split at hcf
            · cases hcf
              exact h2
            · rw [pickRun_changes hcf, h2]
          obtain ⟨u, hu, heq⟩ := Option.map_eq_some_iff.1 h
          obtain ⟨m, q, hl, rfl⟩ := allocatePool_allocatesTo hu
          cases heq
          exact ⟨h3, List.mem_append_right _ (List.mem_singleton_self _), _, _, h3, rfl, rfl, rfl, rfl, rfl, rfl, rfl, rfl⟩

/-! ## The lease rows -/

section
variable {c : Cmd} {s s1 : State} {r : MailCmd}

theorem exec_leaseGrant_allotted (h : Accepted 0x0100 .tenant (fun _ => 16) c s s1 r) (hms : inRange (fld r.body 0 4) 100 60000 = true)
    (hslots : inRange (fld r.body 4 4) 1 16384 = true) (hcells : fld r.body 8 4 ≤ 16384) (hcells64 : fld r.body 8 4 % 64 = 0)
    (hmib : fld r.body 12 4 ≤ 16384) (hmib2 : fld r.body 12 4 % 2 = 0) (hclock : clockOk s1 = true) (hsave : noSaveArea s1 = false)
    {l : Lease} {s2 : State}
    (hlease : allotLease s1 (callerTenant s1 c) (fld r.body 0 4) (fld r.body 4 4) (fld r.body 8 4) (fld r.body 12 4) none = some (l, s2)) :
    exec (.leaseGrant c) s = .next (answered s2 c stOK (u32 l.rkey ++ zeros 4 ++ leaseCellBytes l)) := by
  simp only [inRange, decide_eq_true_eq] at hms hslots
  refine exec_of_reply rfl h ((if_neg ?range).trans ((if_neg (by simp [hclock, hsave])).trans ?_))
  case range => simp [hcells64, hmib2]; omega
  rw [mailCtx_tenant, hlease]

theorem exec_leaseRenew_live (h : Accepted 0x0101 .tenant (fun _ => 8) c s s1 r) (hpad : zeroAt r.body 4 4 = true) {l : Lease}
    (hl : tenantLease (settleLease s1 (fld r.body 0 2)) (callerTenant s1 c) (fld r.body 0 2) = some l) (hactive : l.state = .active)
    (hgen : l.gen = fld r.body 2 2) (hclock : clockOk (settleLease s1 (fld r.body 0 2)) = true) {l' : Lease}
    (hl' : l' = if l.service.isSome then l else setTerm (settleLease s1 (fld r.body 0 2)) l) :
    exec (.leaseRenew c) s = .next (answered (mapLease (settleLease s1 (fld r.body 0 2)) (fld r.body 0 2) fun _ => l') c stOK
      (leaseCellBytes l')) := by
  subst hl'
  refine exec_of_reply rfl h ((if_neg (by simp [hpad])).trans ?_)
  simp [hl, hactive, hgen, hclock]

theorem exec_leaseRelease_held (h : Accepted 0x0102 .tenant (fun _ => 2) c s s1 r) {l : Lease}
    (hl : tenantLease (settleLease s1 (fld r.body 0 2)) (callerTenant s1 c) (fld r.body 0 2) = some l) :
    exec (.leaseRelease c) s = .next (answered (endLease (settleLease s1 (fld r.body 0 2)) (fld r.body 0 2) 2) c stOK []) := by
  refine exec_of_reply rfl h ?_
  simp [hl]

end

end Sys2Proof.Machine
end

section

namespace Sys2Proof.Machine

/-- Settles O11: the term is set by the clock of the grant, which the allocation of staging frames leaves alone. -/
theorem grantedLeaseTerms : Obligations.GrantedLeaseTerms := by
  intro s t tenant ms n cells mib l h
  obtain ⟨hclock, hmem, k, u, hu, rfl, hstate, htenant, hms, hslots, hcells, hmib, hservice⟩ := allotLease_term h
  obtain ⟨hexp, hfence, hlocked⟩ := setTerm_fences u k
  obtain ⟨kstate, ktenant, kms, kslots, kcells, kmib, kservice⟩ := setTerm_keeps u k
  refine ⟨kstate.trans hstate, ktenant.trans htenant, kms.trans hms, kslots.trans hslots, kcells.trans hcells, kmib.trans hmib,
    kservice.trans hservice, ?expiry, hfence, fun h => hlocked (by rw [hu, ← hclock, h]), hmem⟩
  case expiry => rw [hexp, hclock, hms, State.now, hu]

/-- Settles O10. That a renewal leaves the term of a service lease alone is log entry 57, with R419 and Table 15-2. -/
theorem leasesGrantRenewRelease : Obligations.LeasesGrantRenewRelease := by
  refine ⟨fun c s s1 s2 r l h hms hslots hcells hcells64 hmib hmib2 hclock hsave hlease =>
      exec_leaseGrant_allotted h hms hslots hcells hcells64 hmib hmib2 hclock hsave hlease,
    fun c s s1 s2 r l h hpad hs2 hl hactive hgen hclock => ?renew, fun c s s1 s2 r l h hs2 hl => ?release⟩
  case renew =>
    subst hs2
    exact ⟨fun hno => exec_leaseRenew_live h hpad hl hactive hgen hclock (by simp [hno]),
      fun hservice => exec_leaseRenew_live h hpad hl hactive hgen hclock (by simp [Option.isSome_iff_ne_none.2 hservice])⟩
  case release =>
    subst hs2
    exact exec_leaseRelease_held h hl

end Sys2Proof.Machine
end

section
/-! SUPPORT. Mailbox rows that share a command code or whose reply comes later; the rows on tenants (R414 to R418, R498, R501, R506). -/

namespace Sys2Proof.Machine

/-! ## Mailbox rows -/

section
variable {c : Cmd} {s s1 t : State} {r : MailCmd} {i : Instr} {code : Nat} {k : MailKind} {need : Bytes → Nat}
  {f : MailCtx → Bytes → State → MailRes} {p : Bytes → Bool}

/-- A row whose handler waits begins its command: the reply is still to come. -/
theorem exec_of_wait (hrow : exec i s = .next (mailRow code k need f c s)) (h : Accepted code k need c s s1 r)
    (hf : f ⟨c.box, callerQp s1 c, boxRole s1 c.box⟩ r.body s1 = .wait t) :
    exec i s = .next (saveCfg (mailBegun t c.box)) := by
  rw [hrow, mailRow_accepted h, hf]

/-- A row that shares its command code answers a body of its own. -/
theorem exec_of_sharedReply (hrow : exec i s = .next (mailRowIf p code k need f c s)) (h : Accepted code k need c s s1 r)
    (hp : p r.body = true) {st : Nat} {body : Bytes}
    (hf : f ⟨c.box, callerQp s1 c, boxRole s1 c.box⟩ r.body s1 = .reply t st body) :
    exec i s = .next (answered t c st body) := by
  rw [hrow, mailRowIf_accepted h p f hp, hf]

theorem exec_of_sharedWait (hrow : exec i s = .next (mailRowIf p code k need f c s)) (h : Accepted code k need c s s1 r)
    (hp : p r.body = true) (hf : f ⟨c.box, callerQp s1 c, boxRole s1 c.box⟩ r.body s1 = .wait t) :
    exec i s = .next (saveCfg (mailBegun t c.box)) := by
  rw [hrow, mailRowIf_accepted h p f hp, hf]

theorem exec_of_sharedSilent (hrow : exec i s = .next (mailRowIf p code k need f c s)) (h : Accepted code k need c s s1 r)
    (hp : p r.body = true) (hf : f ⟨c.box, callerQp s1 c, boxRole s1 c.box⟩ r.body s1 = .silent t) :
    exec i s = .next t := by
  rw [hrow, mailRowIf_accepted h p f hp, hf]

end

/-- A command that names a tenant that lives acts on it (R507). -/
theorem withTenant_live {s : State} {t : Nat} {k : Tenant} (hk : tenantOf s t = some k) (hlive : k.dying = false) (f : Tenant → MailRes) :
    withTenant s t f = f k := by
  simp [withTenant, hk, hlive]

/-! ## The tenant rows -/

section
variable {b : Bytes} {s : State} {k : Tenant}

/-- A tenant under the quotas of a TENANT_QUOTA body (Table 15-4). -/
def withQuotas (b : Bytes) (k : Tenant) : Tenant :=
  { k with kvClass := bfld b 1 1 2 0, flashMib := bfld b 3 1 5 0, leaseMax := bfld b 4 2 12 0, slotMax := bfld b 8 4 16 0,
           t1Frames := fld b 0x10 8, t2Units := fld b 0x18 8 }

theorem tenantQuota_fits (hrange : quotaRange b = true) (hk : tenantOf s (fld b 0 1) = some k) (hlive : k.dying = false)
    (hgroups : quotaSum s (fld b 0 1) (fun k => k.groups.length) (bfld b 2 1 3 0) ≤ 8)
    (hflash : quotaSum s (fld b 0 1) Tenant.flashMib (bfld b 3 1 5 0) ≤ 32)
    (ht2 : quotaSum s (fld b 0 1) Tenant.t2Units (fld b 0x18 8) ≤ usableT2 s)
    (ht1 : quotaSum s (fld b 0 1) Tenant.t1Frames (fld b 0x10 8) ≤ allocatable s)
    (hfree : bfld b 2 1 3 0 ≤ k.groups.length + ((List.range 8).filter fun g => s.own.tenants.all fun x => !x.groups.contains g).length)
    {s2 : State} (hs2 : s2 = setGroups (mapTenant s (fld b 0 1) (withQuotas b)) k (bfld b 2 1 3 0)) :
    tenantQuota b s = .reply (evictUntil (fun s => t1Fits s (fld b 0 1) 0) (evictList s2 (fld b 0 1)) s2) stOK [] := by
  subst hs2
  refine (if_neg (by simp [hrange])).trans ((withTenant_live hk hlive _).trans (if_neg ?_))
  simp only [gt_iff_lt, Bool.or_eq_true, decide_eq_true_eq, not_or, Nat.not_lt]
  exact ⟨⟨⟨⟨hgroups, hflash⟩, ht2⟩, ht1⟩, hfree⟩

theorem durabilitySet_local {sig : Option Signed} (hbound : inRange (fld b 1 1) 1 64 = true) (hpad : zeroAt b 3 1 = true)
    (hpad2 : zeroAt b 6 2 = true) (hk : tenantOf s (fld b 0 1) = some k) (hlive : k.dying = false) (hdomain : fld b 2 1 = 0)
    (hrest : zeroAt b 4 (0x1C + sigLen) = true) :
    durabilitySet sig b s = .reply (setTenant s
      { k with bound := fld b 1 1, domain := 0, replica := 0, replicaNotAfter := 0, replicaAddr := [], replicaSig := [] }) stOK [] := by
  refine (if_neg (by simp [hbound, hdomain, hpad, hpad2, hrest])).trans ((withTenant_live hk hlive _).trans (if_pos hdomain))

theorem durabilitySet_replicated {sig : Option Signed} (hbound : inRange (fld b 1 1) 1 64 = true) (hpad : zeroAt b 3 1 = true)
    (hpad2 : zeroAt b 6 2 = true) (hk : tenantOf s (fld b 0 1) = some k) (hlive : k.dying = false) (hdomain : fld b 2 1 = 1)
    (hnode : fld b 4 2 ≠ 0) (hother : fld b 4 2 ≠ s.pw.node)
    (hsig : ownerVerified s sessionKeyOff (credential 1 (fld b 4 2) 1 (fld b 0 1) (fld b 8 8) []) sig = true) {n : Tenant}
    (hn : n = { k with bound := fld b 1 1, domain := 1, replica := fld b 4 2, replicaNotAfter := fld b 8 8,
                       replicaAddr := cut b 0x10 16, replicaSig := cut b 0x20 sigLen }) :
    durabilitySet sig b s = .reply (connectReplica (setTenant (closeReplica s (fld b 0 1)) n) n) stOK [] := by
  subst hn
  refine (if_neg (by simp [hbound, hdomain, hpad, hpad2, hnode])).trans ((withTenant_live hk hlive _).trans
    ((if_neg (by simp [hdomain])).trans (if_neg (by simp [hother, hsig]))))

theorem keyInstall_opens {sig : Option Signed} {key : Option Bytes} {v : Bytes} (hrecord : s.sec.record ≠ none)
    (hk : tenantOf s (fld b 5 1) = some k) (hlive : k.dying = false) (hgen : k.keyTop < fld b 6 2) (hroom : k.keys.length < 2)
    (hopen : openWrap s 1 b sig key = (stOK, v)) :
    keyInstall sig key b s = .reply (setTenant s
      { k with keys := k.keys ++ [{ gen := fld b 6 2, key := v, ctr := 0, snode := s.pw.node }], keyTop := fld b 6 2,
               rekey := !k.keys.isEmpty, rekeyPos := 0,
               hold := if k.hold = some 3 || k.hold = some 2 then none else k.hold }) stOK [] := by
  refine (if_neg (by simpa using hrecord)).trans ((withTenant_live hk hlive _).trans
    ((if_neg (Nat.not_le.2 hgen)).trans ((if_neg (Nat.not_le.2 hroom)).trans ?_)))
  simp only [hopen]
  rfl

end

section
variable {c : Cmd} {s s1 : State} {r : MailCmd} {k : Tenant}

theorem exec_tenantCreate_new (h : Accepted 0x0210 .control (fun _ => 8) c s s1 r) (hpad : zeroAt r.body 1 7 = true)
    (hnone : tenantOf s1 (fld r.body 0 1) = none) :
    exec (.tenantCreate c) s = .next (answered
      { s1 with own := { s1.own with tenants := s1.own.tenants ++ [{ id := fld r.body 0 1 }] } } c stOK []) := by
  refine exec_of_reply rfl h ((if_neg (by simp [hpad])).trans ?_)
  rw [hnone]

theorem exec_tenantDestroy_live (h : Accepted 0x0213 .control (fun _ => 8) c s s1 r) (hpad : zeroAt r.body 1 7 = true)
    (hk : tenantOf s1 (fld r.body 0 1) = some k) (hlive : k.dying = false) :
    exec (.tenantDestroy c) s = .next (saveCfg (mailBegun (settleDestroy
      (mapTenant (destroyStart s1 (fld r.body 0 1)) (fld r.body 0 1) fun k => { k with killBox := some c.box }) (fld r.body 0 1)) c.box)) := by
  refine exec_of_wait rfl h ((if_neg (by simp [hpad])).trans ?_)
  rw [hk]
  exact if_neg (by simp [hlive])

theorem exec_keyRetire_unused (h : Accepted 0x0221 .control (fun _ => 8) c s s1 r) (hpad : zeroAt r.body 1 1 = true)
    (hpad2 : zeroAt r.body 4 4 = true) (hk : tenantOf s1 (fld r.body 0 1) = some k) (hlive : k.dying = false)
    (hgen : keyGenOf k (fld r.body 2 2) ≠ none) (hold : (newestKey k).map KeyGen.gen ≠ some (fld r.body 2 2))
    (hunused : keyUsed s1 k.id (fld r.body 2 2) = false) :
    exec (.keyRetire c) s = .next (answered
      (setTenant s1 { k with keys := k.keys.filter fun x => x.gen != fld r.body 2 2, rekey := false }) c stOK []) :=
  exec_of_reply rfl h ((if_neg (by simp [hpad, hpad2])).trans ((withTenant_live hk hlive _).trans
    ((if_neg (by simpa using hgen)).trans ((if_neg (by simpa using hold)).trans (if_neg (by simp [hunused]))))))

end

end Sys2Proof.Machine
end

section

namespace Sys2Proof.Machine

/-- Settles O17, row by row. TENANT_DESTROY replies once the tenant's last request and job has ended (log entry 69). -/
theorem tenantCommandsTakeEffect : Obligations.TenantCommandsTakeEffect := by
  refine ⟨fun c s s1 r h hpad hnone => exec_tenantCreate_new h hpad hnone, ?quota,
    fun c sig s s1 r k h hbound hpad hpad2 hk hlive => ⟨fun hdomain hrest => ?locally, fun hdomain hnode hother hsig => ?replicated⟩,
    fun c s s1 r k h hpad hk hlive => exec_tenantDestroy_live h hpad hk hlive,
    fun c sig key s s1 r k v h hrecord hk hlive hgen hroom hopen => ?key,
    fun c s s1 r k h hpad hpad2 hk hlive hgen hold hunused => exec_keyRetire_unused h hpad hpad2 hk hlive hgen hold hunused⟩
  case quota =>
    intro c s s1 r k h hrange hk hlive t n hgroups hflash ht2 ht1 hfree
    exact exec_of_reply rfl h (tenantQuota_fits hrange hk hlive hgroups hflash ht2 ht1 hfree rfl)
  case locally => exact exec_of_reply rfl h (durabilitySet_local hbound hpad hpad2 hk hlive hdomain hrest)
  case replicated => exact exec_of_reply rfl h (durabilitySet_replicated hbound hpad hpad2 hk hlive hdomain hnode hother hsig rfl)
  case key => exact exec_of_reply rfl h (keyInstall_opens hrecord hk hlive hgen hroom hopen)

end Sys2Proof.Machine
end

section
/-! SUPPORT. The rows of a migration: its begin, its phases, its end and its timers (R435 to R441). -/

namespace Sys2Proof.Machine

/-- The node once it has dealt with what a mailbox command's handler asks for. -/
def handled (c : Cmd) : MailRes → State
  | .reply t st body => answered t c st body
  | .wait t => saveCfg (mailBegun t c.box)
  | .silent t => t

section
variable {c : Cmd} {s s1 t : State} {r : MailCmd} {i : Instr} {m : Mig}

/-- A row that shares its command code runs its handler on a body of its own. -/
theorem mailRowIf_handled {code : Nat} {k : MailKind} {need : Bytes → Nat} (h : Accepted code k need c s s1 r) (p : Bytes → Bool)
    (f : MailCtx → Bytes → State → MailRes) (hp : p r.body = true) :
    mailRowIf p code k need f c s = handled c (f ⟨c.box, callerQp s1 c, boxRole s1 c.box⟩ r.body s1) :=
  (mailRowIf_accepted h p f hp).trans (by cases f ⟨c.box, callerQp s1 c, boxRole s1 c.box⟩ r.body s1 <;> rfl)

/-! ## MIGRATE_BEGIN -/

/-- A MIGRATE_BEGIN of this role that may begin goes on without the migration that its id named before (R435). -/
theorem exec_of_migBegin {role : Nat} {go : MailCtx → Bytes → State → MailRes} (hrow : exec i s = .next (migBegin role go c s))
    (h : Accepted 0x0230 .control migNeed c s s1 r) (hrole : fld r.body 4 1 % 2 = role) (hmay : migrationMayBegin s1 r.body)
    {res : MailRes} (hgo : go ⟨c.box, callerQp s1 c, boxRole s1 c.box⟩ r.body (dropMig s1 (fld r.body 0 4)) = res) :
    exec i s = .next (handled c res) := by
  subst hgo
  obtain ⟨hrange, ⟨k, hk, hlive⟩, hseqs, hmigs⟩ := hmay
  have hheld : ¬ (((mgSeqs r.body).any fun h => match seqOf s1 h with | some q => q.stub.isSome | none => true) = true) := by
    simp only [Bool.not_eq_true, List.any_eq_false]
    intro x hx
    obtain ⟨⟨q, hq, hstub⟩, -⟩ := hseqs x hx
    simp [hq, hstub]
  have hidle : ¬ (((mgSeqs r.body).any (fun h => (migOf s1 h).isSome) ||
      (s1.fl.migs.any fun m => m.id == fld r.body 0 4 && m.state != .installed)) = true) := by
    simp only [Bool.not_eq_true, Bool.or_eq_false_iff, List.any_eq_false]
    exact ⟨fun x hx => by simp [(hseqs x hx).2], fun x hx => by simpa using hmigs x hx⟩
  rw [hrow, migBegin, mailRowIf_handled h _ _ (by simp [hrole])]
  exact congrArg (fun res => Host.Outcome.next (handled c res))
    ((if_neg (by simp [hrange])).trans ((withTenant_live hk hlive _).trans ((if_neg hheld).trans (if_neg hidle))))

/-- The destination keeps each sequence of the set for its source (R435). -/
def withIncoming (s : State) (b : Bytes) : State :=
  (mgSeqs b).foldl (fun s h => match seqOf s h with
    | some q => mapSeq s q.als fun q => { q with incoming := some (mgPeer b) }
    | none => s) s

theorem exec_migrateBeginDest_empty (h : Accepted 0x0230 .control migNeed c s s1 r) (hrole : fld r.body 4 1 = 1)
    (hmay : migrationMayBegin s1 r.body)
    (hempty : ∀ h ∈ mgSeqs r.body, ∃ q, seqOf s1 h = some q ∧ q.len = 0 ∧ (s1.sq.spans.any fun x => x.als == q.als) = false)
    {s2 : State} (hs2 : s2 = withIncoming (dropMig s1 (fld r.body 0 4)) r.body) :
    exec (.migrateBeginDest c) s = .next (answered
      { s2 with fl := { s2.fl with migs := s2.fl.migs ++ [migNew r.body false .prepared] } } c stOK []) := by
  subst hs2
  refine exec_of_migBegin rfl h (by simp [hrole]) hmay (res := .reply _ stOK []) (if_neg ?_)
  simp only [Bool.not_eq_true, List.any_eq_false]
  intro x hx
  obtain ⟨q, hq, hlen, hspans⟩ := hempty x hx
  have hq' : seqOf (dropMig s1 (fld r.body 0 4)) x = some q := hq
  have hspans' : ((dropMig s1 (fld r.body 0 4)).sq.spans.any fun x => x.als == q.als) = false := hspans
  simp [hq', hlen, hspans']

theorem exec_migrateBeginSource_connects (h : Accepted 0x0230 .control migNeed c s s1 r) (hrole : fld r.body 4 1 = 0)
    (hmay : migrationMayBegin s1 r.body) {s0 s2 : State} (hs0 : s0 = dropMig s1 (fld r.body 0 4)) {qs : List Seq}
    (hqs : qs = (mgSeqs r.body).filterMap (seqOf s0))
    (hm : m = { migNew r.body true .copying with box := some c.box, lens := qs.map fun q => (q.als, q.len),
                                                 todo := qs.flatMap fun q => blocksIn s0 q 0 q.len })
    (hconnect : migConnect { s0 with fl := { s0.fl with migs := s0.fl.migs ++ [m] } } m = some s2) :
    exec (.migrateBeginSource c) s = .next (saveCfg (mailBegun s2 c.box)) := by
  subst hs0 hqs hm
  refine exec_of_migBegin rfl h (by simp [hrole]) hmay (res := .wait s2) ?_
  simp only [hconnect]

/-! ## MIGRATE_COMMIT -/

/-- A phase of a known migration of a live tenant is acted on (R437). -/
theorem exec_of_migCommit {phase : Nat} (hlast : phase ≤ 2) {go : MailCtx → Bytes → Mig → State → MailRes}
    (hrow : exec i s = .next (migCommit phase go c s)) (h : Accepted 0x0231 .control (fun _ => 16) c s s1 r)
    (hphase : migrationPhase phase s1 r.body m) {res : MailRes}
    (hgo : go ⟨c.box, callerQp s1 c, boxRole s1 c.box⟩ r.body m s1 = res) :
    exec i s = .next (handled c res) := by
  subst hgo
  obtain ⟨hp, hpad, hpad2, hwait, hm, hlive⟩ := hphase
  have hbody : ¬ ((decide (fld r.body 4 1 > 2) || !zeroAt r.body 5 3 || !zeroAt r.body 12 4 ||
      (if phase = 0 then !(decide (1 ≤ fld r.body 8 4 ∧ fld r.body 8 4 ≤ 60000)) else fld r.body 8 4 != 0)) = true) := by
    by_cases h0 : phase = 0
    · rw [if_pos h0] at hwait
      simp [hp, hpad, hpad2, h0, hwait]
    · rw [if_neg h0] at hwait
      simp [hp, hpad, hpad2, h0, hwait, hlast]
  rw [hrow, migCommit, mailRowIf_handled h _ _ (by simp [hp])]
  simp only [if_neg hbody, hm]
  cases hk : tenantOf s1 m.tenant with
  | none => rfl
  | some k => simp only [hlive k hk, Bool.false_eq_true, if_false]

theorem exec_migrateCommitFreeze_copied (h : Accepted 0x0231 .control (fun _ => 16) c s s1 r) (hphase : migrationPhase 0 s1 r.body m)
    (hsource : m.source = true) (hcopying : m.state = .copying) (hbox : m.box = none) :
    exec (.migrateCommitFreeze c) s = .next (saveCfg (mailBegun (migPump (mapMig s1 m.id fun m =>
      { m with state := .freezing, box := some c.box, waitUntil := max 1 (s1.now + 10 ^ 6 * fld r.body 8 4) }) m.id) c.box)) :=
  exec_of_migCommit (by omega) rfl h hphase (res := .wait _) (if_neg (by simp [hsource, hcopying, hbox]))

/-- The replica objects that an installing destination holds for a sequence of the set (R439). -/
def heldFor (s : State) (m : Mig) (q : Seq) : List FObj := replicasOf s m.tenant m.peer q.handle

/-- The leases that the source wrote those objects under, as `gen * 65536 + id`. -/
def leaseTags (v : FObj) : List Nat := match v.kind with | .replica _ _ ls => ls | _ => []

/-- One sequence of the set takes the objects held for it, as far as they reach (R439). -/
def installSeq (s0 : State) (m : Mig) (s : State) (q : Seq) : State :=
  adopt (mapSeq s q.als fun q => { q with incoming := none }) q (heldFor s0 m q) (heldLen s0 (heldFor s0 m q) q.layers q.kvh)

/-- The source's lease of this tag, if it still stands, ends (R439). -/
def fenceTag (s : State) (t : Nat) : State :=
  match leaseOf s (t % 65536) with
  | some l => if l.gen = t / 65536 then endLease s l.id 2 else s
  | none => s

/-- The node once the set is installed and its source fenced off (R433, R439). -/
def withInstalled (s : State) (m : Mig) : State :=
  (distinct (((migSeqs s m).flatMap (heldFor s m)).flatMap leaseTags)).foldl fenceTag
    (raiseFloor ((migSeqs s m).foldl (installSeq s m) s) m.tenant m.epoch)

theorem exec_migrateCommitInstall_whole (h : Accepted 0x0231 .control (fun _ => 16) c s s1 r) (hphase : migrationPhase 1 s1 r.body m)
    (hdest : m.source = false) (hstate : m.state ≠ .installed)
    (hwhole : ∀ q ∈ migSeqs s1 m, heldMax (heldFor s1 m q) ≤ heldLen s1 (heldFor s1 m q) q.layers q.kvh) :
    exec (.migrateCommitInstall c) s = .next (answered
      (mapMig (withInstalled s1 m) m.id fun x => { x with state := .installed, answer := migLens (withInstalled s1 m) m }) c stOK
      (migLens (withInstalled s1 m) m)) := by
  refine exec_of_migCommit (by omega) rfl h hphase (res := .reply _ stOK _)
    ((if_neg (by simp [hdest])).trans ((if_neg (by simpa using hstate)).trans ((if_neg ?whole).trans ?_)))
  case whole =>
    simp only [Bool.not_eq_true, List.any_eq_false, List.mem_map, forall_exists_index, and_imp]
    rintro _ q hq rfl
    simpa [heldFor] using hwhole q hq
  simp only [List.foldl_map, List.flatMap_map]
  rw [← List.flatMap_assoc]
  rfl

/-- An entry of a stubbed sequence keeps no frames and no copy in T2; it names the node that holds the span now (R440). -/
def stubSpan (m : Mig) (s : State) (x : Span) : State :=
  let s := freeFlash s x
  let s := if x.state == .flashOnly then s else freeSpanFrames s x
  publish s { x with state := .stub, bank := 0, frame := 0, flash := none, stubNode := m.peer }

/-- A sequence of the set leaves a stub behind. -/
def stubSeq (m : Mig) (s : State) (q : Seq) : State :=
  mapSeq ((s.sq.spans.filter fun x => x.als == q.als).foldl (stubSpan m) s) q.als fun q => { q with stub := some m.peer, writer := none }

theorem exec_migrateCommitFinish_closed (h : Accepted 0x0231 .control (fun _ => 16) c s s1 r) (hphase : migrationPhase 2 s1 r.body m)
    (hsource : m.source = true) (hfrozen : m.state = .frozen) (hqp : m.qp = none) {s2 : State}
    (hs2 : s2 = raiseFloor ((migSeqs s1 m).foldl (stubSeq m) s1) m.tenant m.epoch) :
    exec (.migrateCommitFinish c) s = .next (answered (reapSeqs (mapMig (staleWaiting s2 m) m.id fun m' =>
      { m' with state := .stubbed, graceAt := s2.now + 10 ^ 6 * m.graceMs, answer := [] })) c stOK []) := by
  subst hs2
  refine exec_of_migCommit (by omega) rfl h hphase (res := .reply _ stOK [])
    ((if_neg (by simp [hsource])).trans ((if_neg (by simp [hfrozen])).trans ((if_neg (by simp [hfrozen])).trans ?_)))
  simp only [hqp]
  rfl

/-! ## MIGRATE_ABORT and the timers -/

theorem exec_migrateAbort_unfinished (h : Accepted 0x0232 .control (fun _ => 8) c s s1 r) (hpad : zeroAt r.body 4 4 = true)
    (hm : migById s1 (fld r.body 0 4) = some m) (hlive : ∀ t, tenantOf s1 m.tenant = some t → t.dying = false)
    (hinstalled : m.state ≠ .installed) (hstubbed : m.state ≠ .stubbed) :
    exec (.migrateAbort c) s = .next (answered (abortMig s1 m) c stOK []) := by
  refine exec_of_reply rfl h ((if_neg (by simp [hpad])).trans ?_)
  rw [hm]
  cases hk : tenantOf s1 m.tenant with
  | none => simp only [hk]
  | some k => simp [hk, hlive k hk, hinstalled, hstubbed]

theorem exec_freezeWaitExpiry_bound (hs : serves s = true) {mig : Nat} (hm : migById s mig = some m) (hfreezing : m.state = .freezing)
    (hwait : m.waitUntil ≠ 0) (hbound : ∃ q ∈ migSeqs (s.at m.waitUntil) m, q.writer ≠ none) :
    exec (.freezeWaitExpiry mig) s = .next
      (migReply (mapMig (s.at m.waitUntil) mig fun m => { m with state := .copying, waitUntil := 0 }) mig stBUSY []) := by
  have hall : ¬ (((migSeqs (s.at m.waitUntil) m).all fun q => q.writer.isNone) = true) := by
    obtain ⟨q, hq, hw⟩ := hbound
    intro hall
    exact hw (by simpa using List.all_eq_true.1 hall q hq)
  change execFreezeWaitExpiry mig s = _
  simp only [execFreezeWaitExpiry, hm]
  exact (if_neg (by simp [hs, hfreezing, hwait])).trans (if_neg hall)

theorem exec_stubGraceExpiry_stubbed (hs : serves s = true) {mig : Nat} (hm : migById s mig = some m) (hstubbed : m.state = .stubbed) :
    exec (.stubGraceExpiry mig) s = .next (reapSeqs (dropMig ((migSeqs (s.at m.graceAt) m).foldl (fun s q =>
      mapSeq { s with sq := { s.sq with spans := s.sq.spans.filter fun x => x.als != q.als, gen := s.sq.gen + 1 } } q.als
        fun q => { q with gone := true }) (s.at m.graceAt)) mig)) := by
  change execStubGraceExpiry mig s = _
  simp only [execStubGraceExpiry, hm]
  exact if_neg (by simp [hs, hstubbed])

section
variable {mig n : Nat} {q : Qp} {p : Peer} (hs : serves s = true) (hm : migById s mig = some m) (hsource : m.source = true)
  (hstate : m.state ≠ .stubbed) (hn : m.qp = some n) (hq : qpOf s n = some q) (hconn : q.state = .connected)
  (hp : peerFor s m.tenant (some mig) = some p) (hs1 : s1 = settlePuts (putTimeouts s q.num))
include hs hm hsource hstate hn hq hconn hp hs1

theorem exec_migrationLeaseRenewal_leased (hlease : ((peerFor s1 m.tenant (some mig)).bind Peer.lease) ≠ none) :
    exec (.migrationLeaseRenewal mig) s = .next (migPump (renewPeer s1 p) mig) := by
  subst hs1
  obtain ⟨l, hl⟩ := Option.ne_none_iff_exists'.1 hlease
  change execMigrationLeaseRenewal mig s = _
  simp only [execMigrationLeaseRenewal, hm, hn, Option.bind_some, hq, hp, hl]
  simp [hs, hsource, hstate, hconn]

theorem exec_migrationLeaseRenewal_again (hlease : ((peerFor s1 m.tenant (some mig)).bind Peer.lease) = none)
    (hlive : s1.now < m.notAfter) : exec (.migrationLeaseRenewal mig) s = .next (migPump (peerAgain s1 p m.notAfter m.sig) mig) := by
  subst hs1
  change execMigrationLeaseRenewal mig s = _
  simp only [execMigrationLeaseRenewal, hm, hn, Option.bind_some, hq, hp, hlease]
  simp [hs, hsource, hstate, hconn, Nat.not_le.2 hlive]

end

end

end Sys2Proof.Machine
end

section

namespace Sys2Proof.Machine

/-- Settles O20, phase by phase. FINISH is stated of a source whose QP to the destination stands no more. -/
theorem migrationsGoThroughTheirPhases : Obligations.MigrationsGoThroughTheirPhases := by
  refine ⟨fun c s s1 r h hrole hmay hempty => exec_migrateBeginDest_empty h hrole hmay hempty rfl,
    fun c s s1 s2 r m h hrole hmay => ?source,
    fun c s s1 r m h hphase hsource hcopying hbox => exec_migrateCommitFreeze_copied h hphase hsource hcopying hbox,
    fun c s s1 r m h hphase hdest hstate hwhole => exec_migrateCommitInstall_whole h hphase hdest hstate hwhole,
    fun c s s1 r m h hphase hsource hfrozen hqp => exec_migrateCommitFinish_closed h hphase hsource hfrozen hqp rfl,
    fun c s s1 r m h hpad hm hlive hinstalled hstubbed => exec_migrateAbort_unfinished h hpad hm hlive hinstalled hstubbed,
    fun mig s m hs hm hfreezing hwait hbound => exec_freezeWaitExpiry_bound hs hm hfreezing hwait hbound,
    fun mig s m hs hm hstubbed => exec_stubGraceExpiry_stubbed hs hm hstubbed,
    fun mig n s m q p hs hm hsource hstate hn hq hconn hp => ⟨fun hlease => ?leased, fun hlease hlive => ?again⟩⟩
  case source =>
    intro s0 qs hm hconnect
    exact exec_migrateBeginSource_connects h hrole hmay rfl rfl hm hconnect
  case leased => exact exec_migrationLeaseRenewal_leased hs hm hsource hstate hn hq hconn hp rfl hlease
  case again => exact exec_migrationLeaseRenewal_again hs hm hsource hstate hn hq hconn hp rfl hlease hlive

end Sys2Proof.Machine
end

section
/-! SUPPORT. The functions that stop and start, the port's settings and MACsec's keys (R449, R461 to R463, R467, R470, R475, R476, R557). -/

namespace Sys2Proof.Machine

section
variable {c : Cmd} {s s1 : State} {r : MailCmd} {i : Instr}

/-! ## FUNC_STOP and FUNC_START -/

/-- A row of FUNC_STOP or FUNC_START acts on the function that it names (Table 19-6). -/
theorem exec_of_funcRow {code f : Nat} {g : State → State} (hrow : exec i s = .next (funcRow code f g c s))
    (h : Accepted code .control (fun _ => 8) c s s1 r) (hf : fld r.body 0 1 = f) (hlast : f ≤ 4) (hpad : zeroAt r.body 1 7 = true)
    {t : State} (hg : g s1 = t) : exec i s = .next (answered t c stOK []) := by
  subst hg
  exact exec_of_sharedReply hrow h (by simp [funcIs, hf]) (if_neg (by simp [hf, hpad, Nat.not_lt.2 hlast]))

/-! ## Settings of the port -/

theorem portConfig_not_busy {p : PortCfg}
    (hfree : (∀ q ∈ s.nuc.qps, q.state ≠ .connected) ∨ ∃ o, s.port.cfg = some o ∧ portFixed o p = true) :
    (s.nuc.qps.any (fun q => q.state == .connected) &&
      (match s.port.cfg with | some o => !portFixed o p | none => true)) = false := by
  rcases hfree with hnone | ⟨o, ho, hfixed⟩
  · have : s.nuc.qps.any (fun q => q.state == .connected) = false := by simpa using hnone
    simp [this]
  · simp [ho, hfixed]

/-- The addresses that the identity block shows stay as they are (R449, R574). -/
def sameAddresses (s : State) (p : PortCfg) : Bool :=
  match s.port.cfg with
  | some o => o.mac == p.mac && o.ipv4 == p.ipv4 && o.ipv6 == p.ipv6
  | none => false

theorem sameAddresses_iff (s : State) (p : PortCfg) :
    sameAddresses s p = true ↔ ∃ o, s.port.cfg = some o ∧ o.mac = p.mac ∧ o.ipv4 = p.ipv4 ∧ o.ipv6 = p.ipv6 := by
  unfold sameAddresses
  cases s.port.cfg with
  | none => simp
  | some o => simp [and_assoc]

theorem exec_portConfig_valid (h : Accepted 0x0260 .control (fun _ => 128) c s s1 r) (hok : portCfgOk r.body = true)
    (hfree : (∀ q ∈ s1.nuc.qps, q.state ≠ .connected) ∨ ∃ o, s1.port.cfg = some o ∧ portFixed o (portCfgOf r.body) = true)
    {s2 s3 : State} (hs2 : s2 = { s1 with port := { s1.port with cfg := some (portCfgOf r.body) } })
    (hs3 : s3 = if s2.port.link && !linkReady s2 then dropLink s2 else s2) :
    exec (.portConfig c) s =
      .next (answered (if sameAddresses s1 (portCfgOf r.body) then s3 else identityChanged s3) c stOK []) := by
  subst hs2 hs3
  exact exec_of_reply rfl h ((if_neg (by simp [hok])).trans
    (if_neg (fun hbusy => absurd ((portConfig_not_busy hfree).symm.trans hbusy) Bool.false_ne_true)))

theorem exec_schedConfigQueue_ranges (h : Accepted 0x0261 .control (fun _ => 32) c s s1 r) (hkind : fld r.body 0 1 = 0) {n rate burst : Nat}
    (hn : n = fld r.body 1 1) (hrate : rate = fld r.body 8 4) (hburst : burst = fld r.body 0xC 4) (hqueue : n ≤ 7)
    (hpad : zeroAt r.body 2 2 = true) (hpad2 : zeroAt r.body 0x10 16 = true) (hline : rate ≤ 1600000)
    (hdepth : inRange burst 1024 16777216 = true)
    (hquantum : if n < 6 then inRange (fld r.body 4 4) 256 65536 = true else fld r.body 4 4 = 0) :
    exec (.schedConfigQueue c) s = .next (answered (setQueue s1 n fun k =>
      { k with quantum := fld r.body 4 4, rate := rate, burst := burst, creditAt := s1.now,
               credit := min (burst : Rat) (bucketAt k.rate k.burst k.credit k.creditAt s1.now) }) c stOK []) := by
  subst hn hrate hburst
  refine exec_of_sharedReply rfl h (by simp [schedIs, hkind]) (if_neg ?_)
  by_cases hdwrr : fld r.body 1 1 < 6
  · rw [if_pos hdwrr] at hquantum
    simp [hkind, Nat.not_lt.2 hqueue, hpad, hpad2, Nat.not_lt.2 hline, hdepth, hquantum, hdwrr]
  · rw [if_neg hdwrr] at hquantum
    simp [hkind, Nat.not_lt.2 hqueue, hpad, hpad2, Nat.not_lt.2 hline, hdepth, hquantum, hdwrr]

theorem exec_schedConfigGcl_ranges {b : Bytes} {n : Nat} {gs : List Gate}
    (h : Accepted 0x0261 .control (fun b => 0x20 + 8 * (fld b 0x10 2 % 512)) c s s1 r) (hb : b = r.body) (hn : n = fld b 0x10 2)
    (hgs : gs = (List.range n).map fun i => (⟨fld b (0x20 + 8 * i) 1, fld b (0x24 + 8 * i) 4⟩ : Gate)) (hkind : fld b 0 1 = 1)
    (hqueue : fld b 1 1 = 0) (hon : fld b 2 1 ≤ 1) (hpad : fld b 3 1 = 0) (hpad2 : zeroAt b 4 12 = true) (hcount : inRange n 1 256 = true)
    (hpad3 : zeroAt b 0x12 2 = true) (hcycle : inRange (fld b 0x14 4) 1 1000000000 = true)
    (hentries : ∀ i < n, zeroAt b (0x21 + 8 * i) 3 = true) (hdurs : ∀ g ∈ gs, g.dur ≠ 0) (hsum : sumBy Gate.dur gs = fld b 0x14 4)
    (hoff : s1.port.schedOn = false) :
    exec (.schedConfigGcl c) s = .next (answered { s1 with port := { s1.port with
      gclOn := fld b 2 1 == 1, gcl := gs, cycle := fld b 0x14 4, base := fld b 0x18 8 } } c stOK []) := by
  have hpads : (List.range n).any (fun i => !zeroAt b (0x21 + 8 * i) 3) = false := by simpa using hentries
  have hzero : gs.any (fun g => decide (g.dur = 0)) = false := by simpa using hdurs
  subst hgs hn hb
  refine exec_of_sharedReply rfl h (by simp [schedIs, hkind]) ((if_neg ?_).trans (if_neg (by simp [hoff])))
  rw [hpads, hzero, hsum]
  simp [hkind, hqueue, Nat.not_lt.2 hon, hpad, hpad2, hcount, hpad3, hcycle]

theorem exec_policerConfig_ranges (h : Accepted 0x0262 .control (fun _ => 16) c s s1 r) {i sc id burst : Nat} (hi : i = fld r.body 0 2)
    (hsc : sc = fld r.body 2 1) (hid : id = fld r.body 4 2) (hburst : burst = fld r.body 0xC 4) (hindex : i ≤ 1023) (hscope : sc ≤ 2)
    (hpad : fld r.body 3 1 = 0) (hpad2 : zeroAt r.body 6 2 = true) (hrate : inRange (fld r.body 8 4) 1 1600000 = true)
    (hdepth : inRange burst 1024 16777216 = true)
    (hown : sc = 0 ∨ (s1.port.policers.any fun p => p.index != i && p.scope == sc && p.id == id) = false) :
    exec (.policerConfig c) s = .next (answered { s1 with port := { s1.port with policers :=
      (s1.port.policers.filter fun p => p.index != i) ++ [⟨i, sc, id, fld r.body 8 4, burst, (burst : Rat), s1.now⟩] } } c stOK []) := by
  subst hi hsc hid hburst
  have hother : (decide (fld r.body 2 1 ≠ 0) &&
      s1.port.policers.any fun p => p.index != fld r.body 0 2 && p.scope == fld r.body 2 1 && p.id == fld r.body 4 2) = false := by
    rcases hown with h0 | hnone
    · simp [h0]
    · rw [hnone, Bool.and_false]
  refine exec_of_reply rfl h (if_neg ?_)
  rw [hother]
  simp [Nat.not_lt.2 hindex, Nat.not_lt.2 hscope, hpad, hpad2, hrate, hdepth]

theorem exec_ptpConfig_ranges (h : Accepted 0x0264 .control (fun _ => 32) c s s1 r) {b : Bytes} {lp : Int} (hb : b = r.body)
    (hlp : lp = signed 8 (fld b 3 1)) (hdomain : fld b 0 1 ≤ 127) (hstep : fld b 1 1 ≤ 1) (hqueue : fld b 2 1 ≤ 7) (hlo : -3 ≤ lp)
    (hhi : lp ≤ 3) (hlock : inRange (fld b 4 4) 100 1000000 = true) (hpps : inRange (fld b 0x10 4) 1 500000 = true)
    (hpad : zeroAt b 0x14 12 = true) :
    exec (.ptpConfig c) s = .next (answered { s1 with port := { s1.port with ptp := { s1.port.ptp with
      set := true, domain := fld b 0 1, oneStep := fld b 1 1 == 1, queue := fld b 2 1, logPdelay := lp, lockNs := fld b 4 4,
      txAsym := signed 32 (fld b 8 4), rxAsym := signed 32 (fld b 0xC 4), ppsUs := fld b 0x10 4 } } } c stOK []) := by
  subst hlp hb
  exact exec_of_reply rfl h (if_neg (by
    simp [Nat.not_lt.2 hdomain, Nat.not_lt.2 hstep, Nat.not_lt.2 hqueue, Int.not_lt.2 hlo, Int.not_lt.2 hhi, hlock, hpps, hpad]))

/-! ## MACsec's keys -/

/-- An operation of MACSEC_KEY_INSTALL whose common checks pass is acted on (R475, R481, log entry 110). -/
theorem exec_of_macsecRow {op : Nat} {f : Bytes → State → MailRes} (hrow : exec i s = .next (macsecRow op f c s))
    (h : Accepted 0x0263 .control (fun b => 0x30 + (if fld b 0 1 ≤ 1 then fld b 0x2C 4 else 0)) c s s1 r) (hop : fld r.body 0 1 = op)
    (hlast : op ≤ 3) (hrecord : s1.sec.record ≠ none) (hon : macsecOn s1 = true) (han : fld r.body 1 1 ≤ 3) (hid : fld r.body 2 1 ≤ 3)
    (hpad : fld r.body 3 1 = 0) (hpad2 : zeroAt r.body 0x1C 4 = true) (hrest : 2 ≤ op → zeroAt r.body 4 0x2C = true) {t : State}
    (hf : f r.body s1 = .reply t stOK []) : exec i s = .next (answered t c stOK []) := by
  refine exec_of_sharedReply hrow h (by simp [opIs, hop]) ((if_neg (by simpa using hrecord)).trans ((if_neg ?_).trans ((if_neg ?_).trans hf)))
  · simp [hop, Nat.not_lt.2 hlast, Nat.not_lt.2 han, Nat.not_lt.2 hid, hpad, hpad2, hon]
  · simpa using hrest

/-- A wrap of an installing body that opens (R475, R497). -/
theorem macsecKey_opens {b : Bytes} {sig : Option Signed} {key : Option Bytes} {k : Bytes} (hlen : fld b 0x2C 4 = wrapLen)
    (hwindow : fld b 0x28 4 ≤ 2 ^ 30) (hopen : openWrap s 2 (cut b 0x30 wrapLen) sig key = (stOK, k)) :
    macsecKey s b sig key = (stOK, k) :=
  (if_neg (by simp [hlen, Nat.not_lt.2 hwindow, -Nat.reducePow])).trans hopen

end

end Sys2Proof.Machine
end

section

namespace Sys2Proof.Machine

/-- Settles O21, one function of Table 19-6 after another. -/
theorem functionsStopAndStart : Obligations.FunctionsStopAndStart := by
  refine fun c s s1 r f hf hpad => ⟨fun h => ?stops, fun h => ?starts⟩
  case stops =>
    refine ⟨?_, ?_, ?_, ?_, ?_⟩ <;> rintro rfl <;> exact exec_of_funcRow rfl h hf (by omega) hpad rfl
  case starts =>
    refine ⟨?sched, ?police, ?_, ?_, ?_⟩
    case sched =>
      rintro rfl hoff
      exact exec_of_funcRow rfl h hf (by omega) hpad (if_neg (by simp [hoff]))
    case police =>
      rintro rfl hoff
      exact exec_of_funcRow rfl h hf (by omega) hpad (if_neg (by simp [hoff]))
    all_goals
      rintro rfl
      exact exec_of_funcRow rfl h hf (by omega) hpad rfl

/-- Settles O22, row by row. -/
theorem portTakesItsSettings : Obligations.PortTakesItsSettings := by
  refine ⟨fun c s s1 r h hok hfree => ?port, ?queue, ?gcl, ?policer, ?ptp⟩
  case port => exact ⟨_, exec_portConfig_valid h hok hfree rfl rfl, sameAddresses_iff s1 (portCfgOf r.body)⟩
  case queue =>
    intro c s s1 r h hkind n rate burst hqueue hpad hpad2 hline hdepth hquantum
    exact exec_schedConfigQueue_ranges h hkind rfl rfl rfl hqueue hpad hpad2 hline hdepth hquantum
  case gcl =>
    intro c s s1 r h b n gs hkind hqueue hon hpad hpad2 hcount hpad3 hcycle hentries hdurs hsum hoff
    exact exec_schedConfigGcl_ranges h rfl rfl rfl hkind hqueue hon hpad hpad2 hcount hpad3 hcycle hentries hdurs hsum hoff
  case policer =>
    intro c s s1 r h i sc id burst hindex hscope hpad hpad2 hrate hdepth hown
    exact exec_policerConfig_ranges h rfl rfl rfl rfl hindex hscope hpad hpad2 hrate hdepth hown
  case ptp =>
    intro c s s1 r h b lp hdomain hstep hqueue hlo hhi hlock hpps hpad
    exact exec_ptpConfig_ranges h rfl rfl hdomain hstep hqueue hlo hhi hlock hpps hpad

/-- Settles O23, operation by operation. That the first transmit SA comes into use at once is log entry 10. -/
theorem macsecKeysAreInstalled : Obligations.MacsecKeysAreInstalled := by
  intro c s s1 r op h b an id hop hrecord hon han hid hpad hpad2
  refine ⟨fun sig key k hlen hwindow hopen => ⟨fun h0 hunused => ?transmit, fun h1 => ?receive⟩,
    fun hrest => ⟨fun h2 hsa => ?switch, fun h3 hsa => ?delete⟩⟩
  case transmit =>
    subst h0
    refine exec_of_macsecRow rfl h hop (by omega) hrecord hon han hid hpad hpad2 (by omega) ((if_neg hunused).trans ?_)
    have hkey : macsecKey s1 r.body sig key = (stOK, k) := macsecKey_opens hlen hwindow hopen
    simp only [hkey]
    rfl
  case receive =>
    intro old sc scs
    subst h1
    refine exec_of_macsecRow rfl h hop (by omega) hrecord hon han hid hpad hpad2 (by omega) ?_
    have hkey : macsecKey s1 r.body sig key = (stOK, k) := macsecKey_opens hlen hwindow hopen
    simp only [hkey]
    rfl
  case switch =>
    subst h2
    exact exec_of_macsecRow rfl h hop (by omega) hrecord hon han hid hpad hpad2 (fun _ => hrest) (if_pos hsa)
  case delete =>
    intro out scs
    subst h3
    exact exec_of_macsecRow rfl h hop (by omega) hrecord hon han hid hpad hpad2 (fun _ => hrest) (if_pos hsa)

end Sys2Proof.Machine
end

section
/-! SUPPORT. DCQCN, PFC, the gates and egress (R457, R458, R460, R463, R464). -/

namespace Sys2Proof.Machine

/-! ## DCQCN -/

/-- The rate is cut: `k` is what a CNP makes of the QP's variables (R457). -/
def cutCc (c : PortCfg) (now : Nat) (k : Cc) : Cc :=
  { k with rt := k.rc, rc := max (c.minRate : Rat) (k.rc * (1 - k.alpha / 2)), alpha := (1 - gOf c) * k.alpha + gOf c,
           timeStage := 0, byteStage := 0, sent := 0, cutAt := some now, alphaAt := now, incAt := now }

/-- CNP_GAP_US has passed since the last cut (R457). -/
def cutDue (c : PortCfg) (now : Nat) (k : Cc) : Bool :=
  match k.cutAt with
  | some t => decide (t + 1000 * c.cnpGap ≤ now)
  | none => true

/-- What a CNP makes of a QP's variables. -/
def cnpCc (c : PortCfg) (now : Nat) (k : Cc) : Cc := if cutDue c now k then cutCc c now k else { k with alphaAt := now }

/-- One CNP more is counted. -/
def withCnp (s : State) : State := { s with port := { s.port with cnpReceived := (s.port.cnpReceived + 1) % 2 ^ 64 } }

section
variable {s : State} {n : Nat} {q : Qp} {c : PortCfg} (hq : qpOf s n = some q) (hc : s.port.cfg = some c)
include hq hc

theorem exec_cnpReceived_known (hlink : s.port.link = true) :
    exec (.cnpReceived n) s = .next (mapQp (withCnp s) n fun q => { q with cc := cnpCc c s.now q.cc }) := by
  change execCnpReceived n s = _
  unfold execCnpReceived
  split
  · next c' _ hc' =>
    obtain rfl : c' = c := Option.some.inj (hc'.symm.trans hc)
    refine (if_neg (by simp [hlink])).trans (congrArg (fun f => Host.Outcome.next (mapQp (withCnp s) n f)) (funext fun q => ?_))
    by_cases hdue : cutDue c' s.now q.cc = true
    · exact (if_pos hdue).trans (by rw [cnpCc, if_pos hdue]; rfl)
    · exact (if_neg hdue).trans (by rw [cnpCc, if_neg hdue]; rfl)
  · next hno => exact absurd hc (hno q c hq)

theorem exec_alphaTimer_known : exec (.alphaTimer n) s =
    .next (mapQp (s.at (q.cc.alphaAt + 1000 * c.alphaUs)) n fun k =>
      { k with cc := { k.cc with alpha := (1 - gOf c) * k.cc.alpha, alphaAt := (s.at (q.cc.alphaAt + 1000 * c.alphaUs)).now } }) := by
  change execAlphaTimer n s = _
  simp only [execAlphaTimer, hq, hc]

theorem exec_increaseTimer_known : exec (.increaseTimer n) s =
    .next (mapQp (s.at (q.cc.incAt + 1000 * c.incUs)) n fun k =>
      { k with cc := increase c { k.cc with timeStage := k.cc.timeStage + 1, incAt := (s.at (q.cc.incAt + 1000 * c.incUs)).now } }) := by
  change execIncreaseTimer n s = _
  simp only [execIncreaseTimer, hq, hc]

theorem exec_increaseBytes_known : exec (.increaseBytes n) s = .next (if c.incBytes ≤ q.cc.sent then mapQp s n fun k =>
    { k with cc := increase c { k.cc with byteStage := k.cc.byteStage + 1, sent := k.cc.sent - c.incBytes } } else s) := by
  change execIncreaseBytes n s = _
  simp only [execIncreaseBytes, hq, hc]
  split <;> rfl

end

/-- A QP that is the only one of its number is all that an update by number reaches. -/
theorem mapQp_congr_of_unique {s : State} {n : Nat} {q : Qp} (hone : ∀ y ∈ s.nuc.qps, y.num = n → y = q) {f g : Qp → Qp} (h : f q = g q) :
    mapQp s n f = mapQp s n g := by
  have hqps : mapIf (fun x : Qp => x.num == n) f s.nuc.qps = mapIf (fun x => x.num == n) g s.nuc.qps :=
    mapIf_congr _ f g _ fun y hy hn => by rw [hone y hy (by simpa using hn), h]
  simp only [mapQp, hqps]

theorem cutDue_of {c : PortCfg} {now : Nat} {k : Cc} (h : k.cutAt = none ∨ ∃ t, k.cutAt = some t ∧ t + 1000 * c.cnpGap ≤ now) :
    cutDue c now k = true := by
  rcases h with h | ⟨t, h, hgap⟩
  · simp [cutDue, h]
  · simp [cutDue, h, hgap]

/-! ## The range of DCQCN -/

/-- The rate lies between MIN_RATE and its target, the target at most at the line rate, alpha between 0 and 1 (R457). -/
def CcInRange (c : PortCfg) (k : Cc) : Prop :=
  (c.minRate : Rat) ≤ k.rc ∧ k.rc ≤ 1600000 ∧ k.rc ≤ k.rt ∧ k.rt ≤ 1600000 ∧ 0 ≤ k.alpha ∧ k.alpha ≤ 1

section
variable {c : PortCfg} {k : Cc}

theorem gOf_bounds (h : c.g ≤ 65535) : 0 ≤ gOf c ∧ gOf c ≤ 1 := by
  have hg : (c.g : Rat) ≤ 65535 := by exact_mod_cast h
  have h0 : (0 : Rat) ≤ (c.g : Rat) := Rat.natCast_nonneg
  unfold gOf
  constructor <;> grind

/-- Alpha decays towards 0. -/
theorem alpha_decay_bounds (hg : c.g ≤ 65535) (h0 : 0 ≤ k.alpha) (h1 : k.alpha ≤ 1) :
    0 ≤ (1 - gOf c) * k.alpha ∧ (1 - gOf c) * k.alpha ≤ 1 - gOf c := by
  obtain ⟨hlo, hhi⟩ := gOf_bounds hg
  have hg1 : 0 ≤ 1 - gOf c := by grind
  have hle : (1 - gOf c) * k.alpha ≤ (1 - gOf c) * 1 := Rat.mul_le_mul_of_nonneg_left h1 hg1
  exact ⟨Rat.mul_nonneg hg1 h0, by grind⟩

theorem CcInRange.cut (h : CcInRange c k) (hg : c.g ≤ 65535) (now : Nat) : CcInRange c (cutCc c now k) := by
  obtain ⟨hmin, hline, -, -, h0, h1⟩ := h
  obtain ⟨hlo, hhi⟩ := alpha_decay_bounds hg h0 h1
  obtain ⟨hg0, -⟩ := gOf_bounds hg
  have hrc : (0 : Rat) ≤ k.rc := Rat.le_trans Rat.natCast_nonneg hmin
  have hcut : k.rc * (1 - k.alpha / 2) ≤ k.rc * 1 := Rat.mul_le_mul_of_nonneg_left (by grind) hrc
  have hmax : max (c.minRate : Rat) (k.rc * (1 - k.alpha / 2)) ≤ k.rc := by grind
  have hfloor : (c.minRate : Rat) ≤ max (c.minRate : Rat) (k.rc * (1 - k.alpha / 2)) := by grind
  refine ⟨hfloor, Rat.le_trans hmax hline, hmax, hline, ?_, ?_⟩
  · simp only [cutCc]
    grind
  · simp only [cutCc]
    grind

theorem CcInRange.cnp (h : CcInRange c k) (hg : c.g ≤ 65535) (now : Nat) : CcInRange c (cnpCc c now k) := by
  unfold cnpCc
  split
  · exact h.cut hg now
  · exact h

theorem CcInRange.decay (h : CcInRange c k) (hg : c.g ≤ 65535) (now : Nat) :
    CcInRange c { k with alpha := (1 - gOf c) * k.alpha, alphaAt := now } := by
  obtain ⟨hmin, hline, htarget, htop, h0, h1⟩ := h
  obtain ⟨hlo, hhi⟩ := alpha_decay_bounds hg h0 h1
  obtain ⟨hg0, -⟩ := gOf_bounds hg
  exact ⟨hmin, hline, htarget, htop, hlo, Rat.le_trans hhi (by grind)⟩

/-- The target that an increase goes for (R457). -/
def increasedTarget (c : PortCfg) (k : Cc) : Rat :=
  min (if max k.timeStage k.byteStage > c.fast then
      (if min k.timeStage k.byteStage > c.fast then k.rt + (c.rhai : Rat) else k.rt + (c.rai : Rat))
    else k.rt) 1600000

theorem increase_eq (c : PortCfg) (k : Cc) : increase c k = { k with rt := increasedTarget c k, rc := (increasedTarget c k + k.rc) / 2 } := rfl

theorem le_increasedTarget (h : k.rt ≤ 1600000) : k.rt ≤ increasedTarget c k := by
  have hhai : (0 : Rat) ≤ (c.rhai : Rat) := Rat.natCast_nonneg
  have hai : (0 : Rat) ≤ (c.rai : Rat) := Rat.natCast_nonneg
  unfold increasedTarget
  grind

theorem CcInRange.increase (h : CcInRange c k) : CcInRange c (increase c k) := by
  obtain ⟨hmin, hline, htarget, htop, halpha⟩ := h
  have hup : k.rt ≤ increasedTarget c k := le_increasedTarget htop
  have hcap : increasedTarget c k ≤ 1600000 := by
    unfold increasedTarget
    grind
  rw [increase_eq]
  refine ⟨?_, ?_, ?_, hcap, halpha⟩
  · change (c.minRate : Rat) ≤ (increasedTarget c k + k.rc) / 2
    grind
  · change (increasedTarget c k + k.rc) / 2 ≤ 1600000
    grind
  · change (increasedTarget c k + k.rc) / 2 ≤ increasedTarget c k
    grind

/-- Every QP's variables are in range. -/
def QpsInRange (c : PortCfg) (s : State) : Prop := ∀ q ∈ s.nuc.qps, CcInRange c q.cc

theorem QpsInRange.mapQp {s : State} (h : QpsInRange c s) (n : Nat) {f : Qp → Qp} (hf : ∀ q, CcInRange c q.cc → CcInRange c (f q).cc) :
    QpsInRange c (mapQp s n f) := by
  intro y hy
  obtain ⟨q, hq, rfl⟩ := (mem_mapIf _ _ _ _).1 hy
  split
  · exact hf q (h q hq)
  · exact h q hq

/-- A row of DCQCN that finds no QP of its number changes nothing (log entry 1). -/
theorem exec_dcqcn_unknown {s : State} {n : Nat} (hq : qpOf s n = none) {i : Instr}
    (hi : i ∈ [Instr.cnpReceived n, .alphaTimer n, .increaseTimer n, .increaseBytes n]) : exec i s = .next s := by
  simp only [List.mem_cons, List.not_mem_nil, or_false] at hi
  rcases hi with rfl | rfl | rfl | rfl
  · change execCnpReceived n s = _
    simp only [execCnpReceived, hq]
  · change execAlphaTimer n s = _
    simp only [execAlphaTimer, hq]
  · change execIncreaseTimer n s = _
    simp only [execIncreaseTimer, hq]
  · change execIncreaseBytes n s = _
    simp only [execIncreaseBytes, hq]

theorem exec_cnpReceived_linkDown {s : State} {n : Nat} (hlink : s.port.link = false) : exec (.cnpReceived n) s = .next s := by
  change execCnpReceived n s = _
  unfold execCnpReceived
  split
  · simp [hlink]
  · rfl

/-- Each row of DCQCN keeps every QP in range. -/
theorem exec_dcqcn_inRange {s t : State} {n : Nat} (hc : s.port.cfg = some c) (hg : c.g ≤ 65535) {i : Instr}
    (hi : i ∈ [Instr.cnpReceived n, .alphaTimer n, .increaseTimer n, .increaseBytes n]) (h : QpsInRange c s)
    (ht : exec i s = .next t) : QpsInRange c t := by
  cases hq : qpOf s n with
  | none =>
    rw [exec_dcqcn_unknown hq hi] at ht
    cases ht
    exact h
  | some q =>
    simp only [List.mem_cons, List.not_mem_nil, or_false] at hi
    rcases hi with rfl | rfl | rfl | rfl
    · cases hlink : s.port.link with
      | false =>
        rw [exec_cnpReceived_linkDown hlink] at ht
        cases ht
        exact h
      | true =>
        rw [exec_cnpReceived_known hq hc hlink] at ht
        cases ht
        exact QpsInRange.mapQp (s := withCnp s) h n fun q hk => hk.cnp hg _
    · rw [exec_alphaTimer_known hq hc] at ht
      cases ht
      exact QpsInRange.mapQp (s := s.at _) h n fun q hk => hk.decay hg _
    · rw [exec_increaseTimer_known hq hc] at ht
      cases ht
      refine QpsInRange.mapQp (s := s.at _) h n fun q hk => CcInRange.increase ?_
      exact hk
    · rw [exec_increaseBytes_known hq hc] at ht
      cases ht
      split
      · refine h.mapQp n fun q hk => CcInRange.increase ?_
        exact hk
      · exact h

end

/-! ## PFC, the gates and egress -/

section
variable {s : State}

theorem exec_pfcReceived_on {p : Nat} (hlink : s.port.link = true) (hon : pfcOn s p = true) (ns : Nat) :
    exec (.pfcReceived p ns) s = .next (setQueue
      { s with port := { s.port with pfcReceived := s.port.pfcReceived.mapIdx fun i n => if i = p then (n + 1) % 2 ^ 64 else n } } p
      fun q => { q with paused := if ns = 0 then none else some (s.now + ns) }) := by
  change execPfcReceived p ns s = _
  exact if_pos (by simp [hlink, hon])

theorem exec_pfcPauseExpiry_paused {p t : Nat} {q : Queue} (hq : s.port.queues[p]? = some q) (hpaused : q.paused = some t) :
    exec (.pfcPauseExpiry p) s = .next (setQueue (s.at t) p fun q => { q with paused := none }) := by
  change execPfcPauseExpiry p s = _
  simp only [execPfcPauseExpiry, hq, Option.map_some, hpaused]

theorem exec_gateChange_scheduled {gcl : List Gate} {cyc st : Nat} (h : schedule s = some (gcl, cyc, st)) {s1 : State}
    (hs1 : s1 = s.at (nextBoundary gcl cyc st s.now)) :
    exec .gateChange s = .next { s1 with port := { s1.port with gates := maskAt s1 s1.now } } := by
  subst hs1
  change execGateChange s = _
  simp only [execGateChange, h]

/-- A waiting switch of the transmit SA takes effect (R476). -/
def withSwitch (s : State) : State :=
  match s.port.txSwitch with
  | some an => { s with port.txAn := some an, port.txSwitch := none }
  | none => s

/-- The gates stand as the schedule has them now (R464). -/
def withGates (s : State) : State := { s with port.gates := maskAt s s.now }

/-- The scheduler puts the next frame on the wire (R460). -/
def sendNext (s : State) : State :=
  let can := fun i => match s.port.queues[i]? with | some q => (eligible s i q).isSome | none => false
  if can 7 then transmit s 7 true
  else if can 6 then transmit s 6 true
  else match dwrr s 600 s.port.turn (!s.port.served) s.port.queues with
    | none => s
    | some (i, _, qs) => transmit { s with port.queues := qs, port.turn := i, port.served := true } i false

theorem egressNext_eq (s : State) : egressNext s = if !s.port.link then s else sendNext (withGates (withSwitch s)) := rfl

/-- Queue 7 goes first whenever it is eligible (R460). -/
theorem exec_egressFrameBoundary_top (hlink : s.port.link = true) (hswitch : s.port.txSwitch = none)
    (hgates : s.port.gates = maskAt s s.now) {q : Queue} {f : Frame} (hq : s.port.queues[7]? = some q) (hf : eligible s 7 q = some f) :
    exec .egressFrameBoundary s = .next (transmit s 7 true) := by
  have hstay : withGates (withSwitch s) = s := by
    rw [withSwitch, hswitch, withGates, ← hgates]
  have hsend : sendNext s = transmit s 7 true := if_pos (by simp only [hq, hf, Option.isSome_some])
  change Host.Outcome.next (egressNext s) = _
  rw [egressNext_eq, hlink, hstay, hsend]
  rfl

end

end Sys2Proof.Machine
end

section

namespace Sys2Proof.Machine

/-- Settles O28, event by event. The rates are exact rationals (log entry 40); a gate moves at its scheduled time, not up to one NET clock
edge later (log entry 41). -/
theorem congestionPauseAndEgress : Obligations.CongestionPauseAndEgress := by
  refine ⟨fun n s q c hq hc => ?dcqcn, fun p ns s hlink hon => exec_pfcReceived_on hlink hon ns,
    fun p t s q hq hpaused => exec_pfcPauseExpiry_paused hq hpaused, fun s gcl cyc st h => exec_gateChange_scheduled h rfl,
    fun s q f hlink hswitch hgates hq hf => exec_egressFrameBoundary_top hlink hswitch hgates hq hf⟩
  intro g
  refine ⟨fun hlink => ?cut, fun hlink t hcut hearly hone => ?early, exec_alphaTimer_known hq hc, exec_increaseTimer_known hq hc,
    fun hsent => ?bytes⟩
  case cut =>
    intro s1 cut ⟨hdue, hone⟩
    rw [exec_cnpReceived_known hq hc hlink]
    exact congrArg _ (mapQp_congr_of_unique (s := s1) hone (by rw [cnpCc, if_pos (cutDue_of hdue)]; rfl))
  case early =>
    have hdue : cutDue c s.now q.cc = false := by simpa [cutDue, hcut] using hearly
    rw [exec_cnpReceived_known hq hc hlink]
    exact congrArg _ (mapQp_congr_of_unique (s := withCnp s) hone (by simp only [cnpCc, hdue, Bool.false_eq_true, if_false]))
  case bytes => rw [exec_increaseBytes_known hq hc, if_pos hsent]

/-- Settles O29: a cut takes the rate down, its old value becoming the target; an increase takes it half the way to a target that is at
most the line rate; alpha goes part of the way to 0 or to 1. -/
theorem congestionControlStaysInRange : Obligations.CongestionControlStaysInRange :=
  fun _ _ _ _ _ hc _ hg _ hi h ht => exec_dcqcn_inRange hc hg hi h ht

end Sys2Proof.Machine
end

section
/-! SUPPORT. Addressing, the link, the network clock and time synchronization (R447, R450, R469, R471 to R473, R593). -/

namespace Sys2Proof.Machine

section
variable {s : State} {c : PortCfg} (hlink : s.port.link = true) (hc : s.port.cfg = some c)

/-! ## Addressing -/

section
include hlink hc

theorem exec_arpRequest_own (hip : c.ipv4 ≠ 0) (sender mac : Nat) :
    exec (.arpRequest c.ipv4 sender mac) s = .next (postCtl s 46 (.arpReply sender mac)) := by
  change execArpRequest c.ipv4 sender mac s = _
  simp [execArpRequest, hc, hlink, hip]

theorem exec_neighborSolicitation_own (hip : c.ipv6 ≠ 0) {target : Nat} (ht : target = c.ipv6 ∨ target = leNat (linkLocal c.mac))
    (sender mac : Nat) : exec (.neighborSolicitation target sender mac) s = .next (postCtl s 72 (.neighborAdvert sender mac)) := by
  change execNeighborSolicitation target sender mac s = _
  simp [execNeighborSolicitation, hc, hlink, hip, ht]

theorem exec_icmpEcho_v4 (hip : c.ipv4 ≠ 0) (src : Nat) (data : Bytes) :
    exec (.icmpEcho false src data) s = .next (postCtl s (20 + 8 + data.length) (.echoReply false src data)) := by
  change execIcmpEcho false src data s = _
  simp [execIcmpEcho, hc, hlink, hip]

theorem exec_icmpEcho_v6 (hip : c.ipv6 ≠ 0) (src : Nat) (data : Bytes) :
    exec (.icmpEcho true src data) s = .next (postCtl s (40 + 8 + data.length) (.echoReply true src data)) := by
  change execIcmpEcho true src data s = _
  simp [execIcmpEcho, hc, hlink, hip]

end

/-- The node knows where this next hop stands. -/
def withNeighbor (s : State) (ip mac : Nat) : State :=
  { s with port := { s.port with neighbors := putBy (fun n => n.ip == ip) ⟨ip, some mac⟩ s.port.neighbors } }

include hlink in
/-- An answer that was waited for lets every REQ that has not gone yet go (R450). -/
theorem resolved_waited {ip : Nat} (hwait : (s.port.neighbors.any fun n => n.ip == ip) = true) (mac : Nat) :
    resolved s ip mac = ((withNeighbor s ip mac).nuc.qps.filter Qp.unsent).foldl (fun s q => startConnect s q.num) (withNeighbor s ip mac) :=
  if_pos (by rw [hlink, Bool.true_and]; exact hwait)

/-! ## The link and the network clock -/

theorem exec_linkUp_ready (hdown : s.port.link = false) (hready : linkReady s = true) :
    exec .linkUp s = .next ((s.nuc.qps.filter fun q => q.state == .connected).foldl (fun s q => retransmit s q.num)
      { s with port := { s.port with link := true } }) := by
  change execLinkUp s = _
  exact if_neg (by simp [hdown, hready])

/-! ## Sync -/

/-- The node takes a Sync of this offset and interval into account (R471). -/
def withSync (s : State) (off : Int) (ns : Nat) : State :=
  { s with port := { s.port with ptp := { s.port.ptp with
    lastSync := some s.now, interval := ns, offset := off,
    good := if off.natAbs ≤ s.port.ptp.lockNs then s.port.ptp.good + 1 else 0,
    bad := if off.natAbs ≤ s.port.ptp.lockNs then 0 else s.port.ptp.bad + 1 } } }

/-- The clock steps on this Sync (R472). -/
def syncSteps (s : State) (off : Int) : Bool :=
  !decide (off.natAbs ≤ s.port.ptp.lockNs) && s.clock.ptp != .locked && !ordinaryActive s

include hlink in
/-- A Sync on which the clock does not step. -/
theorem exec_syncReceived_counted {off : Int} (hstays : syncSteps s off = false) (ns : Nat) :
    exec (.syncReceived s.port.ptp.domain off ns) s = .next (if s.clock.ptp = .locked then
        (if 4 ≤ (withSync s off ns).port.ptp.bad then leaveLocked (withSync s off ns) else withSync s off ns)
      else if 8 ≤ (withSync s off ns).port.ptp.good then enterLocked (withSync s off ns) else withSync s off ns) := by
  change execSyncReceived s.port.ptp.domain off ns s = _
  unfold syncSteps at hstays
  by_cases hin : off.natAbs ≤ s.port.ptp.lockNs <;> by_cases hlocked : s.clock.ptp = .locked <;>
    simp_all [execSyncReceived, withSync]

include hlink in
/-- A Sync on which the clock steps. -/
theorem exec_syncReceived_steps {off : Int} (hsteps : syncSteps s off = true) (ns : Nat) :
    ∃ t, exec (.syncReceived s.port.ptp.domain off ns) s = .next t ∧
      t.clock.now = ((s.clock.now : Int) - off).toNat ∧ t.clock.ptp = s.clock.ptp ∧ t.port.ptp.offset = 0 ∧ t.own = s.own := by
  change ∃ t, execSyncReceived s.port.ptp.domain off ns s = .next t ∧ _
  simp only [syncSteps, Bool.and_eq_true, Bool.not_eq_true', decide_eq_false_iff_not, bne_iff_ne] at hsteps
  obtain ⟨⟨hout, hunlocked⟩, hidle⟩ := hsteps
  simp [execSyncReceived, hlink, hout, hunlocked, hidle]

theorem exec_syncTimeout_locked (hlocked : s.clock.ptp = .locked) {t : Nat} (ht : s.port.ptp.lastSync = some t) :
    exec .syncTimeout s = .next (leaveLocked (s.at (t + 4 * s.port.ptp.interval))) := by
  change execSyncTimeout s = _
  simp only [execSyncTimeout, hlocked, ht]

/-! ## Pdelay -/

theorem toQueue_ptp (s : State) (p : Nat) (f : Frame) : (toQueue s p f).port.ptp = s.port.ptp := by
  unfold toQueue
  simp only
  split <;> rfl

section
include hlink

/-- The answer to a Pdelay_Req, with the follow-up that a two-step clock sends (R469; the signs of the asymmetries are log entry 121). -/
theorem exec_pdelayReqReceived_up (seq rx : Nat) : exec (.pdelayReqReceived seq rx) s = .next
    (let s1 := postPtp s (.pdelayResp seq (rxStamp s rx).toNat (txStamp s s.now).toNat s.port.ptp.oneStep)
     if s.port.ptp.oneStep then s1 else postPtp s1 (.pdelayFollowUp seq (txStamp s s.now).toNat)) := by
  change execPdelayReqReceived seq rx s = _
  simp only [execPdelayReqReceived, hlink, Bool.not_true, Bool.false_eq_true, if_false]
  simp only [postPtp, toQueue_ptp]

theorem exec_pdelayTimer_up : exec .pdelayTimer s = .next (postPtp
    { s with port := { s.port with ptp := { s.port.ptp with pdelaySeq := (s.port.ptp.pdelaySeq + 1) % 65536 } } }
    (.pdelayReq ((s.port.ptp.pdelaySeq + 1) % 65536) (txStamp s s.now).toNat)) := by
  change execPdelayTimer s = _
  exact if_neg (by simp [hlink])

theorem exec_pdelayRespReceived_up (t1 t2 t3 t4 : Nat) : exec (.pdelayRespReceived s.port.ptp.pdelaySeq t1 t2 t3 t4) s =
    .next { s with port := { s.port with ptp := { s.port.ptp with
      linkDelay := some (((rxStamp s t4 - txStamp s t1) - ((t3 : Int) - t2)) / 2) } } } := by
  change execPdelayRespReceived s.port.ptp.pdelaySeq t1 t2 t3 t4 s = _
  exact if_pos (by simp [hlink])

end

end

end Sys2Proof.Machine
end

section

namespace Sys2Proof.Machine

/-- Settles O30, event by event. -/
theorem addressesLinkAndNetworkClock : Obligations.AddressesLinkAndNetworkClock := by
  refine ⟨fun s c hlink hc => ⟨fun sender mac hip => exec_arpRequest_own hlink hc hip sender mac,
      fun target sender mac hip ht => exec_neighborSolicitation_own hlink hc hip ht sender mac,
      fun src data hip => exec_icmpEcho_v4 hlink hc hip src data, fun src data hip => exec_icmpEcho_v6 hlink hc hip src data,
      fun ip mac hwait => ?answer⟩,
    fun s => ⟨rfl, exec_linkUp_ready, rfl, rfl⟩⟩
  intro s1 t
  have ht : resolved s ip mac = t := resolved_waited hlink hwait mac
  exact ⟨congrArg _ ht, congrArg _ ht⟩

/-- Settles O31, message by message. The signs of the asymmetries in the Pdelay clauses are log entry 121. -/
theorem timeSynchronization : Obligations.TimeSynchronization := by
  refine ⟨fun off ns s hlink => ?sync, fun s t hlocked ht => exec_syncTimeout_locked hlocked ht, fun seq rx s hlink => ?req,
    fun s hlink => exec_pdelayTimer_up hlink, fun t1 t2 t3 t4 s hlink => exec_pdelayRespReceived_up hlink t1 t2 t3 t4,
    fun s => rfl, fun ts s => rfl⟩
  case sync =>
    intro inside s1
    refine ⟨fun hlocked => ?locked, fun hunlocked hstays => ?unlocked, fun hunlocked hout hidle => ?steps⟩
    case locked => rw [exec_syncReceived_counted hlink (by simp [syncSteps, hlocked]), if_pos hlocked]; rfl
    case unlocked =>
      have hno : syncSteps s off = false := by
        rcases hstays with hin | hactive
        · simp [syncSteps, show off.natAbs ≤ s.port.ptp.lockNs from hin]
        · simp [syncSteps, hactive]
      rw [exec_syncReceived_counted hlink hno, if_neg hunlocked]
      rfl
    case steps =>
      have hout : ¬ off.natAbs ≤ s.port.ptp.lockNs := hout
      exact exec_syncReceived_steps hlink (by simp [syncSteps, hout, hunlocked, hidle]) ns
  case req =>
    intro tx s1
    rw [exec_pdelayReqReceived_up hlink]
    exact ⟨fun hone => congrArg _ (if_pos hone), fun htwo => congrArg _ (if_neg (by simp [htwo]))⟩

end Sys2Proof.Machine
end

section
/-! SUPPORT. The sideband: events, registers, the mailbox, MCTP and the recovery loader (R487, R537, R576 to R582, R598). -/

namespace Sys2Proof.Machine

/-! ## Events -/

theorem toQueue_changes (s : State) (p : Nat) (f : Frame) : ∃ qs, toQueue s p f = { s with port.queues := qs } := by
  unfold toQueue
  simp only
  split
  · exact ⟨_, rfl⟩
  · exact ⟨_, rfl⟩

theorem toQueues_change {α : Type} {g : State → α → State} (h : ∀ s a, ∃ p f, g s a = toQueue s p f) (xs : List α) (s : State) :
    ∃ qs, xs.foldl g s = { s with port.queues := qs } := by
  refine List.foldlRecOn xs g (motive := fun t => ∃ qs, t = { s with port.queues := qs }) ⟨s.port.queues, rfl⟩ ?_
  rintro t ⟨qs, rfl⟩ a -
  obtain ⟨p, f, hf⟩ := h { s with port.queues := qs } a
  obtain ⟨qs', h'⟩ := toQueue_changes { s with port.queues := qs } p f
  exact ⟨qs', by rw [hf, h']⟩

/-- What is sent on a QP stands among its unacknowledged messages and in the queues. -/
theorem send_changes (s : State) (n : Nat) (op : OutOp) (tag : AckTag) :
    ∃ ys qs, send s n op tag = { s with nuc.qps := ys, port.queues := qs } := by
  unfold send
  split
  · exact ⟨s.nuc.qps, s.port.queues, rfl⟩
  · simp only
    obtain ⟨qs, h⟩ := toQueues_change (fun s i => ⟨_, _, rfl⟩) _ _
    exact ⟨_, qs, h⟩

theorem sends_change {α : Type} {g : State → α → State} (h : ∀ s a, ∃ n op tag, g s a = send s n op tag) (xs : List α) (s : State) :
    ∃ ys qs, xs.foldl g s = { s with nuc.qps := ys, port.queues := qs } := by
  refine List.foldlRecOn xs g (motive := fun t => ∃ ys qs, t = { s with nuc.qps := ys, port.queues := qs })
    ⟨s.nuc.qps, s.port.queues, rfl⟩ ?_
  rintro t ⟨ys, qs, rfl⟩ a -
  obtain ⟨n, op, tag, hg⟩ := h { s with nuc.qps := ys, port.queues := qs } a
  obtain ⟨ys', qs', h'⟩ := send_changes { s with nuc.qps := ys, port.queues := qs } n op tag
  exact ⟨ys', qs', by rw [hg, h']⟩

/-- The record of an event (Table 14-14; its severity is a free value, log entry 13). -/
def eventOf (s : State) (code : Nat) (data : Bytes) : Event :=
  { eseq := s.nuc.eseq + 1, code := code, sev := (Config.severity code).toNat % 3, time := s.now, data := cut data 0 16 }

/-- Events go into the sideband queue and to the subscribers' rings (R413, R582). -/
theorem raise_changes (s : State) (code : Nat) (data : Bytes) : ∃ ys qs, raise s code data =
    { s with nuc.eseq := s.nuc.eseq + 1,
             nuc.sbEvents := s.nuc.sbEvents.drop (s.nuc.sbEvents.length + 1 - 256) ++ [eventOf s code data],
             nuc.evLost := s.nuc.evLost || decide (s.nuc.sbEvents.length ≥ 256), nuc.qps := ys, port.queues := qs } := by
  unfold raise
  simp only
  obtain ⟨ys, qs, h⟩ := sends_change (fun s u => ⟨_, _, _, rfl⟩) _ _
  exact ⟨ys, qs, h⟩

theorem cut_append_right {p q : Bytes} {n : Nat} (h : q.length = n) : cut (p ++ q) p.length n = q := by
  subst h
  simp [cut, zeros]

/-- The fields of an event record lie as Table 14-14 lays them out. -/
theorem eventBytes_fields {e : Event} (hcode : e.code < 65536) (hsev : e.sev ≤ 2) (htime : e.time < 2 ^ 64) {b : Bytes}
    (hb : b = eventBytes e) :
    b.length = 32 ∧ fld b 0 4 = e.eseq % 2 ^ 32 ∧ fld b 4 2 = e.code ∧ bfld b 6 1 1 0 = e.sev ∧ bfld b 6 1 7 2 = 0 ∧ fld b 7 1 = 0 ∧
    fld b 8 8 = e.time ∧ cut b 16 16 = cut e.data 0 16 := by
  subst hb
  have hsev8 : fld (eventBytes e) 6 1 = e.sev := by
    simp [eventBytes, u8, u16, u32, u64, fld_append_right, fld_leBytes_append]
    omega
  refine ⟨by simp [eventBytes, u8, u16, u32, u64], ?_, ?_, ?_, ?_, ?_, ?_, cut_append_right (cut_length ..)⟩
  · simp [eventBytes, u32, fld_leBytes_append]
  · simp [eventBytes, u16, u32, fld_append_right, fld_leBytes_append]
    omega
  · simp [bfld, bits, hsev8]
    omega
  · simp [bfld, bits, hsev8]
    omega
  · simp [eventBytes, u8, u16, u32, u64, fld_append_right, fld_leBytes_append]
  · simp [eventBytes, u8, u16, u32, u64, fld_append_right, fld_leBytes_append]
    omega

section
variable {s : State} (hs : standby s = true)

include hs in
theorem exec_eventRead_records {tag len : Nat} (hmod : len % 32 = 0) (hlen : len ≤ 1024) : exec (.eventRead tag len) s = .next (vendorReply
    { s with nuc := { s.nuc with sbEvents := s.nuc.sbEvents.drop (len / 32) } } 0x14 tag stOK 0
    ((s.nuc.sbEvents.take (len / 32)).flatMap eventBytes)) := by
  change execEventRead tag len s = _
  exact (if_neg (by simp [hs])).trans (if_neg (by simp [hmod, Nat.not_lt.2 hlen]))

/-! ## Registers -/

section
include hs

theorem exec_regRead_range {addr len : Nat} (hok : sbOk addr len = true) (tag : Nat) :
    exec (.regRead tag addr len) s = .next (vendorReply s 0x10 tag stOK addr (sbBytes s addr len)) := by
  change execRegRead tag addr len s = _
  exact (if_neg (by simp [hs])).trans (if_pos hok)

theorem exec_regRead_outside {addr len : Nat} (hno : sbOk addr len = false) (tag : Nat) :
    exec (.regRead tag addr len) s = .next (vendorReply s 0x10 tag stMALFORMED addr []) := by
  change execRegRead tag addr len s = _
  exact (if_neg (by simp [hs])).trans (if_neg (by simp [hno]))

/-- Eight bytes reach one of the three registers that are written (R579). -/
theorem exec_regWrite_register {addr : Nat} (haddr : addr ∈ [0x10000, 0x10018, 0x10038]) {data : Bytes} (hdata : data.length = 8)
    (tag : Nat) : exec (.regWrite tag addr data) s = .next (let t := vendorReply s 0x11 tag stOK addr []
      if addr = 0x10000 then (if (leNat data).testBit 21 then clearEvlost t else t)
      else if addr = 0x10018 then (if (leNat data).testBit 63 then ackFail t else t)
      else
        let u := if (leNat data).testBit 1 then flushEvents t else t
        if (leNat data).testBit 0 then sbWarm u else u) := by
  have hsome : data.isEmpty = false := by
    cases data with
    | nil => simp at hdata
    | cons => rfl
  have hrange : sbOk addr 8 = true := by
    simp only [List.mem_cons, List.not_mem_nil, or_false] at haddr
    rcases haddr with rfl | rfl | rfl <;> decide
  have hlisted : [0x10000, 0x10018, 0x10038].contains addr = true := by simpa using haddr
  change execRegWrite tag addr data s = _
  refine (if_neg (by simp [hs])).trans ((if_neg (by rw [hdata, hrange, hlisted, hsome]; simp)).trans
    ((if_neg (by simp [hsome])).trans ?_))
  split
  · rfl
  · split <;> rfl

theorem exec_sbStatusEvlost_standby : exec .sbStatusEvlost s = .next (clearEvlost s) := by
  change execSbStatusEvlost s = _
  exact if_pos hs

theorem exec_sbCtrlEvflush_standby : exec .sbCtrlEvflush s = .next (flushEvents s) := by
  change execSbCtrlEvflush s = _
  exact if_pos hs

theorem exec_sbFailcauseAck_standby : exec .sbFailcauseAck s = .next (ackFail s) := by
  change execSbFailcauseAck s = _
  exact if_pos hs

end

/-- SB.FAILCAUSE holds its cause while the node has failed (R537). -/
theorem ackFail_failStop (h : s.pw.boot = .failStop) : ackFail s = s := by simp [ackFail, h]

theorem ackFail_elsewhere (h : s.pw.boot ≠ .failStop) : ackFail s = { s with pw := { s.pw with fail := {} } } := by simp [ackFail, h]

/-! ## The sideband mailbox -/

section
include hs

theorem exec_mboxWrite_running (hrun : s.pw.boot = .running) {addr : Nat} {data : Bytes} (hend : addr + data.length ≤ 8192)
    (hlen : data.length ≤ 1024) (tag : Nat) {s1 : State}
    (hs1 : s1 = { s with nuc := { s.nuc with sideband := { s.nuc.sideband with mem := memWrite s.nuc.sideband.mem addr data } } }) :
    exec (.mboxWrite tag addr data) s = .next (vendorReply
      (if addr = 0x1FF8 ∧ data.length = 8 then boxWord s1 .sideband (leNat data) else s1) 0x12 tag stOK addr []) := by
  subst hs1
  change execMboxWrite tag addr data s = _
  refine (if_neg (by simp [hs])).trans ((if_neg (by simp [hrun])).trans ((if_neg ?_).trans ?_))
  · simp [Nat.not_lt.2 hend, Nat.not_lt.2 hlen]
  · simp only [Bool.and_eq_true, decide_eq_true_eq]

theorem exec_mboxRead_running (hrun : s.pw.boot = .running) {addr len : Nat} (hend : addr + len ≤ 8192) (hlen : len ≤ 1024) (tag : Nat) :
    exec (.mboxRead tag addr len) s = .next (vendorReply s 0x13 tag stOK addr (memRead s.nuc.sideband.mem (8192 + addr) len)) := by
  change execMboxRead tag addr len s = _
  refine (if_neg (by simp [hs])).trans ((if_neg (by simp [hrun])).trans (if_neg ?_))
  simp [Nat.not_lt.2 hend, Nat.not_lt.2 hlen]

/-! ## MCTP control, PLDM and I3C -/

theorem exec_setEndpointId_valid {eid : Nat} (hlo : 0 < eid) (hhi : eid < 255) : exec (.setEndpointId eid) s =
    .next (sbSend { s with pw := { s.pw with eid := eid } } (.control 1 ([0, 0] ++ u8 eid ++ [0]))) := by
  change execSetEndpointId eid s = _
  exact (if_neg (by simp [hs])).trans (if_neg (by simp; omega))

theorem exec_getEndpointId_standby : exec .getEndpointId s = .next (sbSend s (.control 2 ([0] ++ u8 s.pw.eid ++ [0, 0]))) := by
  change execGetEndpointId s = _
  exact if_pos hs

theorem exec_getMctpVersionSupport_standby :
    exec .getMctpVersionSupport s = .next (sbSend s (.control 4 [0, 1, 0xF1, 0xF0, 0xFF, 0x00])) := by
  change execGetMctpVersionSupport s = _
  exact if_pos hs

theorem exec_getMessageTypeSupport_standby :
    exec .getMessageTypeSupport s = .next (sbSend s (.control 5 [0, 3, 0x00, 0x01, 0x7F])) := by
  change execGetMessageTypeSupport s = _
  exact if_pos hs

theorem exec_pldmSensorReading_value {id : Nat} {v : Int} (hv : sensorValue s id = some (some v)) :
    exec (.pldmSensorReading id) s = .next (sbSend s (.pldm ([0, 0] ++ u32 (unsigned 32 v)))) := by
  change execPldmSensorReading id s = _
  refine (if_neg (by simp [hs])).trans ?_
  rw [hv]

theorem exec_pldmSensorReading_unavailable {id : Nat} (hv : sensorValue s id = some none) :
    exec (.pldmSensorReading id) s = .next (sbSend s (.pldm [0, 1])) := by
  change execPldmSensorReading id s = _
  refine (if_neg (by simp [hs])).trans ?_
  rw [hv]

/-- GetTID answers the endpoint id. -/
theorem exec_pldmBase_getTid {req : Bytes} (hcmd : fld req 2 1 = 2) : exec (.pldmBase req) s = .next
    (sbSend s (.pldm (u8 (fld req 0 1 % 128) ++ cut req 1 2 ++ ([0] ++ u8 s.pw.eid)))) := by
  change execPldmBase req s = _
  refine (if_neg (by simp [hs])).trans ?_
  simp only [hcmd, if_true]

theorem exec_setdasa_free (hfree : s.pw.dynAddr = none) (a : Nat) :
    exec (.setdasa 0x4E a) s = .next { s with pw := { s.pw with dynAddr := some a } } := by
  change execSetdasa 0x4E a s = _
  exact if_pos (by simp [hs, hfree])

theorem exec_entdaa_free (hfree : s.pw.dynAddr = none) (a : Nat) :
    exec (.entdaa a) s = .next { s with pw := { s.pw with dynAddr := some a } } := by
  change execEntdaa a s = _
  exact if_pos (by simp [hs, hfree])

/-! ## The recovery loader -/

/-- The loader takes its messages in RECOVERY (R487). -/
theorem recRow_recovery (hrec : s.pw.boot = .recovery) (cmd tag addr : Nat) {f : State → State} {t : State} (hf : f s = t) :
    recRow cmd tag addr f s = t :=
  (if_neg (by simp [hs])).trans ((if_neg (by simp [hrec])).trans hf)

/-- Elsewhere they are answered BUSY (R580). -/
theorem recRow_elsewhere (hno : s.pw.boot ≠ .recovery) (cmd tag addr : Nat) (f : State → State) :
    recRow cmd tag addr f s = vendorReply s cmd tag stBUSY addr [] :=
  (if_neg (by simp [hs])).trans (if_pos (by simp [hno]))

section
variable (hrec : s.pw.boot = .recovery)
include hrec

theorem exec_recBegin_recovery {len : Nat} (hlen : len ≤ imageRange) (tag : Nat) : exec (.recBegin tag len) s = .next (vendorReply
    { s with sec := { s.sec with flash := memZero s.sec.flash 0 imageRange, recState := 1, recCause := .none, recBytes := 0,
                                 recLen := len } } 2 tag stOK len []) :=
  congrArg Host.Outcome.next (recRow_recovery hs hrec 2 tag len (if_neg (Nat.not_lt.2 hlen)))

variable (hstate : s.sec.recState = 1)
include hstate

theorem exec_recWrite_next {data : Bytes} (hsome : 0 < data.length) (hlen : data.length ≤ 1024)
    (hend : s.sec.recBytes + data.length ≤ s.sec.recLen) (tag : Nat) {t : State} (ht : t = norWrite s s.sec.recBytes data) :
    exec (.recWrite tag s.sec.recBytes data) s = .next (vendorReply
      { t with sec := { t.sec with recBytes := s.sec.recBytes + data.length } } 3 tag stOK s.sec.recBytes []) := by
  subst ht
  refine congrArg Host.Outcome.next (recRow_recovery hs hrec 3 tag s.sec.recBytes ((if_neg ?_).trans (if_neg ?_)))
  · simp [hstate, Nat.not_lt.2 hlen, List.ne_nil_of_length_pos hsome]
  · simp [Nat.not_lt.2 hend]

theorem exec_recEnd_good {v : BootSigs} {tag : Nat} {h d : Bytes} (hcheck : romCheck (vendorReply s 4 tag stOK 0 []) v = .inl (h, d)) :
    exec (.recEnd tag v) s = .next (romHand (vendorReply s 4 tag stOK 0 []) h d v.train) := by
  refine congrArg Host.Outcome.next (recRow_recovery hs hrec 4 tag 0 ((if_neg (by simp [hstate])).trans ?_))
  simp only [hcheck]

theorem exec_recEnd_failed {v : BootSigs} {tag : Nat} {cause : RecCause}
    (hcheck : romCheck (vendorReply s 4 tag stOK 0 []) v = .inr cause) {t : State} (ht : t = vendorReply s 4 tag stOK 0 []) :
    exec (.recEnd tag v) s = .next { t with sec := { t.sec with recState := 3, recCause := cause } } := by
  subst ht
  refine congrArg Host.Outcome.next (recRow_recovery hs hrec 4 tag 0 ((if_neg (by simp [hstate])).trans ?_))
  simp only [hcheck]

end

end

end

end Sys2Proof.Machine
end

section

namespace Sys2Proof.Machine

/-- Settles O51: an event goes to the end of the queue, from whose front the one too many is dropped. -/
theorem sidebandQueueHoldsEvents : Obligations.SidebandQueueHoldsEvents := by
  refine ⟨fun s code data _ => ?event, fun e hcode hsev htime => eventBytes_fields hcode hsev htime rfl, fun s => ?alert,
    fun tag len s hs hmod hlen => exec_eventRead_records hs hmod hlen⟩
  case event =>
    obtain ⟨ys, qs, h⟩ := raise_changes s code data
    refine ⟨eventOf s code data, rfl, rfl, rfl, rfl, Nat.le_of_lt_succ (Nat.mod_lt _ (by decide)), fun hroom => ?room, fun hfull => ?full⟩
    case room =>
      have hkeep : s.nuc.sbEvents.length + 1 - 256 = 0 := by omega
      rw [h]
      exact ⟨by simp [hkeep], by simp [Nat.not_le.2 hroom]⟩
    case full =>
      rw [h]
      exact ⟨by simp [hfull], by simp [hfull]⟩
  case alert => simp [alertLow]

/-- Settles O32, register by register and message by message. -/
theorem sidebandRegistersAndMailbox : Obligations.SidebandRegistersAndMailbox := by
  refine ⟨fun tag s hs => ⟨fun addr len hok => exec_regRead_range hs hok tag, fun addr len hno => exec_regRead_outside hs hno tag,
      fun data hdata => ⟨?status, fun hup => ?fail, fun hstop => ?held, ?ctrl⟩, exec_sbStatusEvlost_standby hs,
      exec_sbCtrlEvflush_standby hs, fun hup => ?ack, fun hstop => ?ackHeld, fun hwarm => ?warm⟩,
    fun tag s hs => ⟨fun addr data hrun hend hlen => exec_mboxWrite_running hs hrun hend hlen tag rfl,
      fun addr len hrun hend hlen => exec_mboxRead_running hs hrun hend hlen tag⟩⟩
  case status => exact exec_regWrite_register hs (by simp) hdata tag
  case fail =>
    refine (exec_regWrite_register hs (by simp) hdata tag).trans (congrArg Host.Outcome.next ?_)
    exact congrArg (fun u => if (leNat data).testBit 63 then u else vendorReply s 0x11 tag stOK 0x10018 [])
      (ackFail_elsewhere (s := vendorReply s 0x11 tag stOK 0x10018 []) hup)
  case held =>
    refine (exec_regWrite_register hs (by simp) hdata tag).trans (congrArg Host.Outcome.next ?_)
    exact (congrArg (fun u => if (leNat data).testBit 63 then u else vendorReply s 0x11 tag stOK 0x10018 [])
      (ackFail_failStop (s := vendorReply s 0x11 tag stOK 0x10018 []) hstop)).trans (ite_self _)
  case ctrl => exact exec_regWrite_register hs (by simp) hdata tag
  case ack => rw [exec_sbFailcauseAck_standby hs, ackFail_elsewhere hup]
  case ackHeld => rw [exec_sbFailcauseAck_standby hs, ackFail_failStop hstop]
  case warm => rw [exec_sbCtrlWarm, if_pos hwarm]

/-- Settles O33, request by request. The formats are log entry 11. -/
theorem managementRequestsAreAnswered : Obligations.ManagementRequestsAreAnswered :=
  fun _ hs => ⟨fun _ hlo hhi => exec_setEndpointId_valid hs hlo hhi, exec_getEndpointId_standby hs, exec_getMctpVersionSupport_standby hs,
    exec_getMessageTypeSupport_standby hs, fun _ _ hv => exec_pldmSensorReading_value hs hv,
    fun _ hv => exec_pldmSensorReading_unavailable hs hv, fun _ hcmd => exec_pldmBase_getTid hs hcmd,
    fun a hfree => ⟨exec_setdasa_free hs hfree a, exec_entdaa_free hs hfree a⟩⟩

/-- Settles O34, message by message. -/
theorem recoveryLoaderTakesImage : Obligations.RecoveryLoaderTakesImage := by
  refine fun tag s hs => ⟨fun hrec => ⟨congrArg Host.Outcome.next (recRow_recovery hs hrec 1 tag 0 rfl), fun len hlen => exec_recBegin_recovery hs hrec hlen tag,
      fun data hstate hsome hlen hend => exec_recWrite_next hs hrec hstate hsome hlen hend tag rfl,
      fun v h d hstate hcheck => exec_recEnd_good hs hrec hstate hcheck,
      fun v cause hstate hcheck => exec_recEnd_failed hs hrec hstate hcheck rfl⟩,
    fun hno => ⟨?_, fun len => ?_, fun off data => ?_, fun v => ?_⟩⟩
  all_goals exact congrArg _ (recRow_elsewhere hs hno ..)

end Sys2Proof.Machine
end

section
/-! SUPPORT. The life cycle and evidence (R479 to R482, R491 to R495), saves and fail-stop (R537, R542, R564, R568 to R570), Mace and the
health score (R524, R525, R532, R533). -/

namespace Sys2Proof.Machine

/-! ## The life cycle -/

section
variable {c : Cmd} {s s1 : State} {r : MailCmd} {i : Instr}

/-- The life-cycle nonce has served. -/
def nonceServed (s : State) : State := { s with sec := { s.sec with lcsNonce := none } }

/-- The bytes that a life-cycle operation of code `op` needs. -/
def lcsLen (op need : Nat) (b : Bytes) : Nat := if fld b 0 1 = op then 0x28 + need else 0x28

/-- A life-cycle operation that is allowed and presents the nonce in force uses it up and is acted on (R479; log entry 35). -/
theorem exec_of_lcsRow {op need : Nat} {allow : MailCtx → Bytes → State → Bool} {f : Bytes → Bytes → State → MailRes}
    (hrow : exec i s = .next (lcsRow op need allow f c s)) (h : Accepted 0x0222 .control (lcsLen op need) c s s1 r)
    (hop : fld r.body 0 1 = op) (hheld : lifecycleNonceHeld s1 r.body)
    (hallow : allow ⟨c.box, callerQp s1 c, boxRole s1 c.box⟩ r.body s1 = true) {res : MailRes}
    (hf : f (cut r.body 8 32) r.body (nonceServed s1) = res) : exec i s = .next (handled c res) := by
  subst hf
  obtain ⟨hpad, e, hnonce, hfresh⟩ := hheld
  rw [hrow]
  refine congrArg Host.Outcome.next ((mailRowIf_handled h _ _ (by simp [opIs, hop])).trans (congrArg (handled c) ?_))
  refine (if_neg (by simp [hop, hpad, hallow])).trans ?_
  simp only [hnonce]
  exact if_pos (by simp [State.now, hfresh])

theorem exec_lifecycleNonce_draws (h : Accepted 0x0222 .control (fun _ => 0x28) c s s1 r) (hop : fld r.body 0 1 = 0)
    (hpad : zeroAt r.body 1 7 = true) :
    exec (.lifecycleNonce c) s = .next (answered
      { s1 with free := s1.free + 1,
                sec := { s1.sec with lcsNonce := some (cut (Config.nonce s1.free) 0 32, s1.clock.now + 60 * 10 ^ 9) } }
      c stOK (cut (Config.nonce s1.free) 0 32)) :=
  exec_of_sharedReply rfl h (by simp [opIs, hop]) (if_neg (by simp [hop, hpad]))

theorem exec_lifecycleField_test (h : Accepted 0x0222 .control (lcsLen 1 sigLen) c s s1 r) (hop : fld r.body 0 1 = 1)
    (hheld : lifecycleNonceHeld s1 r.body) (hlcs : s1.sec.lcs = .test) {sig : Option Signed}
    (hsig : verified Config.vendorKey (lcsDigest 1 (cut r.body 8 32)) sig = true) :
    exec (.lifecycleField c sig) s = .next (answered
      { s1 with sec := { s1.sec with lcsNonce := none, lcs := .field } } c stOK []) :=
  exec_of_lcsRow rfl h hop hheld (by simp [hlcs]) (res := .reply _ stOK []) (if_pos hsig)

theorem exec_ownerClaim_unowned (h : Accepted 0x0222 .control (lcsLen 2 (8 + 1312)) c s s1 r) (hop : fld r.body 0 1 = 2)
    (hheld : lifecycleNonceHeld s1 r.body) (hlcs : s1.sec.lcs = .test ∨ s1.sec.lcs = .field) (hroot : s1.sec.ownerRoot = none)
    (hbox : c.box = .sideband) (hpad : zeroAt r.body 0x29 7 = true) :
    exec (.ownerClaim c) s = .next (answered
      { s1 with sec := { s1.sec with lcsNonce := none, ownerRoot := some (sha3 (cut r.body 0x30 1312)),
                                     ownerFlags := fld r.body 0x28 1 } } c stOK []) :=
  exec_of_lcsRow rfl h hop hheld (by simpa [hroot, hbox, hpad] using hlcs) (res := .reply _ stOK []) rfl

theorem exec_ownerRecord_newer (h : Accepted 0x0222 .control (lcsLen 3 recordLen) c s s1 r) (hop : fld r.body 0 1 = 3)
    (hheld : lifecycleNonceHeld s1 r.body) (hlcs : s1.sec.lcs = .test ∨ s1.sec.lcs = .field) {v root : Bytes} {sig : Option Signed}
    (hv : v = cut r.body 0x28 recordLen) (hroot : root = cut v rootKeyOff 1312) (hmagic : fld v 0 4 = 0x524E574F)
    (hpad : zeroAt v 8 24 = true) (hseq : (s1.sec.record.map fun o => fld o 4 4).getD 0 < fld v 4 4)
    (howner : s1.sec.ownerRoot = some (sha3 root)) (hsig : verified root (sha3 (cut v 0 0x14A0)) sig = true) :
    exec (.ownerRecord c sig) s = .next (answered
      (norWrite { s1 with sec := { s1.sec with lcsNonce := none, record := some v } } ownerArea v) c stOK []) := by
  subst hroot hv
  refine exec_of_lcsRow rfl h hop hheld (by simpa [hpad] using hlcs) (res := .reply _ stOK []) ((if_neg ?_).trans (if_neg ?_))
  · simp [hmagic, nonceServed, Nat.not_le.2 hseq]
  · simp [howner, hsig, nonceServed]

theorem exec_lifecycleReturn_field (h : Accepted 0x0222 .control (lcsLen 4 (2 * sigLen)) c s s1 r) (hop : fld r.body 0 1 = 4)
    (hheld : lifecycleNonceHeld s1 r.body) (hlcs : s1.sec.lcs = .field) (htenants : s1.own.tenants = []) {osig vsig : Option Signed}
    (hosig : ownerRootVerified s1 (lcsDigest 4 (cut r.body 8 32)) osig = true)
    (hvsig : verified Config.vendorKey (lcsDigest 4 (cut r.body 8 32)) vsig = true) :
    exec (.lifecycleReturn c osig vsig) s = .next (warmStart
      { s1 with sec := { s1.sec with lcsNonce := none, lcs := .return_ },
                mem := { s1.mem with banks := s1.mem.banks.map fun k => { k with retired := false } },
                fl := { s1.fl with areaA := { erased := s1.fl.geom.isSome }, areaB := { erased := s1.fl.geom.isSome }, cfg := none } }) := by
  refine exec_of_lcsRow rfl h hop hheld (by simp [hlcs]) (res := .silent _) ((if_neg ?_).trans (if_neg ?_))
  · have hosig : ownerRootVerified (nonceServed s1) (lcsDigest 4 (cut r.body 8 32)) osig = true := hosig
    simp [hosig, hvsig]
  · simp [nonceServed, htenants]

theorem exec_lifecycleVoid_signed (h : Accepted 0x0222 .control (lcsLen 5 sigLen) c s s1 r) (hop : fld r.body 0 1 = 5)
    (hheld : lifecycleNonceHeld s1 r.body) (hlcs : s1.sec.lcs ≠ .void) {sig : Option Signed}
    (hsig : ownerRootVerified s1 (lcsDigest 5 (cut r.body 8 32)) sig = true ∨ ((s1.sec.lcs = .test ∨ s1.sec.lcs = .return_) ∧
      verified Config.vendorKey (lcsDigest 5 (cut r.body 8 32)) sig = true)) :
    exec (.lifecycleVoid c sig) s = .next (answered
      { s1 with sec := { s1.sec with lcsNonce := none, lcs := .void } } c stOK []) := by
  refine exec_of_lcsRow rfl h hop hheld (by simpa using hlcs) (res := .reply _ stOK []) (if_pos ?_)
  have hsame : ownerRootVerified (nonceServed s1) (lcsDigest 5 (cut r.body 8 32)) sig =
    ownerRootVerified s1 (lcsDigest 5 (cut r.body 8 32)) sig := rfl
  have hlcs' : (nonceServed s1).sec.lcs = s1.sec.lcs := rfl
  simpa [hsame, hlcs'] using hsig

/-- Vendor debug opens in RETURN (Table 17-2). -/
theorem exec_jtagVendorToken_returned (hlcs : s.sec.lcs = .return_) {g : Signed} (hkey : g.key = Config.vendorKey) :
    exec (.jtagVendorToken ⟨some g⟩) s = .next { s with sec := { s.sec with debug := true } } := by
  change execJtagVendorToken ⟨some g⟩ s = _
  exact if_pos (by simp [hlcs, hkey])

/-! ## Evidence -/

theorem evidenceRecord_ne_nil (s : State) (nonce : Bytes) (ts : List Tenant) (asig : Bytes) : evidenceRecord s nonce ts asig ≠ [] := by
  refine List.append_ne_nil_of_right_ne_nil _ (List.ne_nil_of_length_pos ?_)
  rw [cut_length]
  decide

/-- The evidence that a mailbox has asked for stands until the next (R491). -/
def withEvidence (s : State) (b : Box) (nonce v : Bytes) : State :=
  { s with sec := { s.sec with evidence := putBy (fun e => e.box == b) ⟨b, nonce, v⟩ s.sec.evidence } }

theorem exec_evidenceGet_record (h : Accepted 0x0140 .both (fun _ => 0x28) c s s1 r) (hrole : boxRole s1 c.box = some .owner)
    (hpart : fld r.body 0x20 1 = 0) (hscope : fld r.body 0x21 1 = 2 ∨ fld r.body 0x21 1 = 0) (hpad : fld r.body 0x23 1 = 0)
    (hoff : fld r.body 0x24 4 = 0) (asig : Bytes) {v : Bytes}
    (hv : v = evidenceRecord s1 (cut r.body 0 32) (if fld r.body 0x21 1 = 2 then s1.own.tenants else []) asig) :
    exec (.evidenceGet c asig) s = .next (answered (withEvidence s1 c.box (cut r.body 0 32) v)
      c stOK (u32 v.length ++ u32 (v.take 4000).length ++ v.take 4000)) := by
  have hsome : v ≠ [] := hv ▸ evidenceRecord_ne_nil _ _ _ _
  have hnot1 : fld r.body 0x21 1 ≠ 1 := by omega
  have hmost : fld r.body 0x21 1 ≤ 2 := by omega
  refine exec_of_reply rfl h ((if_neg ?_).trans ((if_neg hnot1).trans ((if_pos hpart).trans ((if_pos hoff).trans ?_))))
  · simp [hpart, hpad, hrole, Nat.not_lt.2 hmost]
  · simp only [← hv]
    refine (if_neg ?_).trans ?_
    · simpa [hoff] using hsome
    · simp only [hoff, List.drop_zero]
      rfl

end

/-! ## The Clove save -/

section
variable {s : State}

/-- One stack sleeps: a step of the save (R569). -/
def sleepStack (s : State) (i : Nat) : State := setStack s { stackOf s (i + 1) with selfRefresh := true, srSince := s.now }

theorem sleepStacks_change (is : List Nat) (s : State) : ∃ ks, is.foldl sleepStack s = { s with mem.stks := ks } := by
  refine List.foldlRecOn is sleepStack (motive := fun t => ∃ ks, t = { s with mem.stks := ks }) ⟨s.mem.stks, rfl⟩ ?_
  rintro t ⟨ks, rfl⟩ i -
  exact ⟨_, rfl⟩

/-- Steps 1 to 4 of the save: the link falls, engines, sequencers and movers halt, the stacks but the first sleep (R569). -/
def saveHalted (s : State) : State :=
  (List.range 17).foldl sleepStack
    { haltMovers (dropFlight (dropLink { s with pw.boot := .saving, pw.saveAct := true })) with
      pw := { (haltMovers (dropFlight (dropLink { s with pw.boot := .saving, pw.saveAct := true }))).pw with pstate := 0 } }

theorem saveHalted_keeps (s : State) :
    (saveHalted s).pw = { s.pw with boot := .saving, saveAct := true, pstate := 0 } ∧ (saveHalted s).fl.areaA = s.fl.areaA ∧
    (saveHalted s).fl.areaB = s.fl.areaB ∧ (saveHalted s).sq.seqs = s.sq.seqs := by
  obtain ⟨c, o, p, hl⟩ := dropLink_changes { s with pw.boot := .saving, pw.saveAct := true }
  obtain ⟨rs, fs, xs, lg, gs, hm⟩ := haltMovers_changes (dropFlight (dropLink { s with pw.boot := .saving, pw.saveAct := true }))
  unfold saveHalted
  obtain ⟨ks, hk⟩ := sleepStacks_change (List.range 17)
    { haltMovers (dropFlight (dropLink { s with pw.boot := .saving, pw.saveAct := true })) with
      pw := { (haltMovers (dropFlight (dropLink { s with pw.boot := .saving, pw.saveAct := true }))).pw with pstate := 0 } }
  rw [hk, hm, hl]
  exact ⟨rfl, rfl, rfl, rfl⟩

/-- With an erased area the image is written into it, without its commit pages (R568, R569). -/
theorem cloveSave_erased (hrestored : s.pw.restored = true) (harea : s.fl.areaA.erased = true) (dur : Nat) :
    ∃ g, (cloveSave s dur).fl.areaA = ⟨false, some g⟩ ∧ g.commit = false ∧ g.seqs = s.sq.seqs ∧
      (cloveSave s dur).pw.boot = .saving ∧ (cloveSave s dur).pw.saveAct = true := by
  obtain ⟨hpw, hA, hB, hseqs⟩ := saveHalted_keeps s
  have hwrite : cloveSave s dur = { (saveImage (saveHalted s) dur).2 with
      fl := { (saveImage (saveHalted s) dur).2.fl with areaA := ⟨false, some (saveImage (saveHalted s) dur).1⟩ } } := by
    refine (if_neg ?_).trans (if_pos ?_)
    · change ¬ ((!(saveHalted s).pw.restored || (!(saveHalted s).fl.areaA.erased && !(saveHalted s).fl.areaB.erased)) = true)
      simp [hpw, hA, hrestored, harea]
    · exact (congrArg SaveArea.erased hA).trans harea
  rw [hwrite]
  refine ⟨_, rfl, rfl, hseqs, ?_, ?_⟩
  · exact congrArg PowerSt.boot hpw
  · exact congrArg PowerSt.saveAct hpw

/-- Without an erased area, or before a restore, nothing is written (R570; for the second case log entry 76). -/
theorem cloveSave_unwritten (h : s.pw.restored = false ∨ (s.fl.areaA.erased = false ∧ s.fl.areaB.erased = false)) (dur : Nat) :
    (cloveSave s dur).fl.areaA = s.fl.areaA ∧ (cloveSave s dur).fl.areaB = s.fl.areaB ∧ (cloveSave s dur).pw.boot = .saved ∧
    (cloveSave s dur).pw.saveDone = true ∧ (cloveSave s dur).pw.save.last = 2 := by
  obtain ⟨hpw, hA, hB, -⟩ := saveHalted_keeps s
  have hend : cloveSave s dur =
      saveEnd ((saveHalted s).at ((saveHalted s).now + dur)) 2 (saveHalted s).pw.save.area dur := by
    refine if_pos ?_
    change (!(saveHalted s).pw.restored || (!(saveHalted s).fl.areaA.erased && !(saveHalted s).fl.areaB.erased)) = true
    rcases h with hno | ⟨ha, hb⟩
    · simp [hpw, hno]
    · simp [hA, hB, ha, hb]
  rw [hend]
  exact ⟨hA, hB, rfl, rfl, rfl⟩

theorem exec_cloveSave_savable (h : savable s = true) (ns : Nat) :
    exec (.cloveSave ns) s = .next (cloveSave { s with pw := { s.pw with pwrfailLow := true } } ns) := by
  change execCloveSave ns s = _
  exact if_pos h

theorem exec_saveCommit_saving (hb : s.pw.boot = .saving) {g : SaveImage} {b : Bool} (hg : savingImage s = some (g, b)) :
    ∃ t, exec .saveCommit s = .next t ∧ t.pw.boot = .saved ∧ t.pw.saveAct = false ∧ t.pw.saveDone = true ∧ t.pw.save.last = 1 ∧
      (if b then t.fl.areaB else t.fl.areaA) = ⟨false, some { g with commit := true }⟩ := by
  refine ⟨saveCommit s, ?_, ?_⟩
  · change execSaveCommit s = _
    exact if_pos (by simp [hb])
  · cases b <;> simp [saveCommit, hg, saveEnd]

theorem exec_refclkLoss_savable (h : savable s = true) {s1 : State} (hs1 : s1 = { s with pw := { s.pw with refclk := false } }) :
    exec .refclkLoss s = .next (cloveSave (s1.word).2 ((s1.word).1 % (40 * 10 ^ 6 + 1))) := by
  subst hs1
  change execRefclkLoss s = _
  exact if_pos h

/-! ## Fail-stop -/

theorem setBand_changes (s : State) (b : Nat) : ∃ n qs h, setBand s b = { s with nuc := n, port.queues := qs, hl := h } ∧ h.band = b := by
  unfold setBand
  split
  · next h => exact ⟨s.nuc, s.port.queues, s.hl, rfl, h.symm⟩
  · obtain ⟨ys, qs, h⟩ := raise_changes { s with hl.band := b, hl.bandSince := s.now, hl.better := none } 8 (u8 s.hl.band ++ u8 b)
    exact ⟨_, _, _, h, rfl⟩

/-- Fail-stop drives its pins, records its cause, and ends the link and the band FAILED (R537). -/
theorem failStop_state (s : State) (f : FailRegs) :
    (failStop s f).pw.boot = .failStop ∧ (failStop s f).pw.failN = true ∧ (failStop s f).pw.fail = f ∧ (failStop s f).hl.band = 3 ∧
    (failStop s f).port.link = false := by
  obtain ⟨n, qs, h, hband, h3⟩ := setBand_changes (dropLink s) 3
  obtain ⟨rs, fs, xs, lg, gs, hm⟩ := haltMovers_changes (dropFlight (setBand (dropLink s) 3))
  obtain ⟨ks, hk⟩ := allSelfRefresh_changes (logErr (haltMovers (dropFlight (setBand (dropLink s) 3)))
    { recno := 0, time := 0, cls := 3, source := fatalSource f.code, code := f.code,
      loctype := if f.code = 2 then 0 else 3, loc := if f.code = 2 then f.npa else 0 })
  have hlink := dropLink_port_link s
  simp only [failStop, hk]
  rw [hm, hband]
  exact ⟨trivial, trivial, trivial, h3, hlink⟩

theorem exec_failStop_on (hoff : s.pw.boot ≠ .off) (hstop : s.pw.boot ≠ .failStop) (hvoid : s.pw.boot ≠ .void) (cause : FailCause) :
    exec (.failStop cause) s = .next (failStop s (failRegs cause)) := by
  change execFailStop cause s = _
  unfold execFailStop
  split
  · next h => exact absurd h hoff
  · next h => exact absurd h hstop
  · next h => exact absurd h hvoid
  · rfl

end

/-! ## COLD_RESTORE -/

theorem upAgain_restored (s : State) : (upAgain s).pw.restored = true := by simp [upAgain]

theorem exec_coldRestore_booting {s : State} (h : s.pw.boot = .booting) (v : SaveVerdict) :
    exec (.coldRestore v) s = .next (coldRestore s v) := by
  change execColdRestore v s = _
  exact if_pos (by simp [h])

/-! ## Mace and zeroing -/

section
variable {s : State} {b : Nat} (hb : b < 9216)

include hb in
theorem exec_maceT1Frame_walks (hon : s.hl.maceT1 = true) (hbreak : atBreak s b = true) (hwalk : walkAt s b < 40960) (e : FrameEnv) :
    exec (.maceT1Frame b e) s = .next (passStep (maceFrame s b (walkAt s b) e) b (walkAt s b)) := by
  change execMaceT1Frame b e s = _
  exact (if_pos hb).trans (if_pos (by simp [hon, hbreak, frameCount, hwalk]))

include hb in
theorem exec_maceRepair_queued {r : Repair} (hr : (s.hl.repairs.find? fun r => r.bank == b) = some r) (hbreak : atBreak s b = true) :
    exec (.maceRepair b) s = .next (maceFrame s b r.frame cleanFrame) := by
  change execMaceRepair b s = _
  refine (if_pos hb).trans ?_
  rw [hr]
  exact if_pos hbreak

include hb in
theorem exec_bankRetirement_turn (hs : serves s = true) {r : Retiring} (hr : retiresNow s b = some r) (hbreak : atBreak s b = true) :
    exec (.bankRetirement b) s = .next (retireBank s r) := by
  change execBankRetirement b s = _
  refine (if_pos hb).trans ((if_neg (by simp [hs])).trans ?_)
  rw [hr]
  exact congrArg Host.Outcome.next (if_pos hbreak)

theorem exec_backgroundZeroing_serving (hs : serves s = true) (t : Nat) : exec (.backgroundZeroing t) s = .next
    (dropTenant (reapColls (reapSeqs ((s.mem.freed.filter fun x => x.tenant == t && canZero s x).foldl zeroRun s))) t) := by
  change execBackgroundZeroing t s = _
  exact if_pos hs

theorem exec_healthSample_serving (hs : serves s = true) : exec .healthSample s = .next (healthSample s) := by
  change execHealthSample s = _
  exact if_pos hs

end

/-! ## The health score -/

theorem setBand_score (s : State) (b : Nat) : (setBand s b).hl.score = s.hl.score ∧ (setBand s b).hl.band = b := by
  unfold setBand
  split
  · next h => exact ⟨rfl, h.symm⟩
  · obtain ⟨ys, qs, h⟩ := raise_changes { s with hl.band := b, hl.bandSince := s.now, hl.better := none } 8 (u8 s.hl.band ++ u8 b)
    rw [h]
    exact ⟨rfl, rfl⟩

/-- The band follows a score of `h` (R533). -/
def followBand (s : State) (h : Nat) : State :=
  if s.hl.band = 3 then s
  else if bandOf h > s.hl.band then setBand s (bandOf h)
  else if s.hl.band = 0 || h + 50 > bandThreshold s.hl.band then { s with hl.better := none }
  else
    let since := s.hl.better.getD s.now
    if s.now ≥ since + 3600 * 10 ^ 9 then setBand s (bandOf h) else { s with hl.better := some since }

/-- What a sample keeps of the band, its better score's time and the clock when it has counted its score. -/
theorem healthSample_eq (s : State) : ∃ u h, healthSample s = followBand u h ∧ u.hl.score = h ∧ h ≤ 1000 ∧ u.hl.band = s.hl.band ∧
    u.hl.better = s.hl.better ∧ u.now = s.now :=
  ⟨_, _, rfl, rfl, Nat.min_le_left .., rfl, rfl, rfl⟩

theorem followBand_score (s : State) (h : Nat) : (followBand s h).hl.score = s.hl.score := by
  unfold followBand
  dsimp only
  split
  · rfl
  split
  · exact (setBand_score ..).1
  split
  · rfl
  split
  · exact (setBand_score ..).1
  · rfl

/-- FAILED stays; a worse band comes at once. -/
theorem followBand_band (s : State) (h : Nat) : (s.hl.band = 3 → (followBand s h).hl.band = 3) ∧
    (s.hl.band < 3 → bandOf h ≤ (followBand s h).hl.band) := by
  unfold followBand
  dsimp only
  split
  next h3 => exact ⟨fun _ => h3, fun hlt => by omega⟩
  next h3 =>
  refine ⟨fun h => absurd h h3, fun _ => ?_⟩
  have hset (u : State) : bandOf h ≤ (setBand u (bandOf h)).hl.band := Nat.le_of_eq (setBand_score ..).2.symm
  split
  · exact hset s
  next hup =>
  split
  · exact Nat.not_lt.1 hup
  split
  · exact hset s
  · exact Nat.not_lt.1 hup

/-- A better band comes only when the score has been better for 3,600 s. -/
theorem followBand_better {s : State} {h : Nat} (hless : (followBand s h).hl.band < s.hl.band) :
    ∃ since, s.hl.better = some since ∧ since + 3600 * 10 ^ 9 ≤ s.now := by
  unfold followBand at hless
  dsimp only at hless
  split at hless
  · exact absurd hless (Nat.lt_irrefl _)
  split at hless
  · rw [(setBand_score ..).2] at hless
    omega
  split at hless
  · exact absurd hless (Nat.lt_irrefl _)
  split at hless
  next hlong =>
    cases hbetter : s.hl.better with
    | none =>
      rw [hbetter, Option.getD_none] at hlong
      omega
    | some since =>
      rw [hbetter, Option.getD_some] at hlong
      exact ⟨since, rfl, hlong⟩
  · exact absurd hless (Nat.lt_irrefl _)

/-! ## The error log -/

theorem logErr_errs_length {s : State} (e : ErrRec) (h : s.hl.errs.length ≤ 1048576) : (logErr s e).hl.errs.length ≤ 1048576 := by
  simp only [logErr]
  split
  · next hroom => simp; omega
  · next hfull => simp; omega

theorem logErr_errs_getLast? (s : State) (e : ErrRec) :
    (logErr s e).hl.errs.getLast? = some { e with recno := s.hl.nextRec, time := s.clock.now } := by
  simp only [logErr, List.getLast?_append, List.getLast?_singleton, Option.some_or]
  rfl

end Sys2Proof.Machine
end

section

namespace Sys2Proof.Machine

/-- Settles O18, operation by operation. That RETURN reboots as a warm reset does, without a reply, is log entry 29. -/
theorem lifeCycleOperations : Obligations.LifeCycleOperations := by
  refine ⟨fun c s s1 r h hop hpad => exec_lifecycleNonce_draws h hop hpad,
    fun c sig s s1 r h hop hheld hlcs hsig => exec_lifecycleField_test h hop hheld hlcs hsig,
    fun c s s1 r h hop hheld hlcs hroot hbox hpad => exec_ownerClaim_unowned h hop hheld hlcs hroot hbox hpad,
    fun c sig s s1 r h hop hheld hlcs => ?record,
    fun c osig vsig s s1 r h hop hheld hlcs htenants hosig hvsig => exec_lifecycleReturn_field h hop hheld hlcs htenants hosig hvsig,
    fun c sig s s1 r h hop hheld hlcs hsig => exec_lifecycleVoid_signed h hop hheld hlcs hsig,
    fun g s hlcs hkey => exec_jtagVendorToken_returned hlcs hkey⟩
  intro v root hmagic hpad hseq howner hsig
  exact exec_ownerRecord_newer h hop hheld hlcs rfl rfl hmagic hpad hseq howner hsig

/-- Settles O19: the record is not empty, so its first part is answered. -/
theorem evidenceIsBuiltAndAnswered : Obligations.EvidenceIsBuiltAndAnswered := by
  intro c asig s s1 r h hrole hpart hscope hpad hoff ts v
  exact exec_evidenceGet_record h hrole hpart hscope hpad hoff asig rfl

/-- Settles O36: whatever a restore does, firmware is up again at its end. -/
theorem restoredNodeRuns : Obligations.RestoredNodeRuns := fun v s hb =>
  ⟨coldRestore s v, exec_coldRestore_booting hb v, rfl, upAgain_boot _, upAgain_restored _, serves_of_running (upAgain_boot _)⟩

/-- Settles O37. That nothing is written before the node has restored is log entry 76; the length of a save that a lost reference clock
starts is a free value (log entry 30). -/
theorem savesAndFailStop : Obligations.SavesAndFailStop := by
  refine ⟨fun ns s hs => ?save, fun s g b hb hg => exec_saveCommit_saving hb hg, fun s hs => exec_refclkLoss_savable hs rfl,
    fun cause s hoff hstop hvoid => ⟨_, exec_failStop_on hoff hstop hvoid cause, failStop_state s (failRegs cause)⟩⟩
  intro s1
  exact ⟨exec_cloveSave_savable hs ns, fun hrestored harea => cloveSave_erased (s := s1) hrestored harea ns,
    fun h => cloveSave_unwritten (s := s1) h ns⟩

/-- Settles O49, row by row. That the frames are zeroed within the row is log entry 74. -/
theorem maceAndHealthRun : Obligations.MaceAndHealthRun :=
  ⟨fun _ e _ hb hon hbreak hwalk => exec_maceT1Frame_walks hb hon hbreak hwalk e,
    fun _ _ _ hb hr hbreak => exec_maceRepair_queued hb hr hbreak,
    fun _ _ _ hb hs hr hbreak => exec_bankRetirement_turn hb hs hr hbreak, fun t _ hs => exec_backgroundZeroing_serving hs t,
    fun _ hs => exec_healthSample_serving hs⟩

/-- Settles O50: a sample counts its score, capped at 1,000, and then the band follows. -/
theorem healthAndLogsAreBounded : Obligations.HealthAndLogsAreBounded := by
  refine ⟨fun s t hs ht => ?sample, fun s e h => ⟨logErr_errs_length e h, rfl, logErr_errs_getLast? s e⟩⟩
  obtain rfl : healthSample s = t := Host.Outcome.next.inj ((exec_healthSample_serving hs).symm.trans ht)
  obtain ⟨u, h, heq, hscore, hcap, hband, hbetter, hnow⟩ := healthSample_eq s
  have hcount : (followBand u h).hl.score = h := (followBand_score u h).trans hscore
  obtain ⟨hfailed, hfollows⟩ := followBand_band u h
  rw [heq, hcount, ← hband, ← hbetter, ← hnow]
  exact ⟨hcap, hfailed, hfollows, followBand_better⟩

/-- Settles O1, by the queue's own lemma. -/
theorem stepRunsFrontCommand : Obligations.StepRunsFrontCommand :=
  fun c rest s => step_front c rest { s with pending := c :: rest } rfl

end Sys2Proof.Machine
end

section
/-! SUPPORT. What leaves the security part of the state alone: one rule for each operation, in the order of the model. -/

namespace Sys2Proof.Machine

/-! ## Results that carry a state -/

/-- The security part of the state that a mailbox command's outcome carries. -/
def MailRes.sec : MailRes → SecSt
  | .reply s _ _ => s.sec
  | .wait s => s.sec
  | .silent s => s.sec

@[simp] theorem reply_sec (s st b) : (MailRes.reply s st b).sec = s.sec := rfl
@[simp] theorem wait_sec (s) : (MailRes.wait s).sec = s.sec := rfl
@[simp] theorem silent_sec (s) : (MailRes.silent s).sec = s.sec := rfl

/-- The security part of the state that an attempt to flush carries. -/
def FlushTry.sec : FlushTry → SecSt
  | .started s => s.sec
  | .held s _ => s.sec
  | .skip s => s.sec

@[simp] theorem started_sec (s) : (FlushTry.started s).sec = s.sec := rfl
@[simp] theorem held_sec (s n) : (FlushTry.held s n).sec = s.sec := rfl
@[simp] theorem skip_sec (s) : (FlushTry.skip s).sec = s.sec := rfl

section
variable {α β : Type}

/-- Names the state in a result taken apart, so that the rule of the operation that gave it applies. -/
theorem snd_sec {p : α × State} {a : α} {w : State} (h : p = (a, w)) : w.sec = p.2.sec := by rw [h]

theorem fst_sec {p : State × α} {a : α} {w : State} (h : p = (w, a)) : w.sec = p.1.sec := by rw [h]

@[simp] theorem foldl_sec (f : State → α → State) (xs : List α) (s : State) (h : ∀ s a, (f s a).sec = s.sec) :
    (xs.foldl f s).sec = s.sec :=
  foldl_keeps State.sec f h xs s

@[simp] theorem foldl_fst_sec (f : State × β → α → State × β) (xs : List α) (a : State × β) (h : ∀ a x, (f a x).1.sec = a.1.sec) :
    (xs.foldl f a).1.sec = a.1.sec :=
  List.foldlRecOn xs f (motive := fun b => b.1.sec = a.1.sec) rfl fun b hb x _ => (h b x).trans hb

@[simp] theorem foldl_snd_sec (f : β × State → α → β × State) (xs : List α) (a : β × State) (h : ∀ a x, (f a x).2.sec = a.2.sec) :
    (xs.foldl f a).2.sec = a.2.sec :=
  List.foldlRecOn xs f (motive := fun b => b.2.sec = a.2.sec) rfl fun b hb x _ => (h b x).trans hb

theorem foldl_some_sec {f : Option State → α → Option State} {xs : List α} {s w : State} (h : xs.foldl f (some s) = some w)
    (hf : ∀ a x w, f a x = some w → ∃ s, a = some s ∧ w.sec = s.sec) : w.sec = s.sec := by
  have hall : ∀ w, xs.foldl f (some s) = some w → w.sec = s.sec :=
    List.foldlRecOn xs f (motive := fun a => ∀ w, a = some w → w.sec = s.sec) (by rintro _ ⟨⟩; rfl) fun a ha x _ w hw => by
      obtain ⟨v, hv, hvw⟩ := hf a x w hw
      exact hvw.trans (ha v hv)
  exact hall w h

end

theorem AllocatesTo.sec {s t : State} (h : AllocatesTo s t) : t.sec = s.sec := by
  obtain ⟨m, q, l, rfl⟩ := h
  rfl

/-! ## Ops -/

@[simp] theorem word_sec (s) : (State.word s).2.sec = s.sec := rfl

@[simp] theorem toQueue_sec (s pcp f) : (toQueue s pcp f).sec = s.sec := by
  unfold toQueue
  split <;> simp

@[simp] theorem send_sec (s qp op tag) : (send s qp op tag).sec = s.sec := by
  unfold send
  split <;> simp

@[simp] theorem raise_sec (s code data) : (raise s code data).sec = s.sec := by simp [raise]

/-! ## Errors -/

@[simp] theorem trigger_sec (s t banks) : (trigger s t banks).sec = s.sec := rfl

@[simp] theorem trainFail_sec (s t woke) : (trainFail s t woke).sec = s.sec :=
  (foldl_sec _ _ _ fun _ _ => trigger_sec ..).trans (foldl_sec _ _ _ fun _ _ => trigger_sec ..)

@[simp] theorem setChannelLevel_sec (s c n) : (setChannelLevel s c n).sec = s.sec := rfl

@[simp] theorem overflow_sec (s channel id) : (overflow s channel id).sec = s.sec := by
  simp only [overflow]
  repeat' split
  all_goals simp

@[simp] theorem correctionEvent_sec (s b frame source symbols requester) :
    (correctionEvent s b frame source symbols requester).sec = s.sec := by
  simp only [correctionEvent]
  repeat' split
  all_goals simp

@[simp] theorem frameWritten_sec (s b frame) : (frameWritten s b frame).sec = s.sec := rfl

@[simp] theorem queueRepair_sec (s b frame) : (queueRepair s b frame).sec = s.sec := by
  unfold queueRepair
  split <;> simp

@[simp] theorem uncorrectable_sec (s b frame source requester tenant repaired lossmark object opcode slot lease) :
    (uncorrectable s b frame source requester tenant repaired lossmark object opcode slot lease).sec = s.sec := by
  simp only [uncorrectable]
  split <;> simp

@[simp] theorem bankFault_sec (s b frame opc fault tenant opcode slot lease) :
    (bankFault s b frame opc fault tenant opcode slot lease).sec = s.sec := by
  simp only [bankFault]
  repeat' split
  all_goals simp

/-! ## Banks -/

@[simp] theorem startOp_sec (s k op last e) : (startOp s k op last e).sec = s.sec := rfl

@[simp] theorem pump_sec (s b e) : (pump s b e).sec = s.sec := by
  simp only [pump]
  repeat' split
  all_goals simp

@[simp] theorem enqueue_sec (s b opc tenant d chan own) : (enqueue s b opc tenant d chan own).sec = s.sec := rfl

@[simp] theorem cutOps_sec (s drop dropPin) : (cutOps s drop dropPin).sec = s.sec := by
  simp (disch := (intros; grind [pump_sec, setBank_sec])) [cutOps]

@[simp] theorem bankSubmit_sec (opc k s) : (bankSubmit opc k s).sec = s.sec := by
  unfold bankSubmit
  split <;> simp

/-! ## Frames -/

@[simp] theorem writeCheck_sec (s b first n strength k) : (writeCheck s b first n strength k).sec = s.sec := by simp [writeCheck]

@[simp] theorem applyFlips_sec (s b f e) : (applyFlips s b f e).sec = s.sec := by
  unfold applyFlips
  refine foldl_sec _ _ _ fun s a => ?_
  repeat' split
  all_goals simp

@[simp] theorem ueMark_sec (s b f) : (ueMark s b f).sec = s.sec := rfl

@[simp] theorem readFrame_sec (s b f e requester) : (readFrame s b f e requester).2.sec = s.sec := by
  simp only [readFrame]
  repeat' split
  all_goals simp

@[simp] theorem pinWrite_sec (s b addr v) : (pinWrite s b addr v).sec = s.sec := rfl

@[simp] theorem writeFrame_sec (s b f v) : (writeFrame s b f v).sec = s.sec := by
  simp only [writeFrame]
  repeat' split
  all_goals simp

@[simp] theorem readRun_sec (s b first n e requester) : (readRun s b first n e requester).2.sec = s.sec := by
  refine foldl_snd_sec _ _ _ fun a i => ?_
  dsimp only
  repeat' split
  all_goals simp

@[simp] theorem poolRead_sec (s rs off n requester) : (poolRead s rs off n requester).2.sec = s.sec := by
  unfold poolRead
  refine foldl_snd_sec _ _ _ fun a x => ?_
  grind [readRun_sec]

@[simp] theorem poolWrite_sec (s rs off v requester) : (poolWrite s rs off v requester).sec = s.sec := by
  unfold poolWrite
  refine foldl_sec _ _ _ fun s a => ?_
  grind [pinWrite_sec, readRun_sec, writeFrame_sec]

@[simp] theorem stageWrite_sec (s l off v) : (stageWrite s l off v).sec = s.sec := by simp [stageWrite]
@[simp] theorem stepOp_sec (s b opc tenant d chan) : (stepOp s b opc tenant d chan).2.sec = s.sec := rfl

@[simp] theorem stepOps_sec (b t os s) : (stepOps b t os s).2.sec = s.sec := by
  induction os generalizing s with
  | nil => rfl
  | cons o os ih =>
    unfold stepOps
    dsimp only
    split
    · rw [ih, stepOp_sec]
    · exact stepOp_sec ..

/-! ## Results -/

@[simp] theorem guestWrite_sec (s p addr v) : (guestWrite s p addr v).sec = s.sec := by
  unfold guestWrite
  repeat' split
  all_goals simp

@[simp] theorem cellAdd_sec (s i n) : (cellAdd s i n).sec = s.sec := rfl

@[simp] theorem emit_sec (s r qp addr rkey v) : (emit s r qp addr rkey v).sec = s.sec := by
  simp only [emit]
  repeat' split
  all_goals simp

@[simp] theorem emitAdd_sec (s r qp addr rkey) : (emitAdd s r qp addr rkey).sec = s.sec := by
  simp only [emitAdd]
  repeat' split
  all_goals simp

@[simp] theorem putRecord_sec (s r rec_) : (putRecord s r rec_).sec = s.sec := by
  simp only [putRecord]
  repeat' split
  all_goals simp

@[simp] theorem complete_sec (s id status) : (complete s id status).sec = s.sec := by
  unfold complete
  repeat' split
  all_goals simp

/-! ## Views -/

@[simp] theorem identityChanged_sec (s) : (identityChanged s).sec = s.sec := rfl

theorem pickOf_sec {s xs x0 w} (h : pickOf s xs = some (x0, w)) : w.sec = s.sec := by
  unfold pickOf at h
  grind [draw_sec]

theorem pickRun_sec {s lo hi n used x0 w} (h : pickRun s lo hi n used = some (x0, w)) : w.sec = s.sec := by
  unfold pickRun at h
  grind [draw_sec]

/-! ## Net -/

@[simp] theorem post_sec (s q ext n k) : (post s q ext n k).sec = s.sec := by simp [post]
@[simp] theorem postAck_sec (s q psn) : (postAck s q psn).sec = s.sec := by simp [postAck]
@[simp] theorem postCtl_sec (s n k) : (postCtl s n k).sec = s.sec := by simp [postCtl]
@[simp] theorem postCm_sec (s k) : (postCm s k).sec = s.sec := by simp [postCm]
@[simp] theorem pullFrames_sec (s qp) : (pullFrames s qp).sec = s.sec := rfl

@[simp] theorem retransmit_sec (s qp) : (retransmit s qp).sec = s.sec := by
  unfold retransmit
  split <;> simp

@[simp] theorem endSession_sec (s qp) : (endSession s qp).sec = s.sec := rfl
@[simp] theorem bumpNoNotice_sec (s t) : (bumpNoNotice s t).sec = s.sec := rfl
@[simp] theorem bumpNoRecord_sec (s t) : (bumpNoRecord s t).sec = s.sec := rfl

@[simp] theorem abandon_sec (s m) : (abandon s m).sec = s.sec := by
  unfold abandon
  repeat' split
  all_goals simp

@[simp] theorem leaveConnected_sec (s qp st) : (leaveConnected s qp st).sec = s.sec := by
  unfold leaveConnected
  repeat' split
  all_goals simp

@[simp] theorem nakError_sec (s q psn c) : (nakError s q psn c).sec = s.sec := by simp [nakError]

@[simp] theorem acked_sec (s m) : (acked s m).1.sec = s.sec := by
  simp only [acked]
  repeat' split
  all_goals simp

/-! ## Mail -/

@[simp] theorem saveCfg_sec (s) : (saveCfg s).sec = s.sec := by
  unfold saveCfg
  split <;> simp

@[simp] theorem boxPut_sec (s b m) : (boxPut s b m).sec = s.sec := by
  unfold boxPut
  split <;> simp

@[simp] theorem boxArm_sec (s b word) : (boxArm s b word).sec = s.sec := by
  simp only [boxArm]
  repeat' split
  all_goals simp

@[simp] theorem settleSession_sec (s b) : (settleSession s b).sec = s.sec := by
  unfold settleSession
  repeat' split
  all_goals simp

theorem mailTake_sec {s c code w x1} (h : mailTake s c code = some (w, x1)) : w.sec = s.sec := by
  unfold mailTake at h
  grind [boxArm_sec, boxPut_sec, settleSession_sec]

@[simp] theorem mailReply_sec (s b status body) : (mailReply s b status body).sec = s.sec := by
  simp only [mailReply]
  repeat' split
  all_goals simp

@[simp] theorem boxWord_sec (s b word) : (boxWord s b word).sec = s.sec := by
  simp only [boxWord]
  repeat' split
  all_goals simp

@[simp] theorem mailBegun_sec (s b) : (mailBegun s b).sec = s.sec := by
  unfold mailBegun
  split <;> simp

theorem mailRow_sec_or (code k need h c s) : (mailRow code k need h c s).sec = s.sec ∨
    ∃ x b u, u.sec = s.sec ∧ (mailRow code k need h c s).sec = (h x b u).sec := by
  unfold mailRow
  split
  · exact .inl rfl
  split
  · exact .inl rfl
  next u r htake =>
  have hu := mailTake_sec htake
  dsimp only
  split
  · simpa using .inl hu
  · refine .inr ⟨⟨c.box, (boxQp u c.box).getD 0, boxRole u c.box⟩, r.body, u, hu, ?_⟩
    split <;> simp [*]

@[simp] theorem mailRow_sec {code k need h} (hh : ∀ x b s, (h x b s).sec = s.sec) (c s) :
    (mailRow code k need h c s).sec = s.sec := by
  obtain hrow | ⟨x, b, u, hu, hrow⟩ := mailRow_sec_or code k need h c s
  · exact hrow
  · rw [hrow, hh, hu]

@[simp] theorem mailRowIf_sec {p code k need h} (hh : ∀ x b s, (h x b s).sec = s.sec) (c s) :
    (mailRowIf p code k need h c s).sec = s.sec := by
  unfold mailRowIf
  split
  · rfl
  · split
    · exact mailRow_sec hh c s
    · rfl

@[simp] theorem withTenant_sec {s t f} (hf : ∀ k, (f k).sec = s.sec) : (withTenant s t f).sec = s.sec := by
  unfold withTenant
  split
  · rfl
  · split
    · rfl
    · exact hf _

/-! ## Sessions -/

@[simp] theorem openSession_sec (sig x b s) : (openSession sig x b s).sec = s.sec := by
  simp only [openSession]
  repeat' split
  all_goals simp

@[simp] theorem startConnect_sec (s qpn) : (startConnect s qpn).sec = s.sec := by
  simp only [startConnect]
  repeat' split
  all_goals simp

theorem freeQpn_sec {s x0 w} (h : freeQpn s = some (x0, w)) : w.sec = s.sec := by
  unfold freeQpn at h
  grind [→ pickRun_sec]

theorem openQp_sec {s use addr node sig x0 w} (h : openQp s use addr node sig = some (x0, w)) : w.sec = s.sec := by
  unfold openQp at h
  grind [draw_sec, → freeQpn_sec, startConnect_sec]

/-! ## Link -/

@[simp] theorem leaveLocked_sec (s) : (leaveLocked s).sec = s.sec := by
  unfold leaveLocked
  split <;> simp

@[simp] theorem enterLocked_sec (s) : (enterLocked s).sec = s.sec := rfl
@[simp] theorem postPtp_sec (s k) : (postPtp s k).sec = s.sec := by simp [postPtp]

@[simp] theorem dropLink_sec (s) : (dropLink s).sec = s.sec := by
  unfold dropLink
  split <;> simp

@[simp] theorem resolved_sec (s ip mac) : (resolved s ip mac).sec = s.sec := by
  unfold resolved
  split <;> simp

@[simp] theorem retryQp_sec (s q) : (retryQp s q).sec = s.sec := by
  unfold retryQp
  split <;> simp

/-! ## Egress -/

@[simp] theorem transmit_sec (s i top) : (transmit s i top).sec = s.sec := by
  simp only [transmit]
  repeat' split
  all_goals simp

@[simp] theorem egressNext_sec (s) : (egressNext s).sec = s.sec := by
  simp only [egressNext]
  repeat' split
  all_goals simp

@[simp] theorem dropLong_sec (s) : (dropLong s).sec = s.sec := rfl

@[simp] theorem beginList_sec (s) : (beginList s).sec = s.sec := by
  unfold beginList
  split <;> simp

@[simp] theorem funcRow_sec {code f g} (hg : ∀ s, (g s).sec = s.sec) (c s) : (funcRow code f g c s).sec = s.sec := by
  refine mailRowIf_sec (fun x b s => ?_) c s
  repeat' split
  all_goals simp [hg]

/-! ## Keys -/

@[simp] theorem macsecRow_sec {op h} (hh : ∀ b s, (h b s).sec = s.sec) (c s) : (macsecRow op h c s).sec = s.sec := by
  refine mailRowIf_sec (fun x b s => ?_) c s
  repeat' split
  all_goals simp [hh]

@[simp] theorem keyInstall_sec (sig key b s) : (keyInstall sig key b s).sec = s.sec := by
  unfold keyInstall
  split
  · rfl
  refine withTenant_sec fun k => ?_
  dsimp only
  repeat' split
  all_goals simp

/-! ## Sideband -/

@[simp] theorem sbSend_sec (s m) : (sbSend s m).sec = s.sec := rfl
@[simp] theorem vendorReply_sec (s cmd tag status addr data) : (vendorReply s cmd tag status addr data).sec = s.sec := rfl
@[simp] theorem clearEvlost_sec (s) : (clearEvlost s).sec = s.sec := rfl
@[simp] theorem flushEvents_sec (s) : (flushEvents s).sec = s.sec := rfl

@[simp] theorem ackFail_sec (s) : (ackFail s).sec = s.sec := by
  unfold ackFail
  split <;> simp

/-! ## Health -/

@[simp] theorem noteSave_sec (s) : (noteSave s).sec = s.sec := rfl

@[simp] theorem setBand_sec (s b) : (setBand s b).sec = s.sec := by
  unfold setBand
  split <;> simp

@[simp] theorem healthSample_sec (s) : (healthSample s).sec = s.sec := by
  simp only [healthSample]
  repeat' split
  all_goals simp

@[simp] theorem stackReading_sec (s i temps) : (stackReading s i temps).sec = s.sec := by
  simp only [stackReading]
  repeat' split
  all_goals simp

@[simp] theorem dieReading_sec (s t) : (dieReading s t).sec = s.sec := rfl

@[simp] theorem appStep_sec (s watts) : (appStep s watts).sec = s.sec := by
  simp only [appStep]
  repeat' split
  all_goals simp

@[simp] theorem powerLimit_sec (b s) : (powerLimit b s).sec = s.sec := by
  unfold powerLimit
  dsimp only
  split
  · rfl
  · simp only [reply_sec]
    rw [foldl_sec]
    intro s i
    rw [setStack_sec]

/-! ## Tiers -/

@[simp] theorem setSealBase_sec (s b) : (setSealBase s b).sec = s.sec := by
  simp only [setSealBase]
  split <;> simp

@[simp] theorem freeRegion_sec (s r) : (freeRegion s r).sec = s.sec := rfl

@[simp] theorem freeSpanFrames_sec (s x) : (freeSpanFrames s x).sec = s.sec := by
  unfold freeSpanFrames
  split <;> simp

@[simp] theorem evict_sec (s x) : (evict s x).sec = s.sec := by simp [evict]

@[simp] theorem evictUntil_sec (ok xs s) : (evictUntil ok xs s).sec = s.sec := by
  induction xs generalizing s with
  | nil => rfl
  | cons x xs ih =>
    unfold evictUntil
    split
    · rfl
    · rw [ih, evict_sec]

@[simp] theorem zeroRun_sec (s x) : (zeroRun s x).sec = s.sec := by
  unfold zeroRun
  split <;> simp

@[simp] theorem zeroAll_sec (s) : (zeroAll s).sec = s.sec := by simp [zeroAll]

theorem placeIn_sec {s t n strength use owner banks r w} (h : placeIn s t n strength use owner banks = some (r, w)) :
    w.sec = s.sec :=
  (placeIn_allocatesTo h).sec

theorem allocate_sec {s t n strength use owner banks r w} (h : allocate s t n strength use owner banks = some (r, w)) :
    w.sec = s.sec :=
  (fit_allocatesTo (p := Prod.snd) (fun _ _ ha => placeIn_allocatesTo ha) h).sec

theorem allocatePool_sec {s t n strength use owner w} (h : allocatePool s t n strength use owner = some w) : w.sec = s.sec :=
  (allocatePool_allocatesTo h).sec

@[simp] theorem starved_sec (s t) : (starved s t).sec = s.sec := by simp [starved]
@[simp] theorem freeOwned_sec (s use t owner) : (freeOwned s use t owner).sec = s.sec := foldl_sec _ _ _ freeRegion_sec

@[simp] theorem readPage_sec (s x p e requester) : (readPage s x p e requester).2.sec = s.sec := by
  simp only [readPage]
  repeat' split
  all_goals simp

@[simp] theorem writePage_sec (s x p v) : (writePage s x p v).sec = s.sec := by
  simp only [writePage]
  repeat' split
  all_goals simp

@[simp] theorem storeSk_sec (s x p sk) : (storeSk s x p sk).sec = s.sec := by simp [storeSk]

@[simp] theorem tagNew_sec (s x) : (tagNew s x).sec = s.sec := by
  unfold tagNew
  split <;> simp (disch := (intros; grind [t1Write_sec]))

/-! ## T2 -/

@[simp] theorem setSeg_sec (s x) : (setSeg s x).sec = s.sec := rfl

theorem placeOn_sec {s g use i n x0 x1 w} (h : placeOn s g use i n = some (x0, x1, w)) : w.sec = s.sec := by
  unfold placeOn at h
  grind [setSeg_sec]

theorem place_sec {s reloc n x y w} (h : place s reloc n = some (x, y, w)) : w.sec = s.sec := by
  unfold place at h
  split at h
  · cases h
  · obtain ⟨k, -, hk⟩ := List.exists_of_findSome?_eq_some h
    grind [→ placeOn_sec]

theorem logAppend_sec {s reloc typ block obj gen payload ver x0 w} (h : logAppend s reloc typ block obj gen payload ver = some (x0, w)) :
    w.sec = s.sec := by
  unfold logAppend at h
  grind [→ place_sec]

@[simp] theorem setObj_sec (s v) : (setObj s v).sec = s.sec := rfl

theorem publishVer_sec {s v w} (h : publishVer s v = some w) : w.sec = s.sec := by
  unfold publishVer at h
  grind [→ logAppend_sec, setObj_sec]

@[simp] theorem deleteObj_sec (s idx) : (deleteObj s idx).sec = s.sec := by
  unfold deleteObj
  grind [→ logAppend_sec]

@[simp] theorem freeFlash_sec (s x) : (freeFlash s x).sec = s.sec := by
  unfold freeFlash
  split <;> simp

@[simp] theorem holdT2_sec (s t cause blk) : (holdT2 s t cause blk).sec = s.sec := by
  unfold holdT2
  repeat' split
  all_goals simp

theorem takeCtr_sec {s t x0 w} (h : takeCtr s t = some (x0, w)) : w.sec = s.sec := by
  unfold takeCtr at h
  grind [mapTenant_sec, raise_sec]

@[simp] theorem countReads_sec (s v i) : (countReads s v i).sec = s.sec := by
  unfold countReads
  repeat' split
  all_goals simp

@[simp] theorem readBlock_sec (s v i e) : (readBlock s v i e).2.sec = s.sec := by simp [readBlock]
@[simp] theorem releaseHold_sec (s t blk) : (releaseHold s t blk).sec = s.sec := rfl

@[simp] theorem blockLost_sec (s v i level requester opcode slot lease) :
    (blockLost s v i level requester opcode slot lease).sec = s.sec := by
  simp only [blockLost]
  repeat' split
  all_goals simp

@[simp] theorem installBytes_sec (s x c blk) : (installBytes s x c blk).sec = s.sec := by
  simp (disch := (intros; split <;> simp)) [installBytes]

theorem installPlace_sec {s x x0 w} (h : installPlace s x = some (x0, w)) : w.sec = s.sec := by
  unfold installPlace at h
  grind [→ allocate_sec]

@[simp] theorem unstore_sec (s k id) : (unstore s k id).sec = s.sec := by
  unfold unstore
  split <;> simp

/-! ## Log -/

theorem ckWrite_sec {n a1 a2 w} (h : ckWrite n a1 a2 = some w) : w.sec = a2.sec := by fun_induction ckWrite <;> grind [→ logAppend_sec]

@[simp] theorem mapCheckpoint_sec (s) : (mapCheckpoint s).sec = s.sec := by
  unfold mapCheckpoint
  grind [→ ckWrite_sec]

@[simp] theorem flashFault_sec (s loc tenant) : (flashFault s loc tenant).sec = s.sec := rfl

@[simp] theorem eraseDone_sec (s g x ok) : (eraseDone s g x ok).sec = s.sec := by
  unfold eraseDone
  grind [flashFault_sec, → pickOf_sec, setSeg_sec]

theorem relocBlocks_sec {which bs s cs m w} (h : relocBlocks which bs s = some (cs, m, w)) : w.sec = s.sec := by
  induction bs generalizing s cs m w with
  | nil => cases h; rfl
  | cons b bs ih =>
    unfold relocBlocks at h
    dsimp only at h
    split at h
    · cases h
    next hone =>
    split at h
    · cases h
    next hrest =>
    cases h
    refine (ih hrest).trans ?_
    grind [logAppend_sec]

theorem relocObj_sec {s v which w} (h : relocObj s v which = some w) : w.sec = s.sec := by
  unfold relocObj at h
  split at h
  · cases h
  next hblocks =>
  refine Eq.trans ?_ (relocBlocks_sec hblocks)
  dsimp only at h
  grind [logAppend_sec, setObj_sec]

@[simp] theorem relocAll_sec (s which) : (relocAll s which).sec = s.sec := by
  refine foldl_sec _ _ _ fun s v => ?_
  split
  · rfl
  · cases hr : relocObj s v which with
    | none => rfl
    | some w => exact relocObj_sec hr

@[simp] theorem collect_sec (s g) : (collect s g).sec = s.sec := by
  simp only [collect]
  repeat' split
  all_goals simp

theorem reclaim_sec {s w} (h : reclaim s = some w) : w.sec = s.sec := by
  unfold reclaim at h
  grind [collect_sec]

theorem reclaimNow_sec {s w} (h : reclaimNow s = some w) : w.sec = s.sec := by
  unfold reclaimNow at h
  split at h
  · next hreclaim =>
    obtain ⟨x, -, rfl⟩ := Option.map_eq_some_iff.1 h
    simpa using reclaim_sec hreclaim
  · cases h

theorem storeChunks_sec {v cs acc s bs w} (h : storeChunks v cs acc s = some (bs, w)) : w.sec = s.sec := by
  induction cs generalizing acc s with
  | nil => cases h; rfl
  | cons x xs ih =>
    unfold storeChunks at h
    dsimp only at h
    split at h
    · cases h
    next hctr =>
    split at h
    · cases h
    next hlog =>
    exact (ih h).trans ((logAppend_sec hlog).trans (takeCtr_sec hctr))

theorem writeObject_sec {t k id body bytes digest s w} (h : writeObject t k id body bytes digest s = some w) : w.sec = s.sec := by
  unfold writeObject at h
  dsimp only at h
  split at h
  · cases h
  next hchunks =>
  exact ((publishVer_sec h).trans (storeChunks_sec hchunks) :)

theorem afterCollect_sec {write : State → Option State} (hw : ∀ {s w}, write s = some w → w.sec = s.sec) {n s w}
    (h : afterCollect write n s = some w) : w.sec = s.sec := by
  induction n generalizing s with
  | zero => exact hw h
  | succ n ih =>
    unfold afterCollect at h
    grind [→ reclaimNow_sec]

theorem storeObject_sec {s t k id body bytes digest w} (h : storeObject s t k id body bytes digest = some w) : w.sec = s.sec := by
  unfold storeObject at h
  split at h
  · next hs _ =>
    split at h
    · cases h
      exact afterCollect_sec writeObject_sec hs
    · cases h
  · cases h

/-! ## Reqs -/

@[simp] theorem withdraw_sec (s id) : (withdraw s id).sec = s.sec := by simp [withdraw]
@[simp] theorem setSpace_sec (s t n) : (setSpace s t n).sec = s.sec := rfl
@[simp] theorem freeSpace_sec (s r) : (freeSpace s r).sec = s.sec := rfl

@[simp] theorem resPut_sec (s r off v) : (resPut s r off v).sec = s.sec := by
  unfold resPut
  split <;> simp

@[simp] theorem mfWrite_sec (s r) : (mfWrite s r).sec = s.sec := by
  simp only [mfWrite]
  split <;> simp

@[simp] theorem wakeN_sec (n s c) : (wakeN n s c).sec = s.sec := by
  induction n generalizing s c with
  | zero => rfl
  | succ n ih =>
    refine foldl_sec _ _ _ fun s id => ?_
    dsimp only
    repeat' split
    all_goals simp [ih]

@[simp] theorem wake_sec (s c) : (wake s c).sec = s.sec := by simp [wake]

@[simp] theorem dropTenant_sec (s t) : (dropTenant s t).sec = s.sec := by
  unfold dropTenant
  repeat' split
  all_goals simp

@[simp] theorem freeTenantFrames_sec (s t) : (freeTenantFrames s t).sec = s.sec := foldl_sec _ _ _ freeRegion_sec
@[simp] theorem clearBanks_sec (s t) : (clearBanks s t).sec = s.sec := rfl

@[simp] theorem destroyDone_sec (s t box) : (destroyDone s t box).sec = s.sec := by
  simp only [destroyDone]
  repeat' split
  all_goals simp

@[simp] theorem settleDestroy_sec (s t) : (settleDestroy s t).sec = s.sec := by
  unfold settleDestroy
  repeat' split
  all_goals simp

@[simp] theorem finish_sec (s id status) : (finish s id status).sec = s.sec := by
  unfold finish
  repeat' split
  all_goals simp

@[simp] theorem finishAt_sec (s id p) : (finishAt s id p).sec = s.sec := by simp [finishAt]

@[simp] theorem notifyCell_sec (s r qp addr rkey) : (notifyCell s r qp addr rkey).sec = s.sec := by
  unfold notifyCell
  split <;> simp

@[simp] theorem markLost_sec (s x p) : (markLost s x p).sec = s.sec := by
  unfold markLost
  repeat' split
  all_goals simp

theorem refetchPage_sec {s x p w} (h : refetchPage s x p = some w) : w.sec = s.sec := by
  simp only [refetchPage] at h
  repeat' split at h
  all_goals simp at h
  all_goals simp [← h]

theorem refetch_sec {s x p w} (h : refetch s x p = some w) : w.sec = s.sec := by
  obtain ⟨t, ht, rfl⟩ := Option.map_eq_some_iff.1 h
  rw [← refetchPage_sec ht]
  cases sharedPage s x p with
  | none => rfl
  | some o =>
    cases hr : refetchPage t x o with
    | none => simp [hr]
    | some u => simpa [hr] using refetchPage_sec hr

@[simp] theorem sramBad_sec (s r requester) : (sramBad s r requester).sec = s.sec := rfl

@[simp] theorem pageBad_sec (s r x p source) : (pageBad s r x p source).1.sec = s.sec := by
  unfold pageBad
  grind [markLost_sec, → refetch_sec, uncorrectable_sec]

/-! ## Trees -/

@[simp] theorem writeSlots_sec (s slot k) : (writeSlots s slot k).sec = s.sec := by simp [writeSlots]
@[simp] theorem setNode_sec (s n) : (setNode s n).sec = s.sec := by simp [setNode]
@[simp] theorem addStale_sec (s t n) : (addStale s t n).sec = s.sec := rfl

theorem takeFrames_sec {s t n owner r w} (h : takeFrames s t n owner = some (r, w)) : w.sec = s.sec := by
  obtain ⟨⟨r, u⟩, hu, heq⟩ := Option.map_eq_some_iff.1 h
  cases heq
  exact (allocate_sec hu :)

@[simp] theorem setUsed_sec (s n u) : (setUsed s n u).sec = s.sec := rfl

theorem takeSlot_sec {s t owner x0 w} (h : takeSlot s t owner = some (x0, w)) : w.sec = s.sec := by
  unfold takeSlot at h
  grind [setUsed_sec, → takeFrames_sec]

@[simp] theorem dropSlot_sec (s n) : (dropSlot s n).sec = s.sec := by simp [dropSlot]

@[simp] theorem recompute_sec (s slot) : (recompute s slot).sec = s.sec := by
  unfold recompute
  split <;> simp

@[simp] theorem recomputeUp_sec (n slot s) : (recomputeUp n slot s).sec = s.sec := by
  induction n generalizing slot s with
  | zero => rfl
  | succ n ih =>
    unfold recomputeUp
    dsimp only
    split
    · rfl
    · rw [ih, recompute_sec]

theorem descend_sec {a l h t page a5 a6 a7 a8 x0 w} (h : descend a l h t page a5 a6 a7 a8 = some (x0, w)) : w.sec = a8.sec := by
  fun_induction descend <;> grind [addStale_sec, setNode_sec, → takeSlot_sec]

theorem ensureRoot_sec {s a l h t x0 w} (h : ensureRoot s a l h t = some (x0, w)) : w.sec = s.sec := by
  unfold ensureRoot at h
  grind [addStale_sec, setNode_sec, → takeSlot_sec]

theorem treeUpdate_sec {s a l h t page sk w} (hw : treeUpdate s a l h t page sk = some w) : w.sec = s.sec := by
  unfold treeUpdate at hw
  split at hw
  · cases hw
  next hroot =>
  split at hw
  · cases hw
  next hpath =>
  refine Eq.trans ?_ ((descend_sec hpath).trans (ensureRoot_sec hroot))
  split at hw
  · cases hw
    rfl
  split at hw
  · cases hw
    rfl
  · cases hw
    simp

@[simp] theorem pinSketch_sec (s q x p r requester) : (pinSketch s q x p r requester).2.sec = s.sec := by
  unfold pinSketch
  grind [readPage_sec, storeSk_sec]

@[simp] theorem fetchSk_sec (s q x p r written) : (fetchSk s q x p r written).2.sec = s.sec := by
  unfold fetchSk
  split <;> simp

@[simp] theorem treeTrim_sec (s a l h top leaf) : (treeTrim s a l h top leaf).sec = s.sec := by
  simp only [treeTrim]
  repeat' split
  all_goals simp (disch := (intros; grind [dropSlot_sec, recompute_sec, setNode_sec]))

@[simp] theorem freeTrees_sec (s a) : (freeTrees s a).sec = s.sec := by simp [freeTrees]

@[simp] theorem spanPage_sec (s x p) : (spanPage s x p).2.sec = s.sec := by
  simp only [spanPage]
  repeat' split
  all_goals simp

@[simp] theorem sketchFor_sec (s q x p rows array) : (sketchFor s q x p rows array).2.sec = s.sec := by
  unfold sketchFor
  grind [draw_sec, spanPage_sec, storeSk_sec]

@[simp] theorem rebuildTree_sec (s q) : (rebuildTree s q).sec = s.sec := by
  unfold rebuildTree
  generalize hfold : List.foldl _ (s, true) _ = p
  have hsec : p.1.sec = s.sec := by
    rw [← hfold]
    refine foldl_fst_sec _ _ _ fun a x => foldl_fst_sec _ _ _ fun a p => ?_
    dsimp only
    split
    · rfl
    split
    · next htree => simp [treeUpdate_sec htree]
    · simp
  dsimp only
  split
  · simpa using hsec
  · exact hsec

@[simp] theorem rebuildNode_sec (s slot requester) : (rebuildNode s slot requester).2.sec = s.sec := by
  unfold rebuildNode
  split
  · dsimp only
    split
    · simp
    next htake =>
    simp only [recomputeUp_sec, dropSlot_sec]
    rw [foldl_sec _ _ _ fun s k => setNode_sec ..]
    simp only [recompute_sec, setNode_sec]
    refine Eq.trans ?_ ((takeSlot_sec htake).trans (uncorrectable_sec ..))
    split
    · refine foldl_snd_sec _ _ _ fun a i => ?_
      split <;> simp
    · rfl
  · rfl

@[simp] theorem fetchNode_sec (s slot requester) : (fetchNode s slot requester).2.sec = s.sec := by
  unfold fetchNode
  grind [readRun_sec, rebuildNode_sec]

/-! ## Attend -/

@[simp] theorem issueBank_sec (s own t x runs p) : (issueBank s own t x runs p).sec = s.sec := by
  unfold issueBank
  rw [pump_sec, enqueue_sec]
  exact (foldl_sec _ _ _ fun _ _ => enqueue_sec ..).trans (enqueue_sec ..)

theorem nextGroup_sec {s t x0 w} (h : nextGroup s t = some (x0, w)) : w.sec = s.sec := by
  unfold nextGroup at h
  split at h
  · cases h
  obtain ⟨g, -, heq⟩ := Option.map_eq_some_iff.1 h
  cases heq
  rfl

theorem groupTake_sec {s g charge w} (h : groupTake s g charge = some w) : w.sec = s.sec := by
  unfold groupTake at h
  grind

@[simp] theorem replaceJob_sec (s old new) : (replaceJob s old new).sec = s.sec := rfl
@[simp] theorem useStore_sec (s g t) : (useStore s g t).sec = s.sec := rfl

@[simp] theorem dispatchN_sec (n s g) : (dispatchN n s g).sec = s.sec := by
  induction n generalizing s with
  | zero => rfl
  | succ n ih =>
    unfold dispatchN
    dsimp only
    split
    · rfl
    split
    · rfl
    split
    · next htake => simp [ih, groupTake_sec htake]
    · rfl

@[simp] theorem dispatch_sec (s g) : (dispatch s g).sec = s.sec := by simp [dispatch]

theorem requeue_sec {s j t w} (h : requeue s j t = some w) : w.sec = s.sec := by
  unfold requeue at h
  grind [dispatch_sec, → nextGroup_sec, replaceJob_sec]

@[simp] theorem startDirect_sec (s r u p x runs) : (startDirect s r u p x runs).sec = s.sec := by
  unfold startDirect
  repeat' split
  all_goals simp

@[simp] theorem setPass_sec (s id u p f) : (setPass s id u p f).sec = s.sec := rfl

@[simp] theorem stopAt_sec (s id status) : (stopAt s id status).sec = s.sec := by
  simp only [stopAt]
  split <;> simp

@[simp] theorem stopLost_sec (s id detail) : (stopLost s id detail).sec = s.sec := by simp [stopLost]

@[simp] theorem issueArray_sec (s r u p heads x runs) : (issueArray s r u p heads x runs).sec = s.sec := by
  unfold issueArray
  grind [dispatch_sec, → nextGroup_sec, stopAt_sec]

@[simp] theorem settleStop_sec (s id) : (settleStop s id).sec = s.sec := by
  unfold settleStop
  repeat' split
  all_goals simp

@[simp] theorem issuePass_sec (s id u p) : (issuePass s id u p).sec = s.sec := by
  simp only [issuePass]
  repeat' split
  all_goals simp

@[simp] theorem fillWindow_sec (s id u) : (fillWindow s id u).sec = s.sec := by
  unfold fillWindow
  repeat' split
  all_goals simp (disch := (intros; grind [issuePass_sec]))

@[simp] theorem attendEnd_sec (s id) : (attendEnd s id).sec = s.sec := by
  simp only [attendEnd]
  repeat' split
  all_goals simp

@[simp] theorem closeUnit_sec (s id u) : (closeUnit s id u).sec = s.sec := by
  simp only [closeUnit]
  repeat' split
  all_goals simp

@[simp] theorem startUnitsN_sec (n s id) : (startUnitsN n s id).sec = s.sec := by
  induction n generalizing s with
  | zero => rfl
  | succ n ih =>
    unfold startUnitsN
    dsimp only
    repeat' split
    all_goals simp [ih]

@[simp] theorem startUnits_sec (s id) : (startUnits s id).sec = s.sec := by
  unfold startUnits
  split <;> simp

@[simp] theorem passDone_sec (s id u p parts) : (passDone s id u p parts).sec = s.sec := by
  unfold passDone
  repeat' split
  all_goals simp

@[simp] theorem passFault_sec (s id u p fault page) : (passFault s id u p fault page).sec = s.sec := by
  unfold passFault
  grind [cutOps_sec, issuePass_sec, pageBad_sec, setPass_sec, settleStop_sec, stopAt_sec, stopLost_sec]

@[simp] theorem walkTurn_sec (s w) : (walkTurn s w).1.sec = s.sec := by
  unfold walkTurn
  repeat' split
  all_goals simp

@[simp] theorem walkEnd_sec (s w x) : (walkEnd s w x).sec = s.sec := by
  simp only [walkEnd]
  repeat' split
  all_goals simp

@[simp] theorem walkRun_sec (n s ctx) : (walkRun n s ctx).sec = s.sec := by
  induction n generalizing s with
  | zero => rfl
  | succ n ih =>
    unfold walkRun
    split
    · rfl
    split
    · rfl
    split
    · next hturn => simp [fst_sec hturn]
    · next hturn => simp [ih, fst_sec hturn]

@[simp] theorem buildPaths_sec (s h) : (buildPaths s h).1.sec = s.sec := by
  unfold buildPaths
  repeat' split
  all_goals simp

theorem startWalk_sec {s r q kv w} (h : startWalk s r q kv = some w) : w.sec = s.sec := by
  unfold startWalk at h
  grind [addStale_sec, buildPaths_sec, walkRun_sec]

@[simp] theorem startWalks_sec (s id) : (startWalks s id).sec = s.sec := by
  unfold startWalks
  split <;> simp (disch := (intros; grind [→ startWalk_sec]))

@[simp] theorem attendGo_sec (s id) : (attendGo s id).sec = s.sec := by
  unfold attendGo
  repeat' split
  all_goals simp

@[simp] theorem attendQueue_sec (s id) : (attendQueue s id).sec = s.sec := by
  unfold attendQueue
  split <;> simp

@[simp] theorem attendStart_sec (s id) : (attendStart s id).sec = s.sec := by
  simp only [attendStart]
  repeat' split
  all_goals simp

@[simp] theorem mergeStart_sec (s id) : (mergeStart s id).sec = s.sec := by
  unfold mergeStart
  repeat' split
  all_goals simp

@[simp] theorem mergeTimeout_sec (s r) : (mergeTimeout s r).sec = s.sec := by
  simp only [mergeTimeout]
  split <;> simp

/-! ## Append -/

@[simp] theorem touchCopy_sec (s x p) : (touchCopy s x p).sec = s.sec := by
  unfold touchCopy
  split <;> simp

@[simp] theorem touchSpan_sec (s x) : (touchSpan s x).sec = s.sec := by simp [touchSpan]

@[simp] theorem pageDirty_sec (s x p row w) : (pageDirty s x p row w).sec = s.sec := by
  unfold pageDirty
  split <;> simp

@[simp] theorem recountRows_sec (s q l h) : (recountRows s q l h).sec = s.sec := by
  unfold recountRows
  refine foldl_sec _ _ _ fun s a => ?_
  split <;> simp

theorem newSpan_sec {s q l h i x0 w} (h : newSpan s q l h i = some (x0, w)) : w.sec = s.sec := by
  unfold newSpan at h
  grind [→ allocate_sec, publish_sec, tagNew_sec]

@[simp] theorem zeroFault_sec (s x p source) : (zeroFault s x p source).sec = s.sec := by
  unfold zeroFault
  grind [markLost_sec, → refetch_sec, uncorrectable_sec]

@[simp] theorem pageOps_sec (s x p ops) : (pageOps s x p ops).sec = s.sec := by
  unfold pageOps
  grind [stepOps_sec, zeroFault_sec]

@[simp] theorem sketchPageOf_sec (s q x p rows) : (sketchPageOf s q x p rows).sec = s.sec := by
  unfold sketchPageOf
  split <;> simp

@[simp] theorem fillFrom_sec (s x p) : (fillFrom s x p).sec = s.sec := foldl_sec _ _ _ fun _ _ => stepOp_sec ..

@[simp] theorem zeroPage_sec (s q x p n) : (zeroPage s q x p n).sec = s.sec := by
  unfold zeroPage
  grind [pageOps_sec, pinSketch_sec, readPage_sec, sketchPageOf_sec, writePage_sec, zeroFault_sec]

@[simp] theorem zeroSpan_sec (s q x c) : (zeroSpan s q x c).sec = s.sec := by
  unfold zeroSpan
  dsimp only
  generalize hpages : List.foldl _ _ (List.range 64) = u
  have hu : u.sec = s.sec := by
    rw [← hpages]
    refine (foldl_sec _ _ _ fun s p => ?_).trans ?_
    all_goals repeat' split
    all_goals simp
  split <;> simpa using hu

@[simp] theorem freeSpan_sec (s x) : (freeSpan s x).sec = s.sec := by simp [freeSpan]

@[simp] theorem zeroAbove_sec (s q c) : (zeroAbove s q c).sec = s.sec := by
  unfold zeroAbove
  refine (foldl_sec _ _ _ fun s l => foldl_sec _ _ _ fun s h => ?_).trans (foldl_sec _ _ _ fun s x => ?_)
  · rw [treeTrim_sec]
    split
    · rfl
    · split <;> simp
  · repeat' split
    all_goals simp

@[simp] theorem discard_sec (s q) : (discard s q).sec = s.sec := by
  unfold discard
  split <;> simp

@[simp] theorem settleDiscards_sec (s) : (settleDiscards s).sec = s.sec := by simp [settleDiscards]

@[simp] theorem rebind_sec (s handle) : (rebind s handle).sec = s.sec := by
  unfold rebind
  repeat' split
  all_goals simp

@[simp] theorem settleBindings_sec (s) : (settleBindings s).sec = s.sec := by simp [settleBindings]

@[simp] theorem issueOpen_sec (s r q x k w) : (issueOpen s r q x k w).sec = s.sec := by
  unfold issueOpen
  rw [pump_sec]
  exact foldl_sec _ _ _ fun _ _ => enqueue_sec ..

@[simp] theorem issueSealed_sec (s r x k w) : (issueSealed s r x k w).sec = s.sec := rfl
@[simp] theorem setStep_sec (s id k f) : (setStep s id k f).sec = s.sec := rfl

@[simp] theorem appendEnd_sec (s id) : (appendEnd s id).sec = s.sec := by
  unfold appendEnd
  repeat' split
  all_goals simp

@[simp] theorem appendStop_sec (s id status) : (appendStop s id status).sec = s.sec := by
  simp only [appendStop]
  repeat' split
  all_goals simp

theorem startInstall_sec {s r x w} (h : startInstall s r x = some w) : w.sec = s.sec := by
  unfold startInstall at h
  grind [→ installPlace_sec]

@[simp] theorem blockLoss_sec (s r q w) : (blockLoss s r q w).sec = s.sec := by
  simp only [blockLoss]
  split <;> simp

@[simp] theorem startStep_sec (s id k) : (startStep s id k).sec = s.sec := by
  fun_cases startStep <;> grind [appendStop_sec, blockLoss_sec, issueOpen_sec, issueSealed_sec, mapReq_sec, → newSpan_sec, setStep_sec,
    → startInstall_sec, starved_sec]

@[simp] theorem appendFeed_sec (s id) : (appendFeed s id).sec = s.sec := by
  unfold appendFeed
  split
  · rfl
  dsimp only
  generalize hfeed : List.foldl _ s _ = u
  have hu : u.sec = s.sec := by
    rw [← hfeed]
    refine foldl_sec _ _ _ fun s k => ?_
    repeat' split
    all_goals simp
  split
  · split <;> simpa using hu
  · exact hu

@[simp] theorem stepDone_sec (s id k) : (stepDone s id k).sec = s.sec := by
  unfold stepDone
  split
  · rfl
  split
  · split
    · rfl
    dsimp only
    split
    · simp
    next htree =>
    have hsec := treeUpdate_sec htree
    simp only [fetchSk_sec, pageDirty_sec] at hsec
    split
    · split
      · split <;> simpa using hsec
      · simpa using hsec
    · simpa using hsec
  · rfl

@[simp] theorem stepFault_sec (s id k fault) : (stepFault s id k fault).sec = s.sec := by
  simp only [stepFault]
  repeat' split
  all_goals simp

@[simp] theorem appendOk_sec (s id) : (appendOk s id).sec = s.sec := by
  unfold appendOk
  repeat' split
  all_goals simp

@[simp] theorem commitTry_sec (s id) : (commitTry s id).sec = s.sec := by
  unfold commitTry
  repeat' split
  all_goals simp

@[simp] theorem commitTurn_sec (s r q) : (commitTurn s r q).sec = s.sec := by
  simp only [commitTurn]
  repeat' split
  all_goals simp

@[simp] theorem truncateGo_sec (s r q) : (truncateGo s r q).sec = s.sec := by
  simp only [truncateGo]
  repeat' split
  all_goals simp

@[simp] theorem truncateZero_sec (s id) : (truncateZero s id).sec = s.sec := by
  unfold truncateZero
  repeat' split
  all_goals simp

@[simp] theorem appendGo_sec (s id) : (appendGo s id).sec = s.sec := by
  unfold appendGo
  repeat' split
  all_goals simp

@[simp] theorem appendTurn_sec (s id) : (appendTurn s id).sec = s.sec := by
  simp only [appendTurn]
  repeat' split
  all_goals simp

@[simp] theorem appendStart_sec (s id) : (appendStart s id).sec = s.sec := by
  simp only [appendStart]
  repeat' split
  all_goals simp

/-! ## Vectors -/

@[simp] theorem setColl_sec (s c) : (setColl s c).sec = s.sec := by simp [setColl]

theorem takeNode_sec {s c level x0 w} (h : takeNode s c level = some (x0, w)) : w.sec = s.sec := by
  unfold takeNode at h
  grind [setUsed_sec, → takeFrames_sec, → takeSlot_sec]

@[simp] theorem dropCollSlot_sec (s n) : (dropCollSlot s n).sec = s.sec := by simp [dropCollSlot]

theorem splitNode_sec {s c n x0 w x2} (h : splitNode s c n = some (x0, w, x2)) : w.sec = s.sec := by
  unfold splitNode at h
  grind [→ takeNode_sec]

theorem addChild_sec {left new level a3 a4 a5 w x1} (h : addChild left new level a3 a4 a5 = some (w, x1)) : w.sec = a4.sec := by
  fun_induction addChild <;> grind [→ splitNode_sec, → takeNode_sec]

theorem growLeaf_sec {e a1 a2 a3 a4 w x1} (h : growLeaf e a1 a2 a3 a4 = some (w, x1)) : w.sec = a3.sec := by
  fun_induction growLeaf <;> grind [→ takeNode_sec]

theorem insertEnt_sec {s c e w d} (h : insertEnt s c e = some (w, d)) : w.sec = s.sec := by
  unfold insertEnt at h
  split at h
  · grind [→ takeNode_sec]
  split at h
  · cases h
  split at h
  · cases h
  split at h
  · exact growLeaf_sec h
  split at h
  · cases h
    rfl
  split at h
  · cases h
  next hsplit =>
  dsimp only at h
  split at h
  · cases h
  split at h
  · cases h
  next hadd =>
  cases h
  exact (addChild_sec hadd).trans (splitNode_sec hsplit)

theorem placeRecord_sec {s c vid b a w} (h : placeRecord s c vid = some (b, a, w)) : w.sec = s.sec := by
  unfold placeRecord at h
  have hfresh : ∀ bs (o : Option (Nat × Nat × State)), (∀ x, o = some x → x.2.2.sec = s.sec) →
      (match (allocate s c.tenant 1 0 .vectors c.id bs).map fun p => (p.1.bank, 4096 * p.1.first, p.2) with
        | some p => some p
        | none => o) = some (b, a, w) → w.sec = s.sec := by
    intro bs o ho h
    split at h
    · next hp =>
      cases h
      obtain ⟨⟨r, u⟩, halloc, heq⟩ := Option.map_eq_some_iff.1 hp
      cases heq
      exact allocate_sec halloc
    · exact ho _ h
  have hheld : ∀ (xs : List Nat) (f : Nat → Option Nat) x, (xs.findSome? fun b => (f b).map fun a => (b, a, s)) = some x →
      x.2.2.sec = s.sec := by
    intro xs f x hx
    obtain ⟨y, -, hy⟩ := List.exists_of_findSome?_eq_some hx
    obtain ⟨z, -, rfl⟩ := Option.map_eq_some_iff.1 hy
    rfl
  dsimp only at h
  split at h
  · exact hfresh _ _ (hheld _ _) h
  · split at h
    · cases h
      rfl
    · exact hfresh _ _ (hheld _ _) h

@[simp] theorem vecGo_sec (s id) : (vecGo s id).sec = s.sec := by
  simp only [vecGo]
  split <;> simp

@[simp] theorem vecQueue_sec (s id) : (vecQueue s id).sec = s.sec := by
  unfold vecQueue
  repeat' split
  all_goals simp

@[simp] theorem vecStart_sec (s id) : (vecStart s id).sec = s.sec := by
  simp only [vecStart]
  repeat' split
  all_goals simp

@[simp] theorem vecEnd_sec (s id status) : (vecEnd s id status).sec = s.sec := by
  simp only [vecEnd]
  repeat' split
  all_goals simp

@[simp] theorem vecStep_sec (s id) : (vecStep s id).sec = s.sec := by
  fun_cases vecStep <;> grind [→ insertEnt_sec, mapReq_sec, pinWrite_sec, → placeRecord_sec, setColl_sec, starved_sec, vecEnd_sec]

@[simp] theorem searchEnd_sec (s id) : (searchEnd s id).sec = s.sec := by
  simp only [searchEnd]
  repeat' split
  all_goals simp

@[simp] theorem issueDist_sec (s r c f) : (issueDist s r c f).sec = s.sec := by simp [issueDist]
@[simp] theorem markVector_sec (s c vid) : (markVector s c vid).sec = s.sec := rfl
@[simp] theorem vectorBad_sec (s r c e) : (vectorBad s r c e).sec = s.sec := by simp [vectorBad]

@[simp] theorem findTurn_sec (s w) : (findTurn s w).sec = s.sec := by
  simp only [findTurn]
  repeat' split
  all_goals simp

@[simp] theorem findRun_sec (n s ctx) : (findRun n s ctx).sec = s.sec := by
  induction n generalizing s with
  | zero => rfl
  | succ n ih =>
    unfold findRun
    repeat' split
    all_goals simp [ih]

theorem startFind_sec {s r q w} (h : startFind s r q = some w) : w.sec = s.sec := by
  unfold startFind at h
  grind [findRun_sec]

@[simp] theorem searchStart_sec (s id) : (searchStart s id).sec = s.sec := by
  simp only [searchStart]
  repeat' split
  all_goals simp (disch := (intros; grind [→ startFind_sec]))

@[simp] theorem distDone_sec (s id q blk chan) : (distDone s id q blk chan).sec = s.sec := by
  unfold distDone
  repeat' split
  all_goals simp

@[simp] theorem distFault_sec (s id q blk fault page) : (distFault s id q blk fault page).sec = s.sec := by
  unfold distFault
  repeat' split
  all_goals simp

@[simp] theorem reapNode_sec (n slot s c) : (reapNode n slot s c).1.sec = s.sec := by
  induction n generalizing slot s c with
  | zero => rfl
  | succ n ih =>
    unfold reapNode
    dsimp only
    split
    · rfl
    split
    · rfl
    split
    · simp [ih]
    · simp

@[simp] theorem reapRecords_sec (s c) : (reapRecords s c).sec = s.sec := foldl_sec _ _ _ freeRegion_sec

@[simp] theorem compactLeaf_sec (s c slot) : (compactLeaf s c slot).sec = s.sec := by
  unfold compactLeaf
  split
  · rfl
  split
  · rfl
  · rw [reapRecords_sec, setColl_sec, reapNode_sec]
    exact foldl_sec _ _ _ fun _ _ => pinWrite_sec ..

@[simp] theorem rebuildColl_sec (s slot requester) : (rebuildColl s slot requester).2.sec = s.sec := by
  unfold rebuildColl
  grind [dropCollSlot_sec, setColl_sec, → takeNode_sec, uncorrectable_sec]

/-! ## Plans -/

@[simp] theorem objWrite_sec (s o) : (objWrite s o).sec = s.sec := by simp [objWrite]

@[simp] theorem setTens_sec (s r c t i v) : (setTens s r c t i v).sec = s.sec := by
  unfold setTens
  split <;> simp

@[simp] theorem runCommits_sec (n s id) : (runCommits n s id).1.sec = s.sec := by
  induction n generalizing s with
  | zero => rfl
  | succ n ih =>
    unfold runCommits
    dsimp only
    repeat' split
    all_goals simp [ih]

theorem copyTo_sec {t plan b a3 a4 w} (h : copyTo t plan b a3 a4 = some w) : w.sec = a4.sec := by
  fun_induction copyTo <;> grind [pinWrite_sec, → placeIn_sec]

theorem placeRow_sec {t plan i k frames u sets s w} (h : placeRow t plan i k frames u sets s = some w) : w.sec = s.sec := by
  obtain ⟨b, -, hb⟩ := List.exists_of_findSome?_eq_some h
  grind [→ placeIn_sec, → copyTo_sec]

theorem foldl_bind_sec {α : Type} {f : α → State → Option State} (hf : ∀ {x s w}, f x s = some w → w.sec = s.sec) {xs : List α}
    {a : Option State} {w : State} (h : xs.foldl (fun a x => a.bind (f x)) a = some w) : ∃ s, a = some s ∧ w.sec = s.sec := by
  induction xs generalizing a with
  | nil => exact ⟨w, h, rfl⟩
  | cons x xs ih =>
    obtain ⟨u, hu, hw⟩ := ih h
    obtain ⟨s, hs, hx⟩ := Option.bind_eq_some_iff.1 hu
    exact ⟨s, hs, hw.trans (hf hx)⟩

theorem tryPlace_sec {α : Type} {go : State → Option α} {p : α → State} (hgo : ∀ s a, go s = some a → (p a).sec = s.sec)
    {t n s a} (h : tryPlace t n go s = some a) : (p a).sec = s.sec := by
  unfold tryPlace at h
  split at h
  · split at h
    · next hs =>
      cases h
      exact hgo _ _ hs
    · split at h
      · exact (hgo _ _ h).trans (zeroAll_sec s)
      · cases h
  · cases h

theorem fit_sec {α : Type} {go : State → Option α} {p : α → State} (hgo : ∀ s a, go s = some a → (p a).sec = s.sec)
    {t n s a} (h : fit s t n go = some a) : (p a).sec = s.sec := by
  have hevict : ∀ xs s, evictFor (tryPlace t n go) xs s = some a → (p a).sec = s.sec := by
    intro xs
    induction xs with
    | nil => exact fun s h => nomatch h
    | cons x xs ih =>
      intro s h
      unfold evictFor at h
      split at h
      · next hs =>
        cases h
        simpa using tryPlace_sec hgo hs
      · simpa using ih _ h
  unfold fit at h
  split at h
  · next hs =>
    cases h
    exact tryPlace_sec hgo hs
  · exact hevict _ _ h

theorem planWork_sec {s t plan c w} (h : planWork s t plan c = some w) : w.sec = s.sec := by
  refine fit_sec (p := id) (fun u v hv => ?_) h
  obtain ⟨hv, -⟩ := Option.filter_eq_some_iff.1 hv
  exact foldl_some_sec hv fun a i x hx => foldl_bind_sec placeRow_sec hx

@[simp] theorem freeWork_sec (s t plan) : (freeWork s t plan).sec = s.sec := foldl_sec _ _ _ freeRegion_sec
@[simp] theorem freeCopies_sec (s o) : (freeCopies s o).sec = s.sec := foldl_sec _ _ _ freeRegion_sec

theorem copyNew_sec {s o w} (h : copyNew s o = some w) : w.sec = s.sec := by
  unfold copyNew at h
  refine foldl_some_sec h fun a p u hu => ?_
  exact foldl_bind_sec copyTo_sec hu

@[simp] theorem planRelease_sec (s t id) : (planRelease s t id).sec = s.sec := by
  unfold planRelease
  repeat' split
  all_goals simp

@[simp] theorem weightRelease_sec (s) : (weightRelease s).sec = s.sec := by
  unfold weightRelease
  refine foldl_sec _ _ _ fun s a => ?_
  repeat' split
  all_goals simp

@[simp] theorem runFinish_sec (s id status) : (runFinish s id status).sec = s.sec := by
  unfold runFinish
  split <;> simp

@[simp] theorem runStop_sec (s id status) : (runStop s id status).sec = s.sec := by
  simp only [runStop]
  split <;> simp

@[simp] theorem runLoss_sec (s r b frame requester) : (runLoss s r b frame requester).sec = s.sec := by simp [runLoss]

@[simp] theorem runTail_sec (s id) : (runTail s id).sec = s.sec := by
  simp only [runTail]
  repeat' split
  all_goals simp

@[simp] theorem runEnd_sec (s id) : (runEnd s id).sec = s.sec := by
  simp only [runEnd]
  repeat' split
  all_goals simp

@[simp] theorem opEnd_sec (s id) : (opEnd s id).sec = s.sec := by
  simp only [opEnd]
  repeat' split
  all_goals simp

@[simp] theorem startGemm_sec (s r c x) : (startGemm s r c x).1.sec = s.sec := by
  unfold startGemm
  repeat' split
  all_goals simp

@[simp] theorem runFault_sec (s r g fault opc) : (runFault s r g fault opc).sec = s.sec := by
  unfold runFault
  split <;> simp

@[simp] theorem runRows_sec (s r f) : (runRows s r f).1.sec = s.sec := by
  unfold runRows
  refine foldl_fst_sec _ _ _ fun a x => ?_
  grind [runFault_sec, stepOps_sec]

@[simp] theorem bankRows_sec (s id f) : (bankRows s id f).sec = s.sec := by
  unfold bankRows
  grind [opEnd_sec, runRows_sec]

@[simp] theorem opNorm_sec (s id) : (opNorm s id).sec = s.sec := by simp [opNorm]
@[simp] theorem opAct_sec (s id) : (opAct s id).sec = s.sec := by simp [opAct]
@[simp] theorem opElemPlan_sec (s id) : (opElemPlan s id).sec = s.sec := by simp [opElemPlan]

@[simp] theorem opRopePlan_sec (s id) : (opRopePlan s id).sec = s.sec := by
  unfold opRopePlan
  repeat' split
  all_goals simp

@[simp] theorem rowsOp_sec (s id requester f) : (rowsOp s id requester f).sec = s.sec := by
  unfold rowsOp
  repeat' split
  all_goals simp

@[simp] theorem opRoute_sec (s id) : (opRoute s id).sec = s.sec := by simp [opRoute]

@[simp] theorem opQuantPlan_sec (s id) : (opQuantPlan s id).sec = s.sec := by
  unfold opQuantPlan
  repeat' split
  all_goals simp

@[simp] theorem opReduce_sec (s id) : (opReduce s id).sec = s.sec := by simp [opReduce]

@[simp] theorem tileLost_sec (s r o tile fresh) : (tileLost s r o tile fresh).sec = s.sec := by
  unfold tileLost
  split <;> simp

@[simp] theorem tileRead_sec (s o off len parts) : (tileRead s o off len parts).2.sec = s.sec := by
  unfold tileRead
  refine foldl_snd_sec _ _ _ fun a x => ?_
  grind [poolRead_sec]

@[simp] theorem rowRead_sec (s o k requester) : (rowRead s o k requester).2.sec = s.sec := by simp [rowRead]

@[simp] theorem opEmbed_sec (s id) : (opEmbed s id).sec = s.sec := by
  unfold opEmbed
  split
  · rfl
  split
  · rfl
  split
  · simp
  dsimp only
  split
  · simp
  generalize hgo : List.foldl _ (s, none) _ = p
  have hsec : p.1.sec = s.sec := by
    rw [← hgo]
    refine foldl_fst_sec _ _ _ fun a i => ?_
    split
    · rfl
    split
    · simp
    split
    · next hread => simp [snd_sec hread]
    · next hread => simp [snd_sec hread]
  split
  · simpa using hsec
  · exact hsec

@[simp] theorem bankDots_sec (s t o layer vec) : (bankDots s t o layer vec).2.sec = s.sec := by
  unfold bankDots
  dsimp only
  generalize hfold : List.foldl _ _ _ = p
  have hsec : p.2.sec = s.sec := by
    rw [← hfold]
    refine foldl_snd_sec _ _ _ fun a n => ?_
    grind [stepOps_sec, stepOp_sec]
  split <;> exact hsec

@[simp] theorem opBankGemm_sec (s id) : (opBankGemm s id).sec = s.sec := by
  unfold opBankGemm
  split
  · rfl
  split
  · rfl
  split
  · simp
  dsimp only
  split
  · rfl
  split
  · simp
  generalize hgo : List.foldl _ (s, true) _ = p
  have hsec : p.1.sec = s.sec := by
    rw [← hgo]
    refine foldl_fst_sec _ _ _ fun a i => ?_
    split
    · rfl
    split
    · next hdots => simp [snd_sec hdots]
    · next hdots => split <;> simp [snd_sec hdots]
  split
  · exact hsec
  split
  · next hrows => simpa [fst_sec hrows] using hsec
  · next hrows => simpa [fst_sec hrows] using hsec

@[simp] theorem gemmEnd_sec (s id) : (gemmEnd s id).sec = s.sec := by
  unfold gemmEnd
  split
  · rfl
  split
  · rfl
  dsimp only
  split
  · next hr => simp [fst_sec hr]
  · next hr => simp [fst_sec hr]

@[simp] theorem colDone_sec (s id j call nt) : (colDone s id j call nt).sec = s.sec := by
  simp only [colDone]
  repeat' split
  all_goals simp

@[simp] theorem sramCorrected_sec (s) : (sramCorrected s).sec = s.sec := rfl

theorem requeue_getD_sec {s j t u} (hu : u.sec = s.sec) : ((requeue s j t).getD u).sec = s.sec := by
  cases h : requeue s j t with
  | none => exact hu
  | some w => exact requeue_sec h

@[simp] theorem tilePass_sec (s j call nt sram ue) : (tilePass s j call nt sram ue).sec = s.sec := by
  unfold tilePass
  split
  · simp
  split
  · simp
  split
  · simp
  split
  · rfl
  split
  · rfl
  split
  · dsimp only
    split
    · rfl
    have hcorrected : (if sram = .corrected then sramCorrected s else s).sec = s.sec := by split <;> simp
    split
    · rw [dispatch_sec, tileLost_sec]
      exact hcorrected
    split
    · rw [dispatch_sec, runLoss_sec]
      exact hcorrected
    split
    · next hread =>
      rw [dispatch_sec, tileLost_sec]
      exact (snd_sec hread).trans ((tileRead_sec ..).trans hcorrected)
    next hread =>
    have hsec := (snd_sec hread).trans ((tileRead_sec ..).trans hcorrected)
    generalize (if decide (_ < (_ : Nat)) = true then List.map (List.map _) _ else _) = acc
    split
    · simpa using hsec
    split
    · simpa using hsec
    · exact (requeue_getD_sec (runStop_sec ..)).trans ((replaceJob_sec ..).trans hsec)
  · rfl

@[simp] theorem tryAll_sec {α β ε : Type} (f : α → State → Sum β ε × State) (hf : ∀ a s, (f a s).2.sec = s.sec) (xs : List α) (s : State) :
    (tryAll f xs s).2.sec = s.sec := by
  induction xs generalizing s with
  | nil => rfl
  | cons x xs ih =>
    unfold tryAll
    split
    · next hx => exact (snd_sec hx).trans (hf x s)
    next u hx =>
    have hu := (snd_sec hx).trans (hf x s)
    split
    · next hxs => exact (snd_sec hxs).trans ((ih _).trans hu)
    · next hxs => exact (snd_sec hxs).trans ((ih _).trans hu)

@[simp] theorem fetchNodes_sec (ps s) : (fetchNodes ps s).2.sec = s.sec := by
  unfold fetchNodes
  refine foldl_snd_sec _ _ _ fun a x => ?_
  grind [fetchNode_sec]

@[simp] theorem localWalk_sec (r iv sk n ps s) : (localWalk r iv sk n ps s).2.sec = s.sec := by
  induction n generalizing ps s with
  | zero => rfl
  | succ n ih =>
    unfold localWalk
    dsimp only
    generalize (if n + 1 > startLevel r.body then _ else _) = go
    split
    · simp
    · simp [ih]

@[simp] theorem localPage_sec (s r x p) : (localPage s r x p).2.sec = s.sec := by
  unfold localPage
  grind [pageBad_sec, readPage_sec]

@[simp] theorem localSpan_sec (r heads w s) : (localSpan r heads w s).2.sec = s.sec := by
  unfold localSpan
  dsimp only
  generalize hleaves : tryAll _ _ _ = p
  have hsec : p.2.sec = s.sec := by
    rw [← hleaves, tryAll_sec]
    · split
      · split <;> simp
      · rfl
    · intro k s
      split
      · rfl
      split
      · next hp => simp [snd_sec hp]
      · next hp => simp [snd_sec hp]
  split <;> exact hsec

@[simp] theorem localAttend_sec (r c x layer o i s) : (localAttend r c x layer o i s).2.sec = s.sec := by
  unfold localAttend
  split
  · rfl
  generalize (if (orP x 0).testBit 4 = true then Fmt.e4m3 else Fmt.bf16) = f
  dsimp only
  split
  · rfl
  split
  · rfl
  split
  · rfl
  generalize hheads : tryAll _ _ _ = p
  have hsec : p.2.sec = s.sec := by
    rw [← hheads, tryAll_sec]
    intro h s
    split
    · next hp =>
      rw [snd_sec hp, tryAll_sec _ fun w s => localSpan_sec ..]
      split <;> simp
    · next hp =>
      rw [snd_sec hp, tryAll_sec _ fun w s => localSpan_sec ..]
      split <;> simp
  split <;> exact hsec

@[simp] theorem localStop_sec (s id st det) : (localStop s id st det).sec = s.sec := by simp [localStop]

@[simp] theorem opAttendLocal_sec (s id) : (opAttendLocal s id).sec = s.sec := by
  unfold opAttendLocal
  split
  · rfl
  split
  · rfl
  dsimp only
  split
  · rfl
  generalize hpaths : (if (orP _ 0).testBit 5 = true then _ else (s, false)) = p
  have hsec : p.1.sec = s.sec := by
    rw [← hpaths]
    split <;> simp
  split
  · exact hsec
  split
  · simpa using hsec
  split
  · next hr => rw [localStop_sec, snd_sec hr, tryAll_sec _ fun i s => localAttend_sec .., hsec]
  · next hr => rw [opEnd_sec, foldl_sec _ _ _ fun s v => setTens_sec .., snd_sec hr, tryAll_sec _ fun i s => localAttend_sec .., hsec]

@[simp] theorem localPlace_sec (s q l h i) : (localPlace s q l h i).2.sec = s.sec := by
  fun_cases localPlace <;> grind [freeSpanFrames_sec, installBytes_sec, → installPlace_sec, → newSpan_sec]

@[simp] theorem localLoss_sec (s x p) : (localLoss s x p).2.sec = s.sec := by simp [localLoss]

@[simp] theorem localDone_sec (s q x pos) : (localDone s q x pos).2.sec = s.sec := by
  unfold localDone
  grind [fetchSk_sec, mapSeq_sec, pageDirty_sec, → treeUpdate_sec]

@[simp] theorem localStore_sec (s handle l h pos key val) : (localStore s handle l h pos key val).2.sec = s.sec := by
  unfold localStore
  grind [bankFault_sec, localDone_sec, localLoss_sec, localPlace_sec, readPage_sec, stepOps_sec, writePage_sec]

@[simp] theorem localAppend_sec (r c x l ps s) : (localAppend r c x l ps s).2.sec = s.sec := by
  induction ps generalizing s with
  | nil => rfl
  | cons p ps ih =>
    obtain ⟨i, h⟩ := p
    unfold localAppend
    dsimp only
    generalize (if (orP x 0).testBit 0 = true then _ else none) = tab
    split
    · rfl
    split
    · next hstore => simp [ih, snd_sec hstore]
    · simp

@[simp] theorem opAppendLocal_sec (s id) : (opAppendLocal s id).sec = s.sec := by
  unfold opAppendLocal
  grind [localAppend_sec, localStop_sec, mapReq_sec, opEnd_sec, runLoss_sec, starved_sec]

@[simp] theorem runGo_sec (s id) : (runGo s id).sec = s.sec := by
  simp only [runGo]
  repeat' split
  all_goals simp (disch := (intros; grind [mapSeq_sec, setTens_sec, stepOps_sec]))

@[simp] theorem runTurn_sec (s id) : (runTurn s id).sec = s.sec := by
  simp only [runTurn]
  repeat' split
  all_goals simp

@[simp] theorem runStart_sec (s id) : (runStart s id).sec = s.sec := by
  simp only [runStart]
  repeat' split
  all_goals simp

@[simp] theorem runRow_sec (s id codes f) (hf : ∀ s y1, (f s y1).sec = s.sec) : (runRow s id codes f).sec = s.sec := by
  fun_cases runRow <;> simp [*]

@[simp] theorem gemmRun_sec (s id) : (gemmRun s id).sec = s.sec := by
  unfold gemmRun
  grind [gemmEnd_sec, opBankGemm_sec, runStop_sec, startGemm_sec]

/-! ## Score -/

@[simp] theorem scoreStart_sec (s id) : (scoreStart s id).sec = s.sec := by
  simp only [scoreStart]
  repeat' split
  all_goals simp

@[simp] theorem ringWrite_sec (s p e off v) : (ringWrite s p e off v).sec = s.sec := rfl

@[simp] theorem scoreDeliver_sec (s p) : (scoreDeliver s p).sec = s.sec := by
  simp only [scoreDeliver]
  repeat' split
  all_goals simp

@[simp] theorem ringFree_sec (s p id) : (ringFree s p id).sec = s.sec := rfl

@[simp] theorem scoreStop_sec (s id status) : (scoreStop s id status).sec = s.sec := by
  unfold scoreStop
  repeat' split
  all_goals simp

@[simp] theorem scoreReply_sec (s p e w) : (scoreReply s p e w).sec = s.sec := by
  simp only [scoreReply]
  repeat' split
  all_goals simp

/-! ## Engine -/

@[simp] theorem pageGet_sec (s x p requester) : (pageGet s x p requester).2.sec = s.sec := by
  unfold pageGet
  grind [markLost_sec, readPage_sec, → refetch_sec, uncorrectable_sec]

@[simp] theorem moverBlock_sec (s x i cap) : (moverBlock s x i cap).2.sec = s.sec := by
  unfold moverBlock
  refine foldl_snd_sec _ _ _ fun a x => ?_
  grind [pageGet_sec]

@[simp] theorem tell_sec (s b op out) : (tell s b op out).sec = s.sec := by
  unfold tell
  repeat' split
  all_goals simp

@[simp] theorem bankEnds_sec (s b e) : (bankEnds s b e).sec = s.sec := by
  simp only [bankEnds]
  repeat' split
  all_goals simp

@[simp] theorem pinRead_sec (s b j old) : (pinRead s b j old).sec = s.sec := by
  unfold pinRead
  repeat' split
  all_goals simp

@[simp] theorem pinRun_sec (s b e) : (pinRun s b e).sec = s.sec := by
  simp only [pinRun]
  repeat' split
  all_goals simp

@[simp] theorem readNode_sec (s slot page ue) : (readNode s slot page ue).2.sec = s.sec := by
  simp only [readNode]
  repeat' split
  all_goals simp

@[simp] theorem nodeRead_sec (s ctx ue) : (nodeRead s ctx ue).sec = s.sec := by
  simp only [nodeRead]
  repeat' split
  all_goals simp

@[simp] theorem pepperGrant_sec (s) : (pepperGrant s).sec = s.sec := by
  unfold pepperGrant
  split
  · rfl
  dsimp only
  split
  · rfl
  next w _ _ _ r _ =>
  have hwalk : ∀ q kv, ((startWalk { s with eng.waits := s.eng.waits.erase w } r q kv).getD s).sec = s.sec := by
    intro q kv
    cases h : startWalk _ r q kv with
    | none => rfl
    | some u => exact (startWalk_sec h :)
  have hfind : ∀ q, ((startFind { s with eng.waits := s.eng.waits.erase w } r q).getD s).sec = s.sec := by
    intro q
    cases h : startFind _ r q with
    | none => rfl
    | some u => exact (startFind_sec h :)
  split
  · exact hwalk ..
  · exact hfind ..
  · rfl

@[simp] theorem attentionGrant_sec (s) : (attentionGrant s).sec = s.sec := by
  unfold attentionGrant
  repeat' split
  all_goals simp

@[simp] theorem workspaceGrant_sec (s) : (workspaceGrant s).sec = s.sec := by
  unfold workspaceGrant
  split <;> simp

@[simp] theorem spaceGrant_sec (s) : (spaceGrant s).sec = s.sec := by
  simp only [spaceGrant]
  repeat' split
  all_goals simp

@[simp] theorem movingEnd_sec (s id) : (movingEnd s id).sec = s.sec := by
  unfold movingEnd
  repeat' split
  all_goals simp

@[simp] theorem classTurn_sec (s id) : (classTurn s id).sec = s.sec := by
  unfold classTurn
  repeat' split
  all_goals simp

@[simp] theorem leaveBlocks_sec (s j blk) : (leaveBlocks s j blk).sec = s.sec := rfl

@[simp] theorem arrayPage_sec (s j k u p pg e) : (arrayPage s j k u p pg e).2.sec = s.sec := by
  simp only [arrayPage]
  repeat' split
  all_goals simp

@[simp] theorem arrayPageStep_sec (s j u p sram e) : (arrayPageStep s j u p sram e).sec = s.sec := by
  fun_cases arrayPageStep <;> grind [arrayPage_sec, dispatch_sec, pageBad_sec, passDone_sec, replaceJob_sec, settleStop_sec, sramBad_sec,
    sramCorrected_sec, stopAt_sec, stopLost_sec]

@[simp] theorem stopReq_sec (s id status) : (stopReq s id status).sec = s.sec := by
  fun_cases stopReq <;> grind [appendStop_sec, finish_sec, mapReq_sec, mergeTimeout_sec, rebind_sec, runFinish_sec, runStop_sec,
    scoreStop_sec, stopAt_sec]

/-! ## Leases -/

theorem allotLease_sec {s t ms nslots nsync stageMib svc l w} (h : allotLease s t ms nslots nsync stageMib svc = some (l, w)) :
    w.sec = s.sec := by
  unfold allotLease at h
  split at h
  · cases h
  split at h
  · cases h
  next hid =>
  split at h
  · cases h
  next hslots =>
  dsimp only at h
  split at h
  · cases h
  next hcells =>
  obtain ⟨u, hu, hw⟩ := Option.map_eq_some_iff.1 h
  cases hw
  refine (allocatePool_sec hu).trans (Eq.trans ?_ ((pickRun_sec hslots).trans (pickRun_sec hid)))
  split at hcells
  · cases hcells
    rfl
  · have hcells := pickRun_sec hcells
    exact hcells

@[simp] theorem endLease_sec (s id cause) : (endLease s id cause).sec = s.sec := by
  unfold endLease
  repeat' split
  all_goals simp

@[simp] theorem settleLease_sec (s id) : (settleLease s id).sec = s.sec := by
  unfold settleLease
  repeat' split
  all_goals simp

/-! ## Replica -/

theorem writeReplica_sec {r staged s w} (h : writeReplica r staged s = some w) : w.sec = s.sec := by
  unfold writeReplica at h
  dsimp only at h
  split at h
  · cases h
  next hlog =>
  refine (publishVer_sec h).trans ((logAppend_sec hlog).trans ?_)
  split <;> rfl

theorem storeReplica_sec {s r staged w} (h : storeReplica s r staged = .inl w) : w.sec = s.sec := by
  unfold storeReplica at h
  split at h
  · next hs _ =>
    split at h
    · cases h
      exact afterCollect_sec writeReplica_sec hs
    · cases h
  · cases h
  · cases h

@[simp] theorem replicaGo_sec (s id) : (replicaGo s id).sec = s.sec := by
  unfold replicaGo
  split
  · rfl
  dsimp only
  split
  · split
    · split
      · next hstore => simp [storeReplica_sec hstore]
      · simp
    · simp
  · split
    · next hstore => simp [storeReplica_sec hstore]
    · simp

@[simp] theorem replicaStart_sec (s id) : (replicaStart s id).sec = s.sec := by
  simp only [replicaStart]
  repeat' split
  all_goals simp

@[simp] theorem adopt_sec (s q vs n) : (adopt s q vs n).sec = s.sec := by simp (disch := (intros; split <;> simp)) [adopt]

theorem freeAlias_sec {s x0 w} (h : freeAlias s = some (x0, w)) : w.sec = s.sec := by
  unfold freeAlias at h
  grind [→ pickRun_sec]

theorem promoteSeq_sec {s t handle vs x0 w} (h : promoteSeq s t handle vs = some (x0, w)) : w.sec = s.sec := by
  unfold promoteSeq at h
  grind [→ freeAlias_sec, word_sec]

@[simp] theorem mapPeer_sec (s qp f) : (mapPeer s qp f).sec = s.sec := rfl
@[simp] theorem peerMail_sec (s qp mseq code body) : (peerMail s qp mseq code body).sec = s.sec := by simp [peerMail]

@[simp] theorem peerUp_sec (s qp t mig node notAfter sig) : (peerUp s qp t mig node notAfter sig).sec = s.sec := by
  unfold peerUp
  grind [draw_sec, leaveConnected_sec, mapQp_sec, peerMail_sec, → pickOf_sec, word_sec]

@[simp] theorem peerCommand_sec (s p code body) : (peerCommand s p code body).sec = s.sec := by simp [peerCommand]
@[simp] theorem peerAgain_sec (s p notAfter sig) : (peerAgain s p notAfter sig).sec = s.sec := by simp [peerAgain]

theorem putBlock_sec {s p use g w} (h : putBlock s p use g = some w) : w.sec = s.sec := by
  unfold putBlock at h
  grind [mapPeer_sec, send_sec, word_sec]

@[simp] theorem renewPeer_sec (s p) : (renewPeer s p).sec = s.sec := by
  unfold renewPeer
  repeat' split
  all_goals simp

@[simp] theorem replicaFail_sec (s t node status) : (replicaFail s t node status).sec = s.sec := by simp [replicaFail]
@[simp] theorem putTimeouts_sec (s qp) : (putTimeouts s qp).sec = s.sec := rfl

@[simp] theorem dropPuts_sec (s qp) : (dropPuts s qp).sec = s.sec := by
  unfold dropPuts
  refine foldl_sec _ _ _ fun s a => ?_
  split <;> simp

@[simp] theorem connectReplica_sec (s k) : (connectReplica s k).sec = s.sec := by
  unfold connectReplica
  grind [→ openQp_sec]

@[simp] theorem putFlushes_sec (s t) : (putFlushes s t).sec = s.sec := by
  refine foldl_sec _ _ _ fun s j => ?_
  split
  · split
    · rfl
    split
    · dsimp only
      cases hput : putBlock s _ _ _ with
      | none => rfl
      | some w => exact putBlock_sec hput
    · rfl
  · rfl

/-! ## Migrate -/

@[simp] theorem mapMig_sec (s m f) : (mapMig s m f).sec = s.sec := rfl
@[simp] theorem dropMig_sec (s m) : (dropMig s m).sec = s.sec := rfl

@[simp] theorem reapSeqs_sec (s) : (reapSeqs s).sec = s.sec := by
  refine foldl_sec _ _ _ fun s q => ?_
  dsimp only
  repeat' split
  all_goals simp

@[simp] theorem deleteSeq_sec (s q) : (deleteSeq s q).sec = s.sec := by simp [deleteSeq]

@[simp] theorem copyBytes_sec (s q x blk gen) : (copyBytes s q x blk gen).2.sec = s.sec := by
  unfold copyBytes
  grind [moverBlock_sec, → takeCtr_sec]

@[simp] theorem copyOne_sec (s m c) : (copyOne s m c).1.sec = s.sec := by
  unfold copyOne
  grind [copyBytes_sec, mapMig_sec, → putBlock_sec]

@[simp] theorem copyFeed_sec (n s id) : (copyFeed n s id).sec = s.sec := by
  induction n generalizing s with
  | zero => rfl
  | succ n ih =>
    unfold copyFeed
    split
    · rfl
    split
    · rfl
    split
    · rfl
    split
    · next hcopy => simp [ih, fst_sec hcopy]
    · next hcopy => simp [fst_sec hcopy]

@[simp] theorem setMoving_sec (s m on) : (setMoving s m on).sec = s.sec := by
  unfold setMoving
  refine foldl_sec _ _ _ fun s q => foldl_sec _ _ _ fun s x => ?_
  repeat' split
  all_goals simp

@[simp] theorem migReply_sec (s id status body) : (migReply s id status body).sec = s.sec := by
  unfold migReply
  repeat' split
  all_goals simp

@[simp] theorem migPump_sec (s id) : (migPump s id).sec = s.sec := by
  simp only [migPump]
  repeat' split
  all_goals simp

@[simp] theorem migAll_sec (s) : (migAll s).sec = s.sec := by simp [migAll]

@[simp] theorem settlePut_sec (s u) : (settlePut s u).sec = s.sec := by
  simp only [settlePut]
  repeat' split
  all_goals simp

@[simp] theorem settlePuts_sec (s) : (settlePuts s).sec = s.sec := by
  simp only [settlePuts]
  split <;> simp

@[simp] theorem migBegin_sec {role go} (hgo : ∀ x b s, (go x b s).sec = s.sec) (c s) : (migBegin role go c s).sec = s.sec := by
  refine mailRowIf_sec (fun x b s => ?_) c s
  split
  · rfl
  refine withTenant_sec fun k => ?_
  repeat' split
  all_goals simp [hgo]

theorem migConnect_sec {s m w} (h : migConnect s m = some w) : w.sec = s.sec := by
  unfold migConnect at h
  grind [mapMig_sec, → openQp_sec]

@[simp] theorem migCommit_sec {phase go} (hgo : ∀ x b m s, (go x b m s).sec = s.sec) (c s) :
    (migCommit phase go c s).sec = s.sec := by
  refine mailRowIf_sec (fun x b s => ?_) c s
  dsimp only
  repeat' split
  all_goals simp [hgo]

@[simp] theorem raiseFloor_sec (s t e) : (raiseFloor s t e).sec = s.sec := rfl

@[simp] theorem staleWaiting_sec (s m) : (staleWaiting s m).sec = s.sec := by
  unfold staleWaiting
  refine foldl_sec _ _ _ fun s a => ?_
  split <;> simp

@[simp] theorem abortMig_sec (s m) : (abortMig s m).sec = s.sec := by
  simp only [abortMig]
  repeat' split
  all_goals simp

/-! ## Arms -/

@[simp] theorem setLast_sec (s id v) : (setLast s id v).sec = s.sec := rfl
@[simp] theorem ignoreArm_sec (s t) : (ignoreArm s t).sec = s.sec := rfl

@[simp] theorem startBody_sec (s id op) : (startBody s id op).sec = s.sec := by
  unfold startBody
  repeat' split
  all_goals simp

@[simp] theorem armSlot_sec (s id l via word ue) : (armSlot s id l via word ue).sec = s.sec := by
  simp only [armSlot]
  repeat' split
  all_goals simp

@[simp] theorem armWord_sec (s id l via word ue) : (armWord s id l via word ue).sec = s.sec := by
  simp only [armWord]
  repeat' split
  all_goals simp

@[simp] theorem armInternal_sec (s p n word ue) : (armInternal s p n word ue).sec = s.sec := by
  unfold armInternal
  repeat' split
  all_goals simp

@[simp] theorem scatterGrant_sec (s) : (scatterGrant s).sec = s.sec := by
  unfold scatterGrant
  repeat' split
  all_goals simp

/-! ## Guest -/

theorem takeCores_sec {a0 a1 a2 x0 w} (h : takeCores a0 a1 a2 = some (x0, w)) : w.sec = a1.sec := by
  fun_induction takeCores <;> grind [→ pickOf_sec]

theorem startPartition_sec {s o pid restarts k w} (h : startPartition s o pid restarts = some (k, w)) : w.sec = s.sec := by
  unfold startPartition at h
  dsimp only at h
  split at h
  · cases h
  next hpid =>
  split at h
  · cases h
  next hcores =>
  split at h
  · cases h
  next hlease =>
  split at h
  · cases h
  next hpool =>
  cases h
  refine (poolWrite_sec ..).trans ((allocatePool_sec hpool).trans ((allotLease_sec hlease).trans ((takeCores_sec hcores).trans ?_)))
  split at hpid
  · cases hpid
    rfl
  · exact pickRun_sec hpid

@[simp] theorem haltPartition_sec (s k) : (haltPartition s k).sec = s.sec := by simp [haltPartition]
@[simp] theorem stopEvent_sec (s k again) : (stopEvent s k again).sec = s.sec := by simp [stopEvent]

@[simp] theorem stopPartition_sec (s p) : (stopPartition s p).sec = s.sec := by
  unfold stopPartition
  split <;> simp

@[simp] theorem partitionStops_sec (s p) : (partitionStops s p).sec = s.sec := by
  unfold partitionStops
  grind [haltPartition_sec, → startPartition_sec, stopEvent_sec]

@[simp] theorem mapCore_sec (s p core f) : (mapCore s p core f).sec = s.sec := rfl

@[simp] theorem guestTrap_sec (s p core cause) : (guestTrap s p core cause).1.sec = s.sec := by
  unfold guestTrap
  repeat' split
  all_goals simp

@[simp] theorem guestBad_sec (s k x addr n clean) : (guestBad s k x addr n clean).sec = s.sec := by
  simp only [guestBad]
  repeat' split
  all_goals simp

@[simp] theorem guestHeal_sec (s k addr n) : (guestHeal s k addr n).sec = s.sec := by
  unfold guestHeal
  refine foldl_sec _ _ _ fun s a => ?_
  grind [mapPart_sec, readRun_sec, writeFrame_sec]

@[simp] theorem guestLook_sec (s k addr n) : (guestLook s k addr n).sec = s.sec := by
  unfold guestLook
  split <;> simp

@[simp] theorem guestAccess_sec (s k core x addr n w go) (hgo : ∀ s, (go s).sec = s.sec) :
    (guestAccess s k core x addr n w go).1.sec = s.sec := by
  unfold guestAccess
  grind [guestBad_sec, guestLook_sec, guestTrap_sec, mapPart_sec]

@[simp] theorem guestStore_sec (s k addr v) : (guestStore s k addr v).sec = s.sec := by
  unfold guestStore
  repeat' split
  all_goals simp

@[simp] theorem guestAct_sec (s p a) : (guestAct s p a).1.sec = s.sec := by
  simp only [guestAct]
  repeat' split
  all_goals simp

@[simp] theorem guestRun_sec (p as s) : (guestRun p as s).1.sec = s.sec := by
  induction as generalizing s with
  | nil => rfl
  | cons a as ih =>
    unfold guestRun
    split
    · next hact => simp [fst_sec hact]
    · next hact => simp [ih, fst_sec hact]

/-! ## Ingress -/

@[simp] theorem secOk_sec (s t) : (secOk s t).1.sec = s.sec := by
  simp only [secOk]
  repeat' split
  all_goals simp

@[simp] theorem police_sec (s rkey qp count) : (police s rkey qp count).1.sec = s.sec := by
  simp only [police]
  repeat' split
  all_goals simp

@[simp] theorem congestion_sec (s q ce) : (congestion s q ce).sec = s.sec := by
  simp only [congestion]
  repeat' split
  all_goals simp

@[simp] theorem receive_sec (s x rkey k dup) (hk : ∀ s y1, (k s y1).sec = s.sec) (hdup : ∀ s y1, (dup s y1).sec = s.sec) :
    (receive s x rkey k dup).sec = s.sec := by
  fun_cases receive <;> grind [congestion_sec, mapQp_sec, police_sec, post_sec, secOk_sec]

@[simp] theorem advance_sec (s q n) : (advance s q n).sec = s.sec := rfl

@[simp] theorem windowWrite_sec (s r at_ v) : (windowWrite s r at_ v).sec = s.sec := by
  unfold windowWrite
  repeat' split
  all_goals simp

@[simp] theorem recordCame_sec (s qp r) : (recordCame s qp r).sec = s.sec := by
  unfold recordCame
  split <;> simp

@[simp] theorem messageDone_sec (s qp r n ue) : (messageDone s qp r n ue).sec = s.sec := by
  unfold messageDone
  repeat' split
  all_goals simp

@[simp] theorem writePacket_sec (m psn s q) : (writePacket m psn s q).sec = s.sec := by
  simp only [writePacket]
  repeat' split
  all_goals simp

@[simp] theorem readReply_sec (s q psn addr n rkey) : (readReply s q psn addr n rkey).sec = s.sec := by simp [readReply]

theorem readBad_sec {s q addr n rkey w} (h : readBad s q addr n rkey = some w) : w.sec = s.sec := by
  unfold readBad at h
  split at h
  · split at h
    · cases h
    obtain ⟨g, -, hg⟩ := List.exists_of_findSome?_eq_some h
    grind [uncorrectable_sec]
  · cases h

@[simp] theorem atomicReply_sec (s q psn old) : (atomicReply s q psn old).sec = s.sec := by simp [atomicReply]

@[simp] theorem atomicAgain_sec (psn s q) : (atomicAgain psn s q).sec = s.sec := by
  unfold atomicAgain
  split <;> simp

@[simp] theorem cellAtomic_sec (s q addr rkey psn f) : (cellAtomic s q addr rkey psn f).sec = s.sec := by
  unfold cellAtomic
  repeat' split
  all_goals simp

@[simp] theorem cellRenew_sec (s q id rkey psn) : (cellRenew s q id rkey psn).sec = s.sec := by
  unfold cellRenew
  repeat' split
  all_goals simp

@[simp] theorem fetchAdd_sec (s q addr rkey psn n) : (fetchAdd s q addr rkey psn n).sec = s.sec := by
  unfold fetchAdd
  repeat' split
  all_goals simp

@[simp] theorem ackTo_sec (s qp psn) : (ackTo s qp psn).sec = s.sec := by
  simp only [ackTo]
  repeat' split
  all_goals simp (disch := (intros; grind [acked_sec, wake_sec]))

@[simp] theorem dropQp_sec (s qpn) : (dropQp s qpn).sec = s.sec := rfl

@[simp] theorem armRow_sec (op cancel a s) : (armRow op cancel a s).sec = s.sec := by
  unfold armRow
  grind [armInternal_sec, guestRun_sec, migAll_sec, police_sec, saveCfg_sec, writePacket_sec]

/-! ## Objects -/

@[simp] theorem renameGone_sec (s h) : (renameGone s h).sec = s.sec := by
  unfold renameGone
  split <;> simp

@[simp] theorem seqCreate_sec (t b s) : (seqCreate t b s).sec = s.sec := by
  unfold seqCreate
  dsimp only
  repeat' split
  all_goals simp
  all_goals exact freeAlias_sec ‹_›

@[simp] theorem markReported_sec (s) : (markReported s).sec = s.sec := rfl

@[simp] theorem readAll_sec (v lost is s acc) : (Sum.elim Prod.snd id (readAll v lost is s acc)).sec = s.sec := by
  induction is generalizing s acc with
  | nil => rfl
  | cons i is ih =>
    unfold readAll
    dsimp only
    split
    · next hread => rw [ih, ← congrArg (fun r => r.2.sec) hread, readBlock_sec]
    · next hread =>
      have hsec := (congrArg (fun r => r.2.sec) hread).symm.trans (readBlock_sec ..)
      simp only [Sum.elim_inr, id_eq]
      repeat' split
      all_goals simpa using hsec

@[simp] theorem installSpan_sec (s c lost x) : (Sum.elim id Prod.fst (installSpan s c lost x)).sec = s.sec := by
  unfold installSpan
  split
  · rfl
  next v _ =>
  split
  · simp
  next y u hplace =>
  rw [← installPlace_sec hplace]
  have hread := readAll_sec v lost (List.range v.blocks.length) u []
  split
  · next hr =>
    rw [hr] at hread
    simpa using hread
  · next hr =>
    rw [hr] at hread
    simpa using hread

@[simp] theorem installAll_sec (c lost xs s) : (installAll c lost xs s).1.sec = s.sec := by
  induction xs generalizing s with
  | nil => rfl
  | cons x xs ih =>
    have hspan := installSpan_sec s c lost x
    unfold installAll
    split
    · next h =>
      rw [h] at hspan
      rw [ih]
      exact hspan
    · next h => rwa [h] at hspan

@[simp] theorem reapColls_sec (s) : (reapColls s).sec = s.sec := by
  unfold reapColls
  refine foldl_sec _ _ _ fun s a => ?_
  split <;> simp

@[simp] theorem loadRow_sec {code weight h} (hh : ∀ t b v s, (h t b v s).sec = s.sec) (c s) :
    (loadRow code weight h c s).sec = s.sec := by
  refine mailRow_sec (fun x b s => ?_) c s
  dsimp only
  split <;> simp [hh]

@[simp] theorem loadReply_sec (s o) : (loadReply s o).sec = s.sec := rfl

theorem objAlloc_sec {s o w} (h : objAlloc s o = some w) : w.sec = s.sec := by
  obtain ⟨u, hu, hw⟩ := Option.bind_eq_some_iff.1 h
  grind [→ planWork_sec, → allocatePool_sec]

theorem keepObj_sec {s o body w} (h : keepObj s o body = some w) : w.sec = s.sec := by
  unfold keepObj at h
  split at h
  · cases h
  next halloc =>
  obtain ⟨u, hu, rfl⟩ := Option.map_eq_some_iff.1 h
  simp [storeObject_sec hu, objAlloc_sec halloc]

@[simp] theorem loadFull_sec (s o) : (loadFull s o).sec = s.sec := by
  unfold loadFull
  split <;> simp

@[simp] theorem weightLoad_sec (t b v s) : (weightLoad t b v s).sec = s.sec := by
  unfold weightLoad
  dsimp only
  split
  · rfl
  split
  · split
    · rfl
    next hpick =>
    split
    · simp
    · next hkeep => simp [keepObj_sec hkeep, pickRun_sec hpick]
  split
  · rfl
  split
  · rfl
  split
  · simp
  next hkeep =>
  obtain ⟨u, hu, hcopy⟩ := Option.bind_eq_some_iff.1 hkeep
  simp [copyNew_sec hcopy, keepObj_sec hu]

@[simp] theorem planLoad_sec (t b v s) : (planLoad t b v s).sec = s.sec := by
  unfold planLoad
  dsimp only
  grind [→ keepObj_sec, → pickRun_sec, loadFull_sec, loadReply_sec, reply_sec]

@[simp] theorem tableLike_sec (k top digest t b v s) : (tableLike k top digest t b v s).sec = s.sec := by
  unfold tableLike
  dsimp only
  grind [→ keepObj_sec, → pickRun_sec, loadFull_sec, loadReply_sec, reply_sec]

/-! ## Tenants -/

@[simp] theorem moveQueued_sec (s t gone) : (moveQueued s t gone).sec = s.sec := by
  refine foldl_sec _ _ _ fun s j => ?_
  split
  · exact requeue_getD_sec (stopReq_sec ..)
  · rfl

@[simp] theorem setGroups_sec (s k n) : (setGroups s k n).sec = s.sec := by simp [setGroups]

@[simp] theorem tenantQuota_sec (b s) : (tenantQuota b s).sec = s.sec := by
  unfold tenantQuota
  split <;> simp (disch := (intros; split <;> simp))

@[simp] theorem closeReplica_sec (s t) : (closeReplica s t).sec = s.sec := by
  unfold closeReplica
  repeat' split
  all_goals simp

@[simp] theorem durabilitySet_sec (sig b s) : (durabilitySet sig b s).sec = s.sec := by
  unfold durabilitySet
  dsimp only
  generalize hbad : (_ || _) = bad
  cases bad
  · refine withTenant_sec fun k => ?_
    repeat' split
    all_goals simp
  · rfl

@[simp] theorem endSessions_sec (s t) : (endSessions s t).sec = s.sec := by
  unfold endSessions
  refine foldl_sec _ _ _ fun s a => ?_
  repeat' split
  all_goals simp

@[simp] theorem cancelPuts_sec (s t) : (cancelPuts s t).sec = s.sec := by
  unfold cancelPuts
  refine foldl_sec _ _ _ fun s a => ?_
  repeat' split
  all_goals simp

@[simp] theorem destroyStart_sec (s t) : (destroyStart s t).sec = s.sec := by
  simp (disch := (intros; grind [abortMig_sec, dropMig_sec, endLease_sec, stopPartition_sec])) [destroyStart]

/-! ## Flash -/

@[simp] theorem dropDirect_sec (s) : (dropDirect s).sec = s.sec := by
  refine foldl_sec _ _ _ fun s j => ?_
  repeat' split
  all_goals simp

@[simp] theorem freePlace_sec (s j) : (freePlace s j).sec = s.sec := by
  unfold freePlace
  repeat' split
  all_goals simp

@[simp] theorem feedAll_sec (s) : (feedAll s).sec = s.sec := by simp [feedAll]
@[simp] theorem formatT2_sec (s g t) : (formatT2 s g t).sec = s.sec := by simp [formatT2]

theorem writeVersion_sec {s v i sealed v' ls w} (h : writeVersion s v i sealed = some (v', ls, w)) : w.sec = s.sec := by
  unfold writeVersion at h
  grind [→ logAppend_sec]

@[simp] theorem withFlushes_sec (s) : (withFlushes s).sec = s.sec := by
  unfold withFlushes
  refine foldl_sec _ _ _ fun s a => ?_
  split <;> simp

@[simp] theorem takeTurn_sec (s t a) : (takeTurn s t a).sec = s.sec := rfl

@[simp] theorem startFlush_sec (s c payload) : (startFlush s c payload).sec = s.sec := by
  unfold startFlush
  dsimp only
  split
  · split
    · rfl
    split
    · next hblock => simp [snd_sec hblock]
    next hblock =>
    split
    · simp [snd_sec hblock]
    next hctr =>
    split
    · split
      · next hrec => simp [snd_sec hblock, reclaim_sec hrec]
      · simp [snd_sec hblock]
    next hversion =>
    have hsec := (writeVersion_sec hversion).trans ((takeCtr_sec hctr).trans ((snd_sec hblock).trans (moverBlock_sec ..)))
    split
    · simp [snd_sec hblock]
    · rw [started_sec, putFlushes_sec, releaseHold_sec]
      split <;> simpa using hsec
  · rfl

@[simp] theorem flushFirst_sec (payload cs s) : (flushFirst payload cs s).sec = s.sec := by
  induction cs generalizing s with
  | nil => rfl
  | cons c cs ih =>
    have hflush := startFlush_sec s c payload
    unfold flushFirst
    dsimp only
    split
    · next h => rwa [h] at hflush
    · next h =>
      rw [h] at hflush
      simpa [ih] using hflush
    · next h =>
      rw [h] at hflush
      simpa [ih] using hflush

@[simp] theorem dropJob_sec (s j) : (dropJob s j).sec = s.sec := by
  unfold dropJob
  split <;> simp

theorem placeAgain_sec {s lsn w} (h : placeAgain s lsn = some w) : w.sec = s.sec := by
  unfold placeAgain at h
  grind [→ place_sec, setSeg_sec]

@[simp] theorem refreshIndex_sec (s v) : (refreshIndex s v).sec = s.sec := rfl

@[simp] theorem publishFlush_sec (s j) : (publishFlush s j).sec = s.sec := by
  unfold publishFlush
  split <;> simp

@[simp] theorem programDone_sec (s j ok) : (programDone s j ok).sec = s.sec := by
  unfold programDone
  grind [dropJob_sec, flashFault_sec, holdT2_sec, → placeAgain_sec, publishFlush_sec, refreshIndex_sec]

@[simp] theorem commitsGo_sec (s) : (commitsGo s).sec = s.sec := by
  unfold commitsGo
  refine foldl_sec _ _ _ fun s a => ?_
  repeat' split
  all_goals simp

@[simp] theorem flushDone_sec (s j) : (flushDone s j).sec = s.sec := by
  unfold flushDone
  repeat' split
  all_goals simp

@[simp] theorem installFail_sec (s r detail status) : (installFail s r detail status).sec = s.sec := by
  unfold installFail
  repeat' split
  all_goals simp

@[simp] theorem installDone_sec (s j a l h i) : (installDone s j a l h i).sec = s.sec := by
  unfold installDone
  repeat' split
  all_goals simp

@[simp] theorem readFails_sec (s j k) : (readFails s j k).sec = s.sec := by
  simp only [readFails]
  repeat' split
  all_goals simp

@[simp] theorem readDone_sec (s j e) : (readDone s j e).sec = s.sec := by
  unfold readDone
  grind [blockLost_sec, dropJob_sec, installDone_sec, readBlock_sec, readFails_sec]

@[simp] theorem closeSeg_sec (s seg) : (closeSeg s seg).sec = s.sec := by
  simp only [closeSeg]
  split <;> simp

@[simp] theorem losePages_sec (s seg f) : (losePages s seg f).sec = s.sec := by
  refine foldl_sec _ _ _ fun s v => foldl_sec _ _ _ fun s p => ?_
  repeat' split
  all_goals simp

@[simp] theorem levelWear_sec (s g p i) : (levelWear s g p i).sec = s.sec := by
  simp only [levelWear]
  repeat' split
  all_goals simp

@[simp] theorem markBlock_sec (s v i) : (markBlock s v i).sec = s.sec := rfl

@[simp] theorem repairBlock_sec (s v i) : (repairBlock s v i).sec = s.sec := by
  unfold repairBlock
  dsimp only
  split
  · simp
  split
  · simp
  split
  · next hblock => simp [snd_sec hblock]
  next hblock =>
  have hsec := (snd_sec hblock).trans (moverBlock_sec ..)
  split
  · exact hsec
  next hctr =>
  split
  · exact hsec
  next hversion =>
  split
  · simp [writeVersion_sec hversion, takeCtr_sec hctr, hsec]
  · exact hsec

theorem rekeyBlock_sec {s v gen i b c w} (h : rekeyBlock s v gen i b = some (c, w)) : w.sec = s.sec := by
  unfold rekeyBlock at h
  split at h
  · split at h
    · dsimp only at h
      split at h <;> grind [→ logAppend_sec, → takeCtr_sec, blockLost_sec]
    · cases h
      rfl
  · cases h
    rfl

theorem rekeyBlocks_sec {v gen a2 a3 a4 x0 w} (h : rekeyBlocks v gen a2 a3 a4 = some (x0, w)) : w.sec = a4.sec := by
  fun_induction rekeyBlocks <;> grind [→ rekeyBlock_sec]

@[simp] theorem rekeyStep_sec (s t gen) : (rekeyStep s t gen).sec = s.sec := by
  unfold rekeyStep
  dsimp only
  split
  · split <;> simp
  split
  · rfl
  split
  · rfl
  next hblocks =>
  split
  · next hver => simp [publishVer_sec hver, rekeyBlocks_sec hblocks]
  · rfl

@[simp] theorem eraseArea_sec (s g ok) : (eraseArea s g ok).sec = s.sec := by
  unfold eraseArea
  grind [flashFault_sec, noteSave_sec, → pickOf_sec, setSeg_sec]

/-! ## Mace -/

@[simp] theorem allSelfRefresh_sec (s) : (allSelfRefresh s).sec = s.sec := foldl_sec _ _ _ fun _ _ => setStack_sec ..
@[simp] theorem dropFlight_sec (s) : (dropFlight s).sec = s.sec := rfl
@[simp] theorem haltMovers_sec (s) : (haltMovers s).sec = s.sec := by simp [haltMovers]
@[simp] theorem failStop_sec (s f) : (failStop s f).sec = s.sec := by simp [failStop]

@[simp] theorem clearStale_sec (s n) : (clearStale s n).sec = s.sec := by
  unfold clearStale
  split <;> simp

@[simp] theorem tidyColl_sec (s c slot) : (tidyColl s c slot).sec = s.sec := by
  unfold tidyColl
  split <;> simp

@[simp] theorem reapTree_sec (s r) : (reapTree s r).sec = s.sec := by
  simp only [reapTree]
  split <;> simp

@[simp] theorem tidyFrame_sec (s b f) : (tidyFrame s b f).sec = s.sec := by
  unfold tidyFrame
  split
  · rfl
  rw [reapTree_sec]
  refine foldl_sec _ _ _ fun s slot => ?_
  rw [foldl_sec _ _ _ fun s c => tidyColl_sec ..]
  split <;> simp

@[simp] theorem macePage_sec (s x f source p) : (macePage s x f source p).sec = s.sec := by
  unfold macePage
  grind [markLost_sec, → refetch_sec, uncorrectable_sec]

@[simp] theorem poisonFrame_sec (s r f) : (poisonFrame s r f).sec = s.sec := by
  unfold poisonFrame
  split <;> simp

@[simp] theorem objLost_sec (s r) : (objLost s r).sec = s.sec := rfl

@[simp] theorem maceBad_sec (s b f) : (maceBad s b f).sec = s.sec := by
  simp only [maceBad]
  repeat' split
  all_goals simp

@[simp] theorem maceFrame_sec (s b f e) : (maceFrame s b f e).sec = s.sec := by
  unfold maceFrame
  dsimp only
  split
  · simp
  split
  · simp
  split
  · split
    · refine (foldl_sec _ _ _ fun s p => ?_).trans ?_
      · split
        · next hread => simp [snd_sec hread]
        · next hread => simp [snd_sec hread]
      · split <;> simp
    · split <;> simp
  · rw [tidyFrame_sec]
    split <;> simp

@[simp] theorem passStep_sec (s b f) : (passStep s b f).sec = s.sec := by
  simp only [passStep]
  repeat' split
  all_goals simp

@[simp] theorem zeroFreed_sec (s t) : (zeroFreed s t).sec = s.sec := by simp [zeroFreed]

@[simp] theorem holdSteps_sec (s x) : (holdSteps s x).1.sec = s.sec := by
  unfold holdSteps
  refine foldl_fst_sec _ _ _ fun a r => ?_
  split
  · rfl
  split
  · rfl
  refine foldl_fst_sec _ _ _ fun a p => ?_
  dsimp only
  split
  · rfl
  repeat' split
  all_goals simp

@[simp] theorem copyPage_sec (s x y p) : (copyPage s x y p).sec = s.sec := by
  simp only [copyPage]
  split <;> simp

@[simp] theorem moveSpan_sec (s x) : (moveSpan s x).1.sec = s.sec := by
  unfold moveSpan
  dsimp only
  split
  · next hhold => simp [fst_sec hhold]
  next hhold =>
  have hsec := (fst_sec hhold).trans (holdSteps_sec ..)
  split
  · exact hsec
  next hplace =>
  have hcopy := fun y => (foldl_sec (fun s p => copyPage s x y p) (List.range 64) _ fun s p => copyPage_sec ..).trans ((placeIn_sec hplace).trans hsec)
  split
  · exact hcopy _
  rw [touchSpan_sec, publish_sec]
  split <;> simp [hcopy]

@[simp] theorem moveFrames_sec (s r n) : (moveFrames s r n).sec = s.sec := by
  unfold moveFrames
  refine foldl_sec _ _ _ fun s a => ?_
  grind [maceBad_sec, readRun_sec, t1Write_sec, ueMark_sec, writeFrame_sec]

@[simp] theorem swapRegion_sec (s old new) : (swapRegion s old new).sec = s.sec := rfl

@[simp] theorem movePool_sec (s r banks) : (movePool s r banks).1.sec = s.sec := by
  unfold movePool
  grind [moveFrames_sec, → placeIn_sec, swapRegion_sec]

@[simp] theorem moveRow_sec (s r) : (moveRow s r).1.sec = s.sec := by
  unfold moveRow
  grind [moveFrames_sec, → placeRow_sec, swapRegion_sec]

@[simp] theorem dropCopy_sec (s r) : (dropCopy s r).1.sec = s.sec := by
  unfold dropCopy
  split <;> simp

@[simp] theorem moveRecords_sec (s r) : (moveRecords s r).1.sec = s.sec := by
  unfold moveRecords
  dsimp only
  repeat' split
  all_goals simp (disch := (intros; grind [pinWrite_sec, → placeRecord_sec, setColl_sec, uncorrectable_sec]))

@[simp] theorem moveTree_sec (s r) : (moveTree s r).1.sec = s.sec := by
  unfold moveTree
  split
  · rfl
  split
  · rfl
  next hplace =>
  dsimp only
  rw [foldl_sec _ _ _ fun s p => writeSlots_sec .., foldl_sec _ _ _ fun s p => writeSlots_sec ..]
  refine Eq.trans ?_ (placeIn_sec hplace)
  refine foldl_sec _ _ _ fun s i => ?_
  split
  · next hread => simp [snd_sec hread]
  · next hread => simp [snd_sec hread]

@[simp] theorem dropMoved_sec (s b) : (dropMoved s b).sec = s.sec := by simp [dropMoved]

@[simp] theorem moveShare_sec (s b) : (moveShare s b).1.sec = s.sec := by
  unfold moveShare
  split
  · rfl
  dsimp only
  split
  · rfl
  next hplace =>
  refine (foldl_sec _ _ _ fun s i => ?_).trans ?_
  · split
    · next hread => simp [snd_sec hread]
    · next hread => simp [snd_sec hread]
  cases hwhole : placeIn s nodeTenant 2048 4 .reserve b (List.range 512) with
  | some p =>
    obtain ⟨r, u⟩ := p
    rw [hwhole] at hplace
    cases hplace
    exact placeIn_sec hwhole
  | none =>
    simp only [hwhole, Option.map_none, Option.orElse_none] at hplace
    have hpiece : ∀ {k : Nat} {s w : State},
        (placeIn s nodeTenant k 4 .reserve b (List.range 512)).map Prod.snd = some w → w.sec = s.sec := by
      intro k s w h
      obtain ⟨⟨r, u⟩, hu, rfl⟩ := Option.map_eq_some_iff.1 h
      exact placeIn_sec hu
    obtain ⟨u, hu, hw⟩ := foldl_bind_sec hpiece hplace
    cases hu
    exact hw

@[simp] theorem movePlaces_sec (s b) : (movePlaces s b).sec = s.sec := by
  refine foldl_sec _ _ _ fun s j => ?_
  split
  · split
    · split
      · rfl
      split
      · split
        · next hplace => simp [placeIn_sec hplace]
        · rfl
      · rfl
    · rfl
  · rfl

@[simp] theorem moveRegion_sec (s r) : (moveRegion s r).1.sec = s.sec := by
  unfold moveRegion
  split <;> simp

@[simp] theorem setMovingIn_sec (s b) : (setMovingIn s b).sec = s.sec := foldl_sec _ _ _ fun _ _ => publish_sec ..
@[simp] theorem retired_sec (s r) : (retired s r).sec = s.sec := by simp [retired]

@[simp] theorem retireBank_sec (s r) : (retireBank s r).sec = s.sec := by
  unfold retireBank
  dsimp only
  split <;> simp

/-! ## Power -/

@[simp] theorem wakeStack_sec (s i) : (wakeStack s i).sec = s.sec := by
  simp only [wakeStack]
  split <;> simp

@[simp] theorem leaveState_sec (s) : (leaveState s).sec = s.sec := by
  unfold leaveState
  refine foldl_sec _ _ _ fun s a => ?_
  split <;> simp

/-! ## Resets -/

@[simp] theorem retireAll_sec (s banks) : (retireAll s banks).sec = s.sec := foldl_sec _ _ _ fun _ _ => setBank_sec ..
@[simp] theorem applyCfg_sec (s c) : (applyCfg s c).sec = s.sec := by simp (disch := (intros; grind [setStack_sec])) [applyCfg]
@[simp] theorem restoreErrs_sec (s copies tail) : (restoreErrs s copies tail).sec = s.sec := rfl
@[simp] theorem restoreCtrs_sec (s ctrs) : (restoreCtrs s ctrs).sec = s.sec := rfl
@[simp] theorem fromImage_sec (s g) : (fromImage s g).sec = s.sec := by simp [fromImage]
@[simp] theorem fromLog_sec (s) : (fromLog s).sec = s.sec := rfl

@[simp] theorem restoreObj_sec (s v) : (restoreObj s v).sec = s.sec := by
  unfold restoreObj
  split
  · dsimp only
    generalize hplaced : Option.bind _ _ = placed
    cases placed with
    | none => simp
    | some u =>
      obtain ⟨_, _, hu⟩ := Option.bind_eq_some_iff.1 hplaced
      simp [objAlloc_sec hu]
  · rfl

@[simp] theorem restoreObjs_sec (s) : (restoreObjs s).sec = s.sec := by simp [restoreObjs]

@[simp] theorem restartParts_sec (s ps) : (restartParts s ps).sec = s.sec := by
  unfold restartParts
  refine foldl_sec _ _ _ fun s a => ?_
  grind [→ startPartition_sec, stopEvent_sec]

@[simp] theorem restoreMigs_sec (s) : (restoreMigs s).sec = s.sec := by simp [restoreMigs]
@[simp] theorem resumeDestroys_sec (s) : (resumeDestroys s).sec = s.sec := by simp [resumeDestroys]
@[simp] theorem reconnect_sec (s) : (reconnect s).sec = s.sec := by simp [reconnect]
@[simp] theorem fullCredit_sec (s) : (fullCredit s).sec = s.sec := by simp (disch := (intros; grind [setStack_sec])) [fullCredit]
@[simp] theorem upAgain_sec (s) : (upAgain s).sec = s.sec := by simp [upAgain]

@[simp] theorem coldRestore_sec (s v) : (coldRestore s v).sec = s.sec := by
  simp only [coldRestore]
  repeat' split
  all_goals simp

@[simp] theorem warmLeases_sec (s) : (warmLeases s).sec = s.sec := by simp [warmLeases]
@[simp] theorem warmParts_sec (s) : (warmParts s).sec = s.sec := by simp [warmParts]

@[simp] theorem recRow_sec (cmd tag addr f s) (hf : ∀ s, (f s).sec = s.sec) : (recRow cmd tag addr f s).sec = s.sec := by
  fun_cases recRow <;> simp [*]

@[simp] theorem saveImage_sec (s dur) : (saveImage s dur).2.sec = s.sec := rfl
@[simp] theorem saveEnd_sec (s last area dur) : (saveEnd s last area dur).sec = s.sec := rfl

@[simp] theorem cloveSave_sec (s dur) : (cloveSave s dur).sec = s.sec := by
  simp only [cloveSave]
  repeat' split
  all_goals simp (disch := (intros; grind [setStack_sec]))

@[simp] theorem saveCommit_sec (s) : (saveCommit s).sec = s.sec := by
  unfold saveCommit
  repeat' split
  all_goals simp

end Sys2Proof.Machine
end

section
/-! SUPPORT. The instructions that leave the security part of the state alone. -/

namespace Sys2Proof.Machine

/-- The security part of the state after an instruction from `s` with that outcome: a fault or a refusal leaves `s`. -/
def secAfter (s : State) : Host.Outcome State Fault Refusal → SecSt
  | .next t => t.sec
  | _ => s.sec

@[simp] theorem secAfter_next (s t) : secAfter s (.next t) = t.sec := rfl
@[simp] theorem secAfter_fault (s f) : secAfter s (.fault f) = s.sec := rfl
@[simp] theorem secAfter_refused (s r) : secAfter s (.refused r) = s.sec := rfl

@[simp] theorem bankRow_sec (opc k s) : secAfter s (bankRow opc k s) = s.sec := by
  unfold bankRow
  split <;> simp

@[simp] theorem clearRow_sec (k s) : secAfter s (clearRow k s) = s.sec := by
  unfold clearRow
  dsimp only
  split
  · split <;> simp
  · rfl

theorem migConnect_getD_sec (s m) : ((migConnect s m).getD s).sec = s.sec := by
  cases h : migConnect s m with
  | none => rfl
  | some w => exact migConnect_sec h

@[simp] theorem execSpanAttend_sec (k s) : secAfter s (execSpanAttend k s) = s.sec := by simp [execSpanAttend]
@[simp] theorem execSpanQk_sec (k s) : secAfter s (execSpanQk k s) = s.sec := by simp [execSpanQk]
@[simp] theorem execSpanPv_sec (k s) : secAfter s (execSpanPv k s) = s.sec := by simp [execSpanPv]
@[simp] theorem execPageTagCheck_sec (k s) : secAfter s (execPageTagCheck k s) = s.sec := by simp [execPageTagCheck]
@[simp] theorem execPageTagWrite_sec (k s) : secAfter s (execPageTagWrite k s) = s.sec := by simp [execPageTagWrite]
@[simp] theorem execSketchPage_sec (k s) : secAfter s (execSketchPage k s) = s.sec := by simp [execSketchPage]
@[simp] theorem execQuantStore_sec (k s) : secAfter s (execQuantStore k s) = s.sec := by simp [execQuantStore]
@[simp] theorem execRopeApply_sec (k s) : secAfter s (execRopeApply k s) = s.sec := by simp [execRopeApply]
@[simp] theorem execNormRms_sec (k s) : secAfter s (execNormRms k s) = s.sec := by simp [execNormRms]
@[simp] theorem execNormLayer_sec (k s) : secAfter s (execNormLayer k s) = s.sec := by simp [execNormLayer]
@[simp] theorem execElemOp_sec (k s) : secAfter s (execElemOp k s) = s.sec := by simp [execElemOp]
@[simp] theorem execDotRows_sec (k s) : secAfter s (execDotRows k s) = s.sec := by simp [execDotRows]
@[simp] theorem execDistExact_sec (k s) : secAfter s (execDistExact k s) = s.sec := by simp [execDistExact]
@[simp] theorem execFillZero_sec (k s) : secAfter s (execFillZero k s) = s.sec := by simp [execFillZero]
@[simp] theorem execCopyInBank_sec (k s) : secAfter s (execCopyInBank k s) = s.sec := by simp [execCopyInBank]

@[simp] theorem execLoadReg_sec (k s) : secAfter s (execLoadReg k s) = s.sec := by
  unfold execLoadReg
  split <;> simp

@[simp] theorem execStoreReg_sec (k s) : secAfter s (execStoreReg k s) = s.sec := by simp [execStoreReg]
@[simp] theorem execClear_sec (k s) : secAfter s (execClear k s) = s.sec := by simp [execClear]

@[simp] theorem execGovernorRelease_sec (b e s) : secAfter s (execGovernorRelease b e s) = s.sec := by
  simp only [execGovernorRelease]
  repeat' split
  all_goals simp

@[simp] theorem execRefreshDue_sec (b s) : secAfter s (execRefreshDue b s) = s.sec := by
  simp only [execRefreshDue]
  repeat' split
  all_goals simp

@[simp] theorem execRefreshDone_sec (b s) : secAfter s (execRefreshDone b s) = s.sec := by
  simp only [execRefreshDone]
  repeat' split
  all_goals simp

@[simp] theorem execNonceGet_sec (c s) : secAfter s (execNonceGet c s) = s.sec := by exact mailRow_sec (fun _ _ _ => by simp) c s
@[simp] theorem execOpenSession_sec (c sig s) : secAfter s (execOpenSession c sig s) = s.sec := by simp [execOpenSession]

@[simp] theorem execCloseSession_sec (c s) : secAfter s (execCloseSession c s) = s.sec := by
  exact mailRow_sec (fun _ _ _ => by simp) c s

@[simp] theorem execSessionExpiry_sec (qpn s) : secAfter s (execSessionExpiry qpn s) = s.sec := by
  unfold execSessionExpiry
  repeat' split
  all_goals simp

@[simp] theorem execMboxAttach_sec (c s) : secAfter s (execMboxAttach c s) = s.sec := by
  refine mailRow_sec (fun x b s => ?_) c s
  split
  · rfl
  split
  · rfl
  · next hpick => simp [pickOf_sec hpick]

@[simp] theorem execMboxDetach_sec (c s) : secAfter s (execMboxDetach c s) = s.sec := by
  refine mailRow_sec (fun x b s => ?_) _ _
  repeat' split
  all_goals simp

@[simp] theorem execPeerConnect_sec (c s) : secAfter s (execPeerConnect c s) = s.sec := by
  refine mailRow_sec (fun x b s => ?_) c s
  split
  · rfl
  split
  · rfl
  · next hopen => simp [openQp_sec hopen]

@[simp] theorem execSlotQuery_sec (c s) : secAfter s (execSlotQuery c s) = s.sec := by
  refine mailRow_sec (fun x b s => ?_) _ _
  dsimp only
  repeat' split
  all_goals simp

@[simp] theorem execStatsGet_sec (c s) : secAfter s (execStatsGet c s) = s.sec := by
  refine mailRow_sec (fun x b s => ?_) _ _
  repeat' split
  all_goals simp

@[simp] theorem execNodeIdSet_sec (c s) : secAfter s (execNodeIdSet c s) = s.sec := by
  refine mailRow_sec (fun x b s => ?_) _ _
  repeat' split
  all_goals simp

@[simp] theorem execEventSubscribe_sec (c s) : secAfter s (execEventSubscribe c s) = s.sec := by
  refine mailRow_sec (fun x b s => ?_) _ _
  dsimp only
  repeat' split
  all_goals simp

@[simp] theorem execSyncReceived_sec (domain offset intervalNs s) :
    secAfter s (execSyncReceived domain offset intervalNs s) = s.sec := by
  simp only [execSyncReceived]
  repeat' split
  all_goals simp

@[simp] theorem execSyncTimeout_sec (s) : secAfter s (execSyncTimeout s) = s.sec := by
  simp only [execSyncTimeout]
  split <;> simp

@[simp] theorem execPdelayReqReceived_sec (seq rxTime s) : secAfter s (execPdelayReqReceived seq rxTime s) = s.sec := by
  simp only [execPdelayReqReceived]
  repeat' split
  all_goals simp

@[simp] theorem execPdelayTimer_sec (s) : secAfter s (execPdelayTimer s) = s.sec := by
  simp only [execPdelayTimer]
  split <;> simp

@[simp] theorem execPdelayRespReceived_sec (seq t1 t2 t3 t4 s) :
    secAfter s (execPdelayRespReceived seq t1 t2 t3 t4 s) = s.sec := by
  simp only [execPdelayRespReceived]
  split <;> simp

@[simp] theorem execPpsOut_sec (s) : secAfter s (execPpsOut s) = s.sec := by simp [execPpsOut]
@[simp] theorem execPpsIn_sec (ts s) : secAfter s (execPpsIn ts s) = s.sec := by simp [execPpsIn]
@[simp] theorem execLinkDown_sec (s) : secAfter s (execLinkDown s) = s.sec := by simp [execLinkDown]

@[simp] theorem execLinkUp_sec (s) : secAfter s (execLinkUp s) = s.sec := by
  simp only [execLinkUp]
  split <;> simp

@[simp] theorem execNetclkLoss_sec (s) : secAfter s (execNetclkLoss s) = s.sec := by simp [execNetclkLoss]
@[simp] theorem execNetclkReturn_sec (s) : secAfter s (execNetclkReturn s) = s.sec := by simp [execNetclkReturn]

@[simp] theorem execArpRequest_sec (target sender senderMac s) :
    secAfter s (execArpRequest target sender senderMac s) = s.sec := by
  unfold execArpRequest
  repeat' split
  all_goals simp

@[simp] theorem execNeighborSolicitation_sec (target sender senderMac s) :
    secAfter s (execNeighborSolicitation target sender senderMac s) = s.sec := by
  unfold execNeighborSolicitation
  repeat' split
  all_goals simp

@[simp] theorem execIcmpEcho_sec (v6 src data s) : secAfter s (execIcmpEcho v6 src data s) = s.sec := by
  unfold execIcmpEcho
  repeat' split
  all_goals simp

@[simp] theorem execArpReply_sec (ip mac s) : secAfter s (execArpReply ip mac s) = s.sec := by simp [execArpReply]

@[simp] theorem execNeighborAdvertisement_sec (ip mac s) : secAfter s (execNeighborAdvertisement ip mac s) = s.sec := by
  simp [execNeighborAdvertisement]

@[simp] theorem execCmReq_sec (q s) : secAfter s (execCmReq q s) = s.sec := by
  unfold execCmReq
  grind [secAfter_next, secAfter_fault, secAfter_refused, draw_sec, → freeQpn_sec, postCm_sec]

@[simp] theorem execCmRtu_sec (qpn s) : secAfter s (execCmRtu qpn s) = s.sec := by
  unfold execCmRtu
  repeat' split
  all_goals simp

@[simp] theorem execCmDreq_sec (qpn s) : secAfter s (execCmDreq qpn s) = s.sec := by
  unfold execCmDreq
  repeat' split
  all_goals simp

@[simp] theorem execCmDrep_sec (qpn s) : secAfter s (execCmDrep qpn s) = s.sec := by
  unfold execCmDrep
  repeat' split
  all_goals simp

@[simp] theorem execAckTimeout_sec (qpn s) : secAfter s (execAckTimeout qpn s) = s.sec := by
  unfold execAckTimeout
  repeat' split
  all_goals simp

@[simp] theorem execCnpReceived_sec (qpn s) : secAfter s (execCnpReceived qpn s) = s.sec := by
  unfold execCnpReceived
  repeat' split
  all_goals simp

@[simp] theorem execAlphaTimer_sec (qpn s) : secAfter s (execAlphaTimer qpn s) = s.sec := by
  simp only [execAlphaTimer]
  split <;> simp

@[simp] theorem execIncreaseTimer_sec (qpn s) : secAfter s (execIncreaseTimer qpn s) = s.sec := by
  simp only [execIncreaseTimer]
  split <;> simp

@[simp] theorem execIncreaseBytes_sec (qpn s) : secAfter s (execIncreaseBytes qpn s) = s.sec := by
  unfold execIncreaseBytes
  repeat' split
  all_goals simp

@[simp] theorem execPfcReceived_sec (prio pauseNs s) : secAfter s (execPfcReceived prio pauseNs s) = s.sec := by
  simp only [execPfcReceived]
  split <;> simp

@[simp] theorem execPfcPauseExpiry_sec (prio s) : secAfter s (execPfcPauseExpiry prio s) = s.sec := by
  simp only [execPfcPauseExpiry]
  split <;> simp

@[simp] theorem execGateChange_sec (s) : secAfter s (execGateChange s) = s.sec := by
  simp only [execGateChange]
  split <;> simp

@[simp] theorem execEgressFrameBoundary_sec (s) : secAfter s (execEgressFrameBoundary s) = s.sec := by
  simp [execEgressFrameBoundary]

@[simp] theorem execFuncStopEgressSched_sec (c s) : secAfter s (execFuncStopEgressSched c s) = s.sec := by
  simp [execFuncStopEgressSched]

@[simp] theorem execFuncStartEgressSched_sec (c s) : secAfter s (execFuncStartEgressSched c s) = s.sec := by
  refine mailRowIf_sec (fun x b s => ?_) _ _
  dsimp only
  repeat' split
  all_goals simp

@[simp] theorem execFuncStopIngressPolice_sec (c s) : secAfter s (execFuncStopIngressPolice c s) = s.sec := by
  simp [execFuncStopIngressPolice]

@[simp] theorem execFuncStartIngressPolice_sec (c s) : secAfter s (execFuncStartIngressPolice c s) = s.sec := by
  refine mailRowIf_sec (fun x b s => ?_) _ _
  dsimp only
  repeat' split
  all_goals simp

@[simp] theorem execFuncStopMaceT1_sec (c s) : secAfter s (execFuncStopMaceT1 c s) = s.sec := by simp [execFuncStopMaceT1]
@[simp] theorem execFuncStartMaceT1_sec (c s) : secAfter s (execFuncStartMaceT1 c s) = s.sec := by simp [execFuncStartMaceT1]
@[simp] theorem execFuncStopMaceT2_sec (c s) : secAfter s (execFuncStopMaceT2 c s) = s.sec := by simp [execFuncStopMaceT2]
@[simp] theorem execFuncStartMaceT2_sec (c s) : secAfter s (execFuncStartMaceT2 c s) = s.sec := by simp [execFuncStartMaceT2]
@[simp] theorem execFuncStopLink_sec (c s) : secAfter s (execFuncStopLink c s) = s.sec := by simp [execFuncStopLink]
@[simp] theorem execFuncStartLink_sec (c s) : secAfter s (execFuncStartLink c s) = s.sec := by simp [execFuncStartLink]

@[simp] theorem execPortConfig_sec (c s) : secAfter s (execPortConfig c s) = s.sec := by
  refine mailRow_sec (fun x b s => ?_) _ _
  dsimp only
  repeat' split
  all_goals simp

@[simp] theorem execSchedConfigQueue_sec (c s) : secAfter s (execSchedConfigQueue c s) = s.sec := by
  refine mailRowIf_sec (fun x b s => ?_) _ _
  dsimp only
  repeat' split
  all_goals simp

@[simp] theorem execSchedConfigGcl_sec (c s) : secAfter s (execSchedConfigGcl c s) = s.sec := by
  refine mailRowIf_sec (fun x b s => ?_) _ _
  dsimp only
  repeat' split
  all_goals simp

@[simp] theorem execPolicerConfig_sec (c s) : secAfter s (execPolicerConfig c s) = s.sec := by
  refine mailRow_sec (fun x b s => ?_) _ _
  dsimp only
  repeat' split
  all_goals simp

@[simp] theorem execPtpConfig_sec (c s) : secAfter s (execPtpConfig c s) = s.sec := by
  refine mailRow_sec (fun x b s => ?_) _ _
  dsimp only
  repeat' split
  all_goals simp

@[simp] theorem execInstallTransmitSa_sec (c sig key s) : secAfter s (execInstallTransmitSa c sig key s) = s.sec := by
  refine mailRowIf_sec (fun x b s => ?_) _ _
  dsimp only
  repeat' split
  all_goals simp

@[simp] theorem execInstallReceiveSa_sec (c sig key s) : secAfter s (execInstallReceiveSa c sig key s) = s.sec := by
  refine mailRowIf_sec (fun x b s => ?_) _ _
  dsimp only
  repeat' split
  all_goals simp

@[simp] theorem execSwitchTransmitSa_sec (c s) : secAfter s (execSwitchTransmitSa c s) = s.sec := by
  refine mailRowIf_sec (fun x b s => ?_) _ _
  dsimp only
  repeat' split
  all_goals simp

@[simp] theorem execDeleteReceiveSa_sec (c s) : secAfter s (execDeleteReceiveSa c s) = s.sec := by
  refine mailRowIf_sec (fun x b s => ?_) _ _
  dsimp only
  repeat' split
  all_goals simp

@[simp] theorem execKeyInstall_sec (c sig key s) : secAfter s (execKeyInstall c sig key s) = s.sec := by simp [execKeyInstall]

@[simp] theorem execRegRead_sec (tag addr len s) : secAfter s (execRegRead tag addr len s) = s.sec := by
  simp only [execRegRead]
  repeat' split
  all_goals simp

@[simp] theorem execSbStatusEvlost_sec (s) : secAfter s (execSbStatusEvlost s) = s.sec := by
  simp only [execSbStatusEvlost]
  split <;> simp

@[simp] theorem execSbCtrlEvflush_sec (s) : secAfter s (execSbCtrlEvflush s) = s.sec := by
  simp only [execSbCtrlEvflush]
  split <;> simp

@[simp] theorem execSbFailcauseAck_sec (s) : secAfter s (execSbFailcauseAck s) = s.sec := by
  simp only [execSbFailcauseAck]
  split <;> simp

@[simp] theorem execMboxWrite_sec (tag addr data s) : secAfter s (execMboxWrite tag addr data s) = s.sec := by
  simp only [execMboxWrite]
  repeat' split
  all_goals simp

@[simp] theorem execMboxRead_sec (tag addr len s) : secAfter s (execMboxRead tag addr len s) = s.sec := by
  simp only [execMboxRead]
  repeat' split
  all_goals simp

@[simp] theorem execEventRead_sec (tag len s) : secAfter s (execEventRead tag len s) = s.sec := by
  simp only [execEventRead]
  repeat' split
  all_goals simp

@[simp] theorem execSetEndpointId_sec (eid s) : secAfter s (execSetEndpointId eid s) = s.sec := by
  simp only [execSetEndpointId]
  repeat' split
  all_goals simp

@[simp] theorem execGetEndpointId_sec (s) : secAfter s (execGetEndpointId s) = s.sec := by
  simp only [execGetEndpointId]
  split <;> simp

@[simp] theorem execGetMctpVersionSupport_sec (s) : secAfter s (execGetMctpVersionSupport s) = s.sec := by
  simp only [execGetMctpVersionSupport]
  split <;> simp

@[simp] theorem execGetMessageTypeSupport_sec (s) : secAfter s (execGetMessageTypeSupport s) = s.sec := by
  simp only [execGetMessageTypeSupport]
  split <;> simp

@[simp] theorem execPldmSensorReading_sec (id s) : secAfter s (execPldmSensorReading id s) = s.sec := by
  unfold execPldmSensorReading
  repeat' split
  all_goals simp

@[simp] theorem execPldmBase_sec (req s) : secAfter s (execPldmBase req s) = s.sec := by
  simp only [execPldmBase]
  split <;> simp

@[simp] theorem execSetdasa_sec (static addr s) : secAfter s (execSetdasa static addr s) = s.sec := by
  simp only [execSetdasa]
  split <;> simp

@[simp] theorem execEntdaa_sec (addr s) : secAfter s (execEntdaa addr s) = s.sec := by
  simp only [execEntdaa]
  split <;> simp

@[simp] theorem execErrorLogRead_sec (c s) : secAfter s (execErrorLogRead c s) = s.sec := by
  exact mailRow_sec (fun _ _ _ => by simp) c s

@[simp] theorem execHealthGet_sec (c s) : secAfter s (execHealthGet c s) = s.sec := by
  exact mailRow_sec (fun _ _ _ => by simp) c s

@[simp] theorem execMaceRateSet_sec (c s) : secAfter s (execMaceRateSet c s) = s.sec := by
  refine mailRow_sec (fun x b s => ?_) _ _
  repeat' split
  all_goals simp

@[simp] theorem execHealthSample_sec (s) : secAfter s (execHealthSample s) = s.sec := by
  simp only [execHealthSample]
  split <;> simp

@[simp] theorem execBucketLeak_sec (channel n s) : secAfter s (execBucketLeak channel n s) = s.sec := by
  simp only [execBucketLeak]
  repeat' split
  all_goals simp

@[simp] theorem execStackTemperatureReading_sec (stack temps s) :
    secAfter s (execStackTemperatureReading stack temps s) = s.sec := by
  simp only [execStackTemperatureReading]
  repeat' split
  all_goals simp

@[simp] theorem execDieTemperatureReading_sec (temp s) : secAfter s (execDieTemperatureReading temp s) = s.sec := by
  simp only [execDieTemperatureReading]
  split <;> simp

@[simp] theorem execAppGovernorStep_sec (watts s) : secAfter s (execAppGovernorStep watts s) = s.sec := by
  simp only [execAppGovernorStep]
  split <;> simp

@[simp] theorem execPowerEstimateUpdate_sec (dieDw stacksDw pkgDw s) :
    secAfter s (execPowerEstimateUpdate dieDw stacksDw pkgDw s) = s.sec := by
  simp only [execPowerEstimateUpdate]
  split <;> simp

@[simp] theorem execPowerLimitSet_sec (c s) : secAfter s (execPowerLimitSet c s) = s.sec := by simp [execPowerLimitSet]
@[simp] theorem execGemm_sec (r s) : secAfter s (execGemm r s) = s.sec := by simp [execGemm]
@[simp] theorem execGemmSparse24_sec (r s) : secAfter s (execGemmSparse24 r s) = s.sec := by simp [execGemmSparse24]
@[simp] theorem execExpertRoute_sec (r s) : secAfter s (execExpertRoute r s) = s.sec := by simp [execExpertRoute]
@[simp] theorem execExpertGemm_sec (r s) : secAfter s (execExpertGemm r s) = s.sec := by simp [execExpertGemm]
@[simp] theorem execPlanNorm_sec (r s) : secAfter s (execPlanNorm r s) = s.sec := by simp [execPlanNorm]
@[simp] theorem execPlanRope_sec (r s) : secAfter s (execPlanRope r s) = s.sec := by simp [execPlanRope]
@[simp] theorem execAct_sec (r s) : secAfter s (execAct r s) = s.sec := by simp [execAct]
@[simp] theorem execPlanElem_sec (r s) : secAfter s (execPlanElem r s) = s.sec := by simp [execPlanElem]
@[simp] theorem execAttendLocal_sec (r s) : secAfter s (execAttendLocal r s) = s.sec := by simp [execAttendLocal]
@[simp] theorem execAppendLocal_sec (r s) : secAfter s (execAppendLocal r s) = s.sec := by simp [execAppendLocal]
@[simp] theorem execEmbedLookup_sec (r s) : secAfter s (execEmbedLookup r s) = s.sec := by simp [execEmbedLookup]
@[simp] theorem execScoreHead_sec (r s) : secAfter s (execScoreHead r s) = s.sec := by simp [execScoreHead]
@[simp] theorem execPlanQuant_sec (r s) : secAfter s (execPlanQuant r s) = s.sec := by simp [execPlanQuant]
@[simp] theorem execReduce_sec (r s) : secAfter s (execReduce r s) = s.sec := by simp [execReduce]

@[simp] theorem execScoreDelivery_sec (p s) : secAfter s (execScoreDelivery p s) = s.sec := by
  simp only [execScoreDelivery]
  split <;> simp

@[simp] theorem execBankOperationOutcome_sec (b e s) : secAfter s (execBankOperationOutcome b e s) = s.sec := by
  simp only [execBankOperationOutcome]
  repeat' split
  all_goals simp

@[simp] theorem execPinAccess_sec (b e s) : secAfter s (execPinAccess b e s) = s.sec := by
  simp only [execPinAccess]
  split <;> simp

@[simp] theorem execTreeNodeRead_sec (ctx ue s) : secAfter s (execTreeNodeRead ctx ue s) = s.sec := by
  simp only [execTreeNodeRead]
  split <;> simp

@[simp] theorem execPepperContextGrant_sec (s) : secAfter s (execPepperContextGrant s) = s.sec := by
  simp only [execPepperContextGrant]
  split <;> simp

@[simp] theorem execAttentionContextGrant_sec (s) : secAfter s (execAttentionContextGrant s) = s.sec := by
  simp only [execAttentionContextGrant]
  split <;> simp

@[simp] theorem execWorkspaceInstanceGrant_sec (s) : secAfter s (execWorkspaceInstanceGrant s) = s.sec := by
  simp only [execWorkspaceInstanceGrant]
  split <;> simp

@[simp] theorem execFlashReadSpaceGrant_sec (s) : secAfter s (execFlashReadSpaceGrant s) = s.sec := by
  simp only [execFlashReadSpaceGrant]
  split <;> simp

@[simp] theorem execSpanMovingWaitEnd_sec (r s) : secAfter s (execSpanMovingWaitEnd r s) = s.sec := by
  simp only [execSpanMovingWaitEnd]
  split <;> simp

@[simp] theorem execTruncateZeroing_sec (r s) : secAfter s (execTruncateZeroing r s) = s.sec := by
  simp only [execTruncateZeroing]
  split <;> simp

@[simp] theorem execAppendClassTurn_sec (r s) : secAfter s (execAppendClassTurn r s) = s.sec := by
  simp only [execAppendClassTurn]
  split <;> simp

@[simp] theorem execArraySpanPassPage_sec (ar e s) : secAfter s (execArraySpanPassPage ar e s) = s.sec := by
  unfold execArraySpanPassPage
  repeat' split
  all_goals simp

@[simp] theorem execTilePass_sec (ar sram ue s) : secAfter s (execTilePass ar sram ue s) = s.sec := by
  unfold execTilePass
  repeat' split
  all_goals simp

@[simp] theorem execArrayGovernorRelease_sec (g s) : secAfter s (execArrayGovernorRelease g s) = s.sec := by
  simp only [execArrayGovernorRelease]
  split <;> simp

@[simp] theorem execDeadlineExpiry_sec (r s) : secAfter s (execDeadlineExpiry r s) = s.sec := by
  unfold execDeadlineExpiry
  repeat' split
  all_goals simp

@[simp] theorem execLeaseGrant_sec (c s) : secAfter s (execLeaseGrant c s) = s.sec := by
  refine mailRow_sec (fun x b s => ?_) c s
  dsimp only
  split
  · rfl
  split
  · rfl
  split
  · split <;> simp
  · next hlot => simp [allotLease_sec hlot]

@[simp] theorem execLeaseExpiry_sec (id s) : secAfter s (execLeaseExpiry id s) = s.sec := by
  unfold execLeaseExpiry
  repeat' split
  all_goals simp

@[simp] theorem execLeaseRenew_sec (c s) : secAfter s (execLeaseRenew c s) = s.sec := by
  refine mailRow_sec (fun x b s => ?_) _ _
  dsimp only
  repeat' split
  all_goals simp

@[simp] theorem execLeaseRelease_sec (c s) : secAfter s (execLeaseRelease c s) = s.sec := by
  refine mailRow_sec (fun x b s => ?_) _ _
  dsimp only
  repeat' split
  all_goals simp

@[simp] theorem execLeaseFree_sec (id s) : secAfter s (execLeaseFree id s) = s.sec := by
  unfold execLeaseFree
  repeat' split
  all_goals simp

@[simp] theorem execReplicaPromote_sec (c s) : secAfter s (execReplicaPromote c s) = s.sec := by
  refine mailRow_sec (fun x b s => ?_) c s
  dsimp only
  repeat' split
  all_goals simp
  all_goals exact promoteSeq_sec ‹_›

@[simp] theorem execReplicaDrop_sec (c s) : secAfter s (execReplicaDrop c s) = s.sec := by
  refine mailRow_sec (fun x b s => ?_) _ _
  dsimp only
  repeat' split
  all_goals simp

@[simp] theorem execMigrateBeginDest_sec (c s) : secAfter s (execMigrateBeginDest c s) = s.sec := by
  refine migBegin_sec (fun x b s => ?_) c s
  dsimp only
  split
  · rfl
  · refine foldl_sec _ _ _ fun s h => ?_
    split <;> simp

@[simp] theorem execMigrateBeginSource_sec (c s) : secAfter s (execMigrateBeginSource c s) = s.sec := by
  refine migBegin_sec (fun x b s => ?_) c s
  dsimp only
  split
  · next hconnect => exact (migConnect_sec hconnect :)
  · rfl

@[simp] theorem execMigrateCommitFreeze_sec (c s) : secAfter s (execMigrateCommitFreeze c s) = s.sec := by
  refine mailRowIf_sec (fun x b s => ?_) _ _
  dsimp only
  repeat' split
  all_goals simp

@[simp] theorem execMigrateCommitInstall_sec (c s) : secAfter s (execMigrateCommitInstall c s) = s.sec := by
  refine migCommit_sec (fun x b m s => ?_) c s
  dsimp only
  split
  · rfl
  split
  · rfl
  split
  · rfl
  rw [reply_sec, mapMig_sec, foldl_sec, raiseFloor_sec, foldl_sec]
  · intro s w
    simp
  · intro s t
    split
    · split <;> simp
    · rfl

@[simp] theorem execMigrateCommitFinish_sec (c s) : secAfter s (execMigrateCommitFinish c s) = s.sec := by
  refine migCommit_sec (fun x b m s => ?_) c s
  dsimp only
  split
  · rfl
  split
  · rfl
  split
  · rfl
  rw [reply_sec, reapSeqs_sec, mapMig_sec]
  generalize hstub : List.foldl _ s (migSeqs s m) = u
  have hu : u.sec = s.sec := by
    rw [← hstub]
    refine foldl_sec _ _ _ fun s q => ?_
    rw [mapSeq_sec]
    refine foldl_sec _ _ _ fun s x => ?_
    split <;> simp
  split
  · split <;> simpa using hu
  · simpa using hu

@[simp] theorem execMigrateAbort_sec (c s) : secAfter s (execMigrateAbort c s) = s.sec := by
  refine mailRow_sec (fun x b s => ?_) _ _
  repeat' split
  all_goals simp

@[simp] theorem execFreezeWaitExpiry_sec (mig s) : secAfter s (execFreezeWaitExpiry mig s) = s.sec := by
  simp only [execFreezeWaitExpiry]
  repeat' split
  all_goals simp

@[simp] theorem execStubGraceExpiry_sec (mig s) : secAfter s (execStubGraceExpiry mig s) = s.sec := by
  unfold execStubGraceExpiry
  split
  · rfl
  next m _ =>
  dsimp only
  split
  · rfl
  rw [secAfter_next, reapSeqs_sec, dropMig_sec]
  refine (foldl_sec _ _ _ fun s q => ?_).trans (at_sec s m.graceAt)
  exact mapSeq_sec ..

@[simp] theorem execMigrationLeaseRenewal_sec (mig s) : secAfter s (execMigrationLeaseRenewal mig s) = s.sec := by
  unfold execMigrationLeaseRenewal
  dsimp only
  repeat' split
  all_goals simp [migConnect_getD_sec]

@[simp] theorem execScatterContextGrant_sec (s) : secAfter s (execScatterContextGrant s) = s.sec := by
  simp only [execScatterContextGrant]
  split <;> simp

@[simp] theorem execScoreReply_sec (p entry w s) : secAfter s (execScoreReply p entry w s) = s.sec := by
  unfold execScoreReply
  grind [secAfter_next, secAfter_fault, secAfter_refused, guestRun_sec, saveCfg_sec, scoreReply_sec]

@[simp] theorem execPartitionStop_sec (p s) : secAfter s (execPartitionStop p s) = s.sec := by
  unfold execPartitionStop
  grind [secAfter_next, secAfter_fault, secAfter_refused, guestRun_sec, partitionStops_sec, saveCfg_sec]

@[simp] theorem execRdmaWrite_sec (x m s) : secAfter s (execRdmaWrite x m s) = s.sec := by
  unfold execRdmaWrite
  grind [secAfter_next, secAfter_fault, secAfter_refused, postAck_sec, receive_sec, writePacket_sec]

@[simp] theorem execRdmaRead_sec (x addr rkey len bad s) : secAfter s (execRdmaRead x addr rkey len bad s) = s.sec := by
  unfold execRdmaRead
  grind [secAfter_next, secAfter_fault, secAfter_refused, advance_sec, nakError_sec, → readBad_sec, readReply_sec, receive_sec]

@[simp] theorem execCompareSwap_sec (x addr rkey old new s) : secAfter s (execCompareSwap x addr rkey old new s) = s.sec := by
  simp [execCompareSwap]

@[simp] theorem execFetchAdd_sec (x addr rkey add s) : secAfter s (execFetchAdd x addr rkey add s) = s.sec := by
  simp [execFetchAdd]

@[simp] theorem execLeaseCellRenewal_sec (x lease rkey s) : secAfter s (execLeaseCellRenewal x lease rkey s) = s.sec := by
  simp [execLeaseCellRenewal]

@[simp] theorem execAckReceived_sec (qpn psn s) : secAfter s (execAckReceived qpn psn s) = s.sec := by
  simp only [execAckReceived]
  split <;> simp

@[simp] theorem execNakReceived_sec (qpn psn kind s) : secAfter s (execNakReceived qpn psn kind s) = s.sec := by
  unfold execNakReceived
  grind [secAfter_next, secAfter_fault, secAfter_refused, ackTo_sec, leaveConnected_sec, retryQp_sec]

@[simp] theorem execCmRep_sec (qpn peerQpn psn status s) : secAfter s (execCmRep qpn peerQpn psn status s) = s.sec := by
  simp only [execCmRep]
  repeat' split
  all_goals simp

@[simp] theorem execCmRej_sec (qpn reason s) : secAfter s (execCmRej qpn reason s) = s.sec := by
  simp only [execCmRej]
  repeat' split
  all_goals simp

@[simp] theorem execReplicaRetry_sec (tenant s) : secAfter s (execReplicaRetry tenant s) = s.sec := by
  simp only [execReplicaRetry]
  repeat' split
  all_goals simp

@[simp] theorem execReplicaLeaseRenewal_sec (tenant s) : secAfter s (execReplicaLeaseRenewal tenant s) = s.sec := by
  unfold execReplicaLeaseRenewal
  repeat' split
  all_goals simp

@[simp] theorem execPeerWithdrawRetry_sec (tenant s) : secAfter s (execPeerWithdrawRetry tenant s) = s.sec := by
  unfold execPeerWithdrawRetry
  grind [secAfter_next, secAfter_fault, secAfter_refused, at_sec, leaveConnected_sec, mapPeer_sec, → openQp_sec,
    peerCommand_sec, postCm_sec, replicaFail_sec]

@[simp] theorem execAttend_sec (a s) : secAfter s (execAttend a s) = s.sec := by simp [execAttend]
@[simp] theorem execAttendSelect_sec (a s) : secAfter s (execAttendSelect a s) = s.sec := by simp [execAttendSelect]
@[simp] theorem execMergeForward_sec (a s) : secAfter s (execMergeForward a s) = s.sec := by simp [execMergeForward]
@[simp] theorem execAppendScatter_sec (a s) : secAfter s (execAppendScatter a s) = s.sec := by simp [execAppendScatter]
@[simp] theorem execCommit_sec (a s) : secAfter s (execCommit a s) = s.sec := by simp [execCommit]
@[simp] theorem execTruncate_sec (a s) : secAfter s (execTruncate a s) = s.sec := by simp [execTruncate]
@[simp] theorem execSearch_sec (a s) : secAfter s (execSearch a s) = s.sec := by simp [execSearch]
@[simp] theorem execInsertVectors_sec (a s) : secAfter s (execInsertVectors a s) = s.sec := by simp [execInsertVectors]
@[simp] theorem execDeleteVectors_sec (a s) : secAfter s (execDeleteVectors a s) = s.sec := by simp [execDeleteVectors]
@[simp] theorem execRunLayers_sec (a s) : secAfter s (execRunLayers a s) = s.sec := by simp [execRunLayers]
@[simp] theorem execScore_sec (a s) : secAfter s (execScore a s) = s.sec := by simp [execScore]
@[simp] theorem execReplicaPut_sec (a s) : secAfter s (execReplicaPut a s) = s.sec := by simp [execReplicaPut]
@[simp] theorem execCancel_sec (a s) : secAfter s (execCancel a s) = s.sec := by simp [execCancel]
@[simp] theorem execSeqCreate_sec (c s) : secAfter s (execSeqCreate c s) = s.sec := by simp [execSeqCreate]

@[simp] theorem execSeqDelete_sec (c s) : secAfter s (execSeqDelete c s) = s.sec := by
  refine mailRow_sec (fun x b s => ?_) _ _
  repeat' split
  all_goals simp

@[simp] theorem execSpanInfo_sec (c s) : secAfter s (execSpanInfo c s) = s.sec := by
  refine mailRow_sec (fun x b s => ?_) _ _
  dsimp only
  repeat' split
  all_goals simp

@[simp] theorem execSeqEvict_sec (c s) : secAfter s (execSeqEvict c s) = s.sec := by
  refine mailRow_sec (fun x b s => ?_) _ _
  repeat' split
  all_goals simp

@[simp] theorem execSeqInstall_sec (c lost s) : secAfter s (execSeqInstall c lost s) = s.sec := by
  refine mailRow_sec (fun x b s => ?_) _ _
  dsimp only
  repeat' split
  all_goals simp

@[simp] theorem execDurableReport_sec (c s) : secAfter s (execDurableReport c s) = s.sec := by
  refine mailRow_sec (fun x b s => ?_) c s
  exact foldl_sec _ _ _ fun s q => mapSeq_sec ..

@[simp] theorem execCollCreate_sec (c s) : secAfter s (execCollCreate c s) = s.sec := by
  refine mailRow_sec (fun x b s => ?_) c s
  dsimp only
  split
  · rfl
  split
  · rfl
  · next hpick => exact (pickRun_sec hpick :)

@[simp] theorem execCollDestroy_sec (c s) : secAfter s (execCollDestroy c s) = s.sec := by
  refine mailRow_sec (fun x b s => ?_) _ _
  repeat' split
  all_goals simp

@[simp] theorem execWeightLoad_sec (c s) : secAfter s (execWeightLoad c s) = s.sec := by simp [execWeightLoad]
@[simp] theorem execPlanLoad_sec (c s) : secAfter s (execPlanLoad c s) = s.sec := by simp [execPlanLoad]

@[simp] theorem execPlanUnload_sec (c s) : secAfter s (execPlanUnload c s) = s.sec := by
  refine mailRow_sec (fun x b s => ?_) _ _
  dsimp only
  repeat' split
  all_goals simp

@[simp] theorem execRopeLoad_sec (c s) : secAfter s (execRopeLoad c s) = s.sec := by
  refine mailRow_sec (fun x b s => ?_) _ _
  dsimp only
  repeat' split
  all_goals simp

@[simp] theorem execTableLoad_sec (c s) : secAfter s (execTableLoad c s) = s.sec := by
  refine mailRow_sec (fun x b s => ?_) _ _
  dsimp only
  repeat' split
  all_goals simp

@[simp] theorem execTableUnload_sec (c s) : secAfter s (execTableUnload c s) = s.sec := by
  refine mailRow_sec (fun x b s => ?_) _ _
  dsimp only
  repeat' split
  all_goals simp

@[simp] theorem execServiceLoad_sec (c sig s) : secAfter s (execServiceLoad c sig s) = s.sec := by
  refine mailRow_sec (fun x b s => ?_) _ _
  dsimp only
  repeat' split
  all_goals simp

@[simp] theorem execServiceStart_sec (c s) : secAfter s (execServiceStart c s) = s.sec := by
  refine mailRow_sec (fun x b s => ?_) c s
  split
  · rfl
  split
  · rfl
  split
  · rfl
  split
  · rfl
  · next hstart => exact startPartition_sec hstart

@[simp] theorem execServiceStop_sec (c s) : secAfter s (execServiceStop c s) = s.sec := by
  refine mailRow_sec (fun x b s => ?_) _ _
  repeat' split
  all_goals simp

@[simp] theorem execTenantCreate_sec (c s) : secAfter s (execTenantCreate c s) = s.sec := by
  refine mailRow_sec (fun x b s => ?_) _ _
  dsimp only
  repeat' split
  all_goals simp

@[simp] theorem execTenantQuota_sec (c s) : secAfter s (execTenantQuota c s) = s.sec := by simp [execTenantQuota]
@[simp] theorem execDurabilitySet_sec (c sig s) : secAfter s (execDurabilitySet c sig s) = s.sec := by simp [execDurabilitySet]

@[simp] theorem execTenantDestroy_sec (c s) : secAfter s (execTenantDestroy c s) = s.sec := by
  refine mailRow_sec (fun x b s => ?_) _ _
  dsimp only
  repeat' split
  all_goals simp

@[simp] theorem execKeyRetire_sec (c s) : secAfter s (execKeyRetire c s) = s.sec := by
  refine mailRow_sec (fun x b s => ?_) c s
  dsimp only
  split
  · rfl
  refine withTenant_sec fun k => ?_
  repeat' split
  all_goals simp

@[simp] theorem execFlashProfileLoad_sec (c s) : secAfter s (execFlashProfileLoad c s) = s.sec := by
  refine mailRow_sec (fun x b s => ?_) _ _
  repeat' split
  all_goals simp

@[simp] theorem execFlashFormat_sec (c g s) : secAfter s (execFlashFormat c g s) = s.sec := by
  refine mailRow_sec (fun x b s => ?_) c s
  repeat' split
  all_goals simp

@[simp] theorem execMapCheckpoint_sec (s) : secAfter s (execMapCheckpoint s) = s.sec := by
  simp only [execMapCheckpoint]
  split <;> simp

@[simp] theorem execSpanTableCheckpoint_sec (s) : secAfter s (execSpanTableCheckpoint s) = s.sec := by
  simp only [execSpanTableCheckpoint]
  split <;> simp

@[simp] theorem execFlush_sec (payload s) : secAfter s (execFlush payload s) = s.sec := by
  simp only [execFlush]
  split <;> simp

@[simp] theorem execFlashProgramDone_sec (job ok s) : secAfter s (execFlashProgramDone job ok s) = s.sec := by
  unfold execFlashProgramDone
  repeat' split
  all_goals simp

@[simp] theorem execFlushComplete_sec (job s) : secAfter s (execFlushComplete job s) = s.sec := by
  unfold execFlushComplete
  repeat' split
  all_goals simp

@[simp] theorem execFlashReadDone_sec (job e s) : secAfter s (execFlashReadDone job e s) = s.sec := by
  unfold execFlashReadDone
  repeat' split
  all_goals simp

@[simp] theorem execFlashEraseDone_sec (seg ok s) : secAfter s (execFlashEraseDone seg ok s) = s.sec := by
  simp only [execFlashEraseDone]
  repeat' split
  all_goals simp

@[simp] theorem execGarbageCollection_sec (s) : secAfter s (execGarbageCollection s) = s.sec := by
  unfold execGarbageCollection
  repeat' split
  all_goals simp

@[simp] theorem execReadDisturb_sec (seg s) : secAfter s (execReadDisturb seg s) = s.sec := by
  unfold execReadDisturb
  repeat' split
  all_goals simp

@[simp] theorem execReadRefresh_sec (seg found s) : secAfter s (execReadRefresh seg found s) = s.sec := by
  simp only [execReadRefresh]
  repeat' split
  all_goals simp

@[simp] theorem execWearLevelling_sec (lun s) : secAfter s (execWearLevelling lun s) = s.sec := by
  unfold execWearLevelling
  repeat' split
  all_goals simp

@[simp] theorem execBlockRepair_sec (obj block s) : secAfter s (execBlockRepair obj block s) = s.sec := by
  unfold execBlockRepair
  repeat' split
  all_goals simp

@[simp] theorem execReKeyWalk_sec (tenant s) : secAfter s (execReKeyWalk tenant s) = s.sec := by
  unfold execReKeyWalk
  repeat' split
  all_goals simp

@[simp] theorem execSaveAreaErase_sec (ok s) : secAfter s (execSaveAreaErase ok s) = s.sec := by
  unfold execSaveAreaErase
  repeat' split
  all_goals simp

@[simp] theorem execMaceT1Frame_sec (b e s) : secAfter s (execMaceT1Frame b e s) = s.sec := by
  simp only [execMaceT1Frame]
  repeat' split
  all_goals simp

@[simp] theorem execMaceRepair_sec (b s) : secAfter s (execMaceRepair b s) = s.sec := by
  unfold execMaceRepair
  repeat' split
  all_goals simp

@[simp] theorem execBackgroundZeroing_sec (tenant s) : secAfter s (execBackgroundZeroing tenant s) = s.sec := by
  simp only [execBackgroundZeroing]
  split <;> simp

@[simp] theorem execBankRetirement_sec (b s) : secAfter s (execBankRetirement b s) = s.sec := by
  unfold execBankRetirement
  repeat' split
  all_goals simp

@[simp] theorem execWakeBudgetSet_sec (c s) : secAfter s (execWakeBudgetSet c s) = s.sec := by
  refine mailRow_sec (fun x b s => ?_) _ _
  dsimp only
  repeat' split
  all_goals simp

@[simp] theorem execPowerStateEntry_sec (s) : secAfter s (execPowerStateEntry s) = s.sec := by
  unfold execPowerStateEntry
  dsimp only
  split
  · rfl
  split
  · rfl
  refine (foldl_sec _ _ _ fun s i => ?_).trans (word_sec s)
  split <;> simp

@[simp] theorem execPowerStateExit_sec (v s) : secAfter s (execPowerStateExit v s) = s.sec := by
  simp only [execPowerStateExit]
  split <;> simp

@[simp] theorem execPartitionTimer_sec (v s) : secAfter s (execPartitionTimer v s) = s.sec := by
  unfold execPartitionTimer
  grind [secAfter_next, secAfter_fault, secAfter_refused, at_sec, guestRun_sec, leaveState_sec, mapCore_sec, saveCfg_sec]

@[simp] theorem execMaceSelfRefreshWake_sec (v s) : secAfter s (execMaceSelfRefreshWake v s) = s.sec := by
  simp only [execMaceSelfRefreshWake]
  repeat' split
  all_goals simp

@[simp] theorem execStandbyPowerUp_sec (s) : secAfter s (execStandbyPowerUp s) = s.sec := by
  simp only [execStandbyPowerUp]
  split <;> simp

@[simp] theorem execWrstNRise_sec (s) : secAfter s (execWrstNRise s) = s.sec := by simp [execWrstNRise]

@[simp] theorem execColdRestore_sec (v s) : secAfter s (execColdRestore v s) = s.sec := by
  simp only [execColdRestore]
  split <;> simp

@[simp] theorem execPwrfailNRise_sec (s) : secAfter s (execPwrfailNRise s) = s.sec := by simp [execPwrfailNRise]

@[simp] theorem execRecStatus_sec (tag s) : secAfter s (execRecStatus tag s) = s.sec := by
  exact recRow_sec _ _ _ _ s fun s => vendorReply_sec s ..

@[simp] theorem execCloveSave_sec (durNs s) : secAfter s (execCloveSave durNs s) = s.sec := by
  simp only [execCloveSave]
  split <;> simp

@[simp] theorem execSaveCommit_sec (s) : secAfter s (execSaveCommit s) = s.sec := by
  simp only [execSaveCommit]
  split <;> simp

@[simp] theorem execRefclkLoss_sec (s) : secAfter s (execRefclkLoss s) = s.sec := by
  simp only [execRefclkLoss]
  split <;> simp

@[simp] theorem execFailStop_sec (cause s) : secAfter s (execFailStop cause s) = s.sec := by
  simp only [execFailStop]
  split <;> simp

end Sys2Proof.Machine
end

section
/-! SUPPORT. The fuses (R478, R486): the operations that write the security part of the state move them forward only. -/

namespace Sys2Proof.Machine

/-- The fuses of `y` are where those of `x` are, or further on. -/
def FusesForward (x y : SecSt) : Prop :=
  lcsRank x.lcs ≤ lcsRank y.lcs ∧ x.svnCount ≤ y.svnCount ∧ ∀ r, x.ownerRoot = some r → y.ownerRoot = some r

theorem FusesForward.refl (x : SecSt) : FusesForward x x := ⟨Nat.le_refl _, Nat.le_refl _, fun _ h => h⟩

theorem FusesForward.of_eq {x y : SecSt} (h : y = x) : FusesForward x y := h ▸ .refl y

/-- Whatever else changes beside the fuses. -/
theorem FusesForward.of_fields {x y : SecSt} (hlcs : y.lcs = x.lcs) (hsvn : y.svnCount = x.svnCount) (hroot : y.ownerRoot = x.ownerRoot) :
    FusesForward x y :=
  ⟨Nat.le_of_eq (congrArg lcsRank hlcs.symm), Nat.le_of_eq hsvn.symm, fun _ h => hroot ▸ h⟩

theorem FusesForward.of_lcs {x y : SecSt} (hlcs : lcsRank x.lcs ≤ lcsRank y.lcs) (hsvn : y.svnCount = x.svnCount)
    (hroot : y.ownerRoot = x.ownerRoot) : FusesForward x y :=
  ⟨hlcs, Nat.le_of_eq hsvn.symm, fun _ h => hroot ▸ h⟩

theorem FusesForward.trans {x y z : SecSt} (h : FusesForward x y) (h' : FusesForward y z) : FusesForward x z :=
  ⟨Nat.le_trans h.1 h'.1, Nat.le_trans h.2.1 h'.2.1, fun r hr => h'.2.2 r (h.2.2 r hr)⟩

theorem FusesForward.mailRow {h : MailCtx → Bytes → State → MailRes} (hh : ∀ x b s, FusesForward s.sec (h x b s).sec)
    (code k need c s) :
    FusesForward s.sec (mailRow code k need h c s).sec := by
  obtain hrow | ⟨x, b, u, hu, hrow⟩ := mailRow_sec_or code k need h c s
  · exact .of_eq hrow
  · rw [hrow, ← hu]
    exact hh x b u

theorem FusesForward.mailRowIf {h : MailCtx → Bytes → State → MailRes} (hh : ∀ x b s, FusesForward s.sec (h x b s).sec)
    (p code k need c s) :
    FusesForward s.sec (mailRowIf p code k need h c s).sec := by
  unfold Machine.mailRowIf
  split
  · exact .refl _
  · split
    · exact .mailRow hh ..
    · exact .refl _

/-- A life-cycle operation acts on a state whose nonce has served, where its conditions hold. -/
theorem FusesForward.lcsRow {op need : Nat} {allow : MailCtx → Bytes → State → Bool} {h : Bytes → Bytes → State → MailRes}
    (hh : ∀ x nonce b s, allow x b s = true → FusesForward s.sec (h nonce b (nonceServed s)).sec) (c s) :
    FusesForward s.sec (lcsRow op need allow h c s).sec := by
  refine .mailRowIf (fun x b s => ?_) _ _ _ _ c s
  split
  · exact .refl _
  next hbody =>
  have hallow : allow x b s = true := by
    simp only [Bool.or_eq_true, not_or] at hbody
    simpa using hbody.2
  dsimp only
  split
  · split
    · exact hh x _ b s hallow
    · exact .refl _
  · exact .refl _

theorem norWrite_forward (s a v) : FusesForward s.sec (norWrite s a v).sec := .of_fields rfl rfl rfl
theorem dropKeys_forward (s) : FusesForward s.sec (dropKeys s).sec := .of_fields rfl rfl rfl
theorem dropSessions_forward (s) : FusesForward s.sec (dropSessions s).sec := .of_fields rfl rfl rfl

theorem coldState_forward (s) : FusesForward s.sec (coldState s).sec :=
  (FusesForward.of_eq (haltMovers_sec s)).trans (.of_fields rfl rfl rfl)

theorem warmStart_forward (s) : FusesForward s.sec (warmStart s).sec := by
  refine FusesForward.trans (.of_eq ?_) (dropKeys_forward _)
  simp

theorem standbyLost_forward (s) : FusesForward s.sec (standbyLost s).sec := coldState_forward s

theorem sbWarm_forward (s) : FusesForward s.sec (sbWarm s).sec := by
  unfold sbWarm
  split
  · exact warmStart_forward s
  · exact .refl _

theorem warmFinish_forward (s t) : FusesForward s.sec (warmFinish s t).sec := by
  refine (dropSessions_forward s).trans (.of_eq ?_)
  unfold warmFinish
  dsimp only
  rw [upAgain_sec, warmParts_sec, restoreMigs_sec, reapColls_sec, reapSeqs_sec, warmLeases_sec, trainFail_sec]
  exact foldl_sec _ _ _ fun s i => setStack_sec ..

/-- The ROM raises the SVN count to that of a security image, never lowers it. -/
theorem romHand_forward (s h dig t) : FusesForward s.sec (romHand s h dig t).sec := by
  have hcount : s.sec.svnCount ≤ if flagAt h 7 0 then max s.sec.svnCount (fld h 6 1) else s.sec.svnCount := by
    split
    · exact Nat.le_max_left ..
    · exact Nat.le_refl _
  unfold romHand
  dsimp only
  split
  · refine FusesForward.trans ?_ (warmFinish_forward _ _)
    exact ⟨Nat.le_refl _, hcount, fun _ h => h⟩
  · exact ⟨Nat.le_refl _, hcount, fun _ h => h⟩

theorem romRun_forward (s v) : FusesForward s.sec (romRun s v).sec := by
  unfold romRun
  split
  · exact .refl _
  split
  · exact romHand_forward ..
  · exact .of_fields rfl rfl rfl

theorem recRow_forward {f : State → State} (hf : ∀ s, FusesForward s.sec (f s).sec) (cmd tag addr s) :
    FusesForward s.sec (recRow cmd tag addr f s).sec := by
  unfold recRow
  split
  · exact .refl _
  split
  · exact .of_eq (vendorReply_sec ..)
  · exact hf s

section
variable (c : Cmd) (s : State)

theorem execLifecycleNonce_forward : FusesForward s.sec (secAfter s (execLifecycleNonce c s)) := by
  refine .mailRowIf (fun x b s => ?_) _ _ _ _ c s
  split
  · exact .refl _
  · exact .of_fields rfl rfl rfl

theorem nonceServed_forward : FusesForward s.sec (nonceServed s).sec := .of_fields rfl rfl rfl

theorem execLifecycleField_forward (sig) : FusesForward s.sec (secAfter s (execLifecycleField c sig s)) := by
  refine .lcsRow (fun x nonce b s hallow => ?_) c s
  split
  · have htest : s.sec.lcs = .test := by simpa using hallow
    exact .of_lcs (by simp [htest, lcsRank]) rfl rfl
  · exact nonceServed_forward s

theorem execOwnerClaim_forward : FusesForward s.sec (secAfter s (execOwnerClaim c s)) := by
  refine .lcsRow (fun x nonce b s hallow => ⟨Nat.le_refl _, Nat.le_refl _, fun r hr => ?_⟩) c s
  simp [hr] at hallow

theorem execOwnerRecord_forward (sig) : FusesForward s.sec (secAfter s (execOwnerRecord c sig s)) := by
  refine .lcsRow (fun x nonce b s hallow => ?_) c s
  dsimp only
  split
  · exact nonceServed_forward s
  split
  · exact nonceServed_forward s
  · exact .of_fields rfl rfl rfl

theorem execLifecycleReturn_forward (osig vsig) : FusesForward s.sec (secAfter s (execLifecycleReturn c osig vsig s)) := by
  refine .lcsRow (fun x nonce b s hallow => ?_) c s
  dsimp only
  split
  · exact nonceServed_forward s
  split
  · exact nonceServed_forward s
  · have hfield : s.sec.lcs = .field := by simpa using hallow
    rw [silent_sec]
    refine FusesForward.trans ?_ (warmStart_forward _)
    exact .of_lcs (by simp [hfield, lcsRank]) rfl rfl

theorem execLifecycleVoid_forward (sig) : FusesForward s.sec (secAfter s (execLifecycleVoid c sig s)) := by
  refine .lcsRow (fun x nonce b s hallow => ?_) c s
  dsimp only
  split
  · exact .of_lcs (by cases s.sec.lcs <;> simp [lcsRank]) rfl rfl
  · exact nonceServed_forward s

theorem withTenant_forward {t f} (hf : ∀ k, FusesForward s.sec (f k).sec) : FusesForward s.sec (withTenant s t f).sec := by
  unfold withTenant
  split
  · exact .refl _
  · split
    · exact .refl _
    · exact hf _

/-- EVIDENCE_GET writes its record beside the fuses. -/
theorem evidenceGet_forward (asig x b) : FusesForward s.sec (evidenceGet asig x b s).sec := by
  unfold evidenceGet
  dsimp only
  split
  all_goals
    split
    · exact .refl _
    split
    · refine withTenant_forward s fun t => ?_
      repeat' split
      all_goals exact .of_fields rfl rfl rfl
    · repeat' split
      all_goals exact .of_fields rfl rfl rfl

theorem execEvidenceGet_forward (asig) : FusesForward s.sec (secAfter s (execEvidenceGet c asig s)) :=
  .mailRow (fun x b s => evidenceGet_forward s asig x b) _ _ _ c s

theorem execResetWarm_forward : FusesForward s.sec (secAfter s (execResetWarm c s)) := by
  refine .mailRow (fun _ _ s => ?_) _ _ _ c s
  exact warmStart_forward s

theorem execJtagVendorToken_forward (v) : FusesForward s.sec (secAfter s (execJtagVendorToken v s)) := by
  unfold execJtagVendorToken
  split
  · split
    · exact .of_fields rfl rfl rfl
    · exact .refl _
  · exact .refl _

theorem execColdReset_forward : FusesForward s.sec (secAfter s (execColdReset s)) := by
  unfold execColdReset
  split
  · exact .refl _
  · exact coldState_forward s

theorem execWarmReset_forward : FusesForward s.sec (secAfter s (execWarmReset s)) := by
  unfold execWarmReset
  split
  · exact .refl _
  dsimp only
  split
  · exact (FusesForward.refl _).trans (warmStart_forward { s with pw.wrstLow := true })
  · exact .refl _

theorem execRegWrite_forward (tag addr data) : FusesForward s.sec (secAfter s (execRegWrite tag addr data s)) := by
  unfold execRegWrite
  dsimp only
  split
  · exact .refl _
  split
  · exact .of_eq (by simp)
  split
  · exact .of_eq (by simp)
  split
  · exact .of_eq (by split <;> simp)
  split
  · exact .of_eq (by split <;> simp)
  rw [secAfter_next]
  generalize hflushed : (if (leNat data).testBit 1 = true then _ else vendorReply s 0x11 tag stOK addr []) = u
  have hu : FusesForward s.sec u.sec := .of_eq (by rw [← hflushed]; split <;> simp)
  split
  · exact hu.trans (sbWarm_forward u)
  · exact hu

theorem execRomBoot_forward (v) : FusesForward s.sec (secAfter s (execRomBoot v s)) := by
  unfold execRomBoot
  split
  · dsimp only
    split
    · exact .refl _
    · rw [secAfter_next]
      refine FusesForward.trans ?_ (romRun_forward _ v)
      exact .refl _
  · split
    · exact .refl _
    · exact romRun_forward ..
  · exact .refl _

theorem execRecBegin_forward (tag len) : FusesForward s.sec (secAfter s (execRecBegin tag len s)) := by
  refine recRow_forward (fun s => ?_) _ _ _ s
  split
  · exact .of_eq (vendorReply_sec ..)
  · exact .of_fields rfl rfl rfl

theorem execRecWrite_forward (tag off data) : FusesForward s.sec (secAfter s (execRecWrite tag off data s)) := by
  refine recRow_forward (fun s => ?_) _ _ _ s
  dsimp only
  split
  · exact .of_eq (vendorReply_sec ..)
  split
  · exact .of_fields rfl rfl rfl
  · exact .of_fields rfl rfl rfl

theorem execRecEnd_forward (tag v) : FusesForward s.sec (secAfter s (execRecEnd tag v s)) := by
  refine recRow_forward (fun s => ?_) _ _ _ s
  dsimp only
  split
  · exact .of_eq (vendorReply_sec ..)
  split
  · exact (FusesForward.of_eq (vendorReply_sec ..)).trans (romHand_forward ..)
  · exact .of_fields rfl rfl rfl

end

/-- Of all instructions, the ones named here write the security part of the state. -/
theorem exec_forward (i s) : FusesForward s.sec (secAfter s (exec i s)) := by
  cases i with
  | lifecycleNonce c => exact execLifecycleNonce_forward c s
  | lifecycleField c sig => exact execLifecycleField_forward c s sig
  | ownerClaim c => exact execOwnerClaim_forward c s
  | ownerRecord c sig => exact execOwnerRecord_forward c s sig
  | lifecycleReturn c osig vsig => exact execLifecycleReturn_forward c s osig vsig
  | lifecycleVoid c sig => exact execLifecycleVoid_forward c s sig
  | evidenceGet c asig => exact execEvidenceGet_forward c s asig
  | resetWarm c => exact execResetWarm_forward c s
  | jtagVendorToken v => exact execJtagVendorToken_forward s v
  | coldReset => exact execColdReset_forward s
  | warmReset => exact execWarmReset_forward s
  | standbyPowerLoss => exact standbyLost_forward s
  | railCollapse => exact standbyLost_forward s
  | sbCtrlWarm => exact sbWarm_forward s
  | regWrite tag addr data => exact execRegWrite_forward s tag addr data
  | romBoot v => exact execRomBoot_forward s v
  | recBegin tag len => exact execRecBegin_forward s tag len
  | recWrite tag off data => exact execRecWrite_forward s tag off data
  | recEnd tag v => exact execRecEnd_forward s tag v
  | _ => exact .of_eq (by simp [exec])

theorem FusesHold.forward {rank svn : Nat} {root : Option Bytes} {s t : State} (h : FusesHold rank svn root s)
    (hst : FusesForward s.sec t.sec) : FusesHold rank svn root t := by
  obtain ⟨hrank, hsvn, hroot⟩ := h
  obtain ⟨hrank', hsvn', hroot'⟩ := hst
  exact ⟨Nat.le_trans hrank hrank', Nat.le_trans hsvn hsvn', fun r hr => hroot' r (hroot r hr)⟩

/-- Settles O5: the fuses stand in the security part of the state, which few operations change, and none of them takes a fuse
back. -/
theorem fusesNeverGoBack : Obligations.FusesNeverGoBack := by
  intro rank svn root s t hs hstep
  refine hs.forward ?_
  cases hp : s.pending with
  | nil =>
    obtain rfl := Host.Outcome.next.inj ((step_of_pending_nil s hp).symm.trans hstep)
    exact .refl _
  | cons c rest =>
    have hexec := (step_front c rest s hp).symm.trans hstep
    simpa [hexec] using exec_forward c { s with pending := rest }

end Sys2Proof.Machine
end
